-- ==== Sys2Proof/Word.lean ====
section
/-!
DEFINITION. The word types of the part: registers and handles of 64 bits (R19, R105), bytes (R2), vectors of 1,024 bits
(R150) and block payloads of 4,096 bytes (R18).
-/
namespace Sys2Proof

/-- A register, a handle or a literal: 64 bits. -/
abbrev Word := BitVec 64

/-- One byte. -/
abbrev Byte := BitVec 8

/-- A vector register, or one row of a block (R150). -/
abbrev Vec := BitVec 1024

/-- The payload of a block, or an accumulator tile: 4,096 bytes, byte `i` at bits `8i+7:8i` (R18, R177). -/
abbrev Payload := BitVec 32768

end Sys2Proof
end

