-- ==== Sys2Proof/Machine/Flags.lean ====
section
/-!
DEFINITION. Numbers, formats, rounding and flags (R124, R131 to R144): exact binary values, one rounding function for every
floating format, the exact operations with the flags they raise.
-/
namespace Sys2Proof.Machine

/-- The sticky flags (R62). -/
def fInvalid : BitVec 5 := 1#5
def fDivide : BitVec 5 := 2#5
def fOverflow : BitVec 5 := 4#5
def fUnderflow : BitVec 5 := 8#5
def fInexact : BitVec 5 := 16#5

/-- Rounding modes (R142) as RMODE codes them. -/
def rne : BitVec 2 := 0#2
def rz : BitVec 2 := 1#2
def rd : BitVec 2 := 2#2
def ru : BitVec 2 := 3#2

/-- A value: a NaN, signalling or quiet; an infinity; or `± m · 2^e` with a sign of zero. -/
inductive Num where
  | nan (signalling : Bool)
  | inf (neg : Bool)
  | fin (neg : Bool) (m : Nat) (e : Int)
  deriving DecidableEq, Repr

/-- The value of an integer. -/
def Num.ofInt (i : Int) : Num := .fin (decide (i < 0)) i.natAbs 0
/-- Is it a NaN? -/
def Num.isNan (x : Num) : Bool := match x with | .nan _ => true | _ => false
/-- Is it a signalling NaN? -/
def Num.isSig (x : Num) : Bool := match x with | .nan s => s | _ => false
/-- Is it a zero? -/
def Num.isZero (x : Num) : Bool := match x with | .fin _ m _ => m == 0 | _ => false
/-- Its sign. -/
def Num.neg? (x : Num) : Bool := match x with | .nan _ => false | .inf n => n | .fin n _ _ => n
/-- The other sign. -/
def Num.negate (x : Num) : Num := match x with | .nan s => .nan s | .inf n => .inf !n | .fin n m e => .fin (!n) m e

/-- A floating format: sign, widths, bias, special policy and subnormals (R132, R134). -/
structure FloatFmt where
  sgn : Bool
  e : Nat
  m : Nat
  bias : Int
  spec : BitVec 2
  sub : Bool
  deriving DecidableEq, Repr

/-- F32, F16 and B16 (R132). -/
def fmtF32 : FloatFmt := { sgn := true, e := 8, m := 23, bias := 127, spec := 1, sub := true }
def fmtF16 : FloatFmt := { sgn := true, e := 5, m := 10, bias := 15, spec := 1, sub := true }
def fmtB16 : FloatFmt := { sgn := true, e := 8, m := 7, bias := 127, spec := 1, sub := true }

/-- A descriptor word as a format (R134). -/
def descFmt (w : BitVec 32) : FloatFmt :=
  { sgn := w.getLsbD 30, e := if w.extractLsb' 27 3 = 0 then 8 else (w.extractLsb' 27 3).toNat, m := (w.extractLsb' 24 3).toNat,
    bias := (w.extractLsb' 16 8).toInt, spec := w.extractLsb' 14 2, sub := w.getLsbD 11 }
/-- SCALE of a descriptor. -/
def descScale (w : BitVec 32) : BitVec 2 := w.extractLsb' 12 2
/-- Bits of a code. -/
def FloatFmt.bits (f : FloatFmt) : Nat := f.sgn.toNat + f.e + f.m
/-- Is a descriptor well-formed (R135)? -/
def descOk (w : BitVec 32) : Bool :=
  let f := descFmt w
  w.getLsbD 31 && w.extractLsb' 0 11 == 0 && f.spec != 3 && descScale w != 3 && decide (2 ≤ f.bits ∧ f.bits ≤ 8)
    && (f.spec != 1 || decide (2 ≤ f.e ∧ 1 ≤ f.m)) && (f.m != 0 || !f.sub)
/-- Bits of the container of an element (R136). -/
def FloatFmt.container (f : FloatFmt) : Nat := if f.bits ≤ 4 then 4 else 8

/-- The value of a code (R132, R137). -/
def FloatFmt.decode (f : FloatFmt) (code : Nat) : Num :=
  let s := f.sgn && code.testBit (f.e + f.m)
  let ef := (code >>> f.m) % 2 ^ f.e
  let mf := code % 2 ^ f.m
  if f.spec = 1 && ef == 2 ^ f.e - 1 then (if mf = 0 then .inf s else .nan !(mf.testBit (f.m - 1)))
  else if f.spec = 2 && ef == 2 ^ f.e - 1 && mf == 2 ^ f.m - 1 then .nan false
  else if f.m = 0 then .fin s 1 (ef - f.bias)
  else if ef = 0 then (if f.sub then .fin s mf (1 - f.bias - f.m) else .fin s 0 0)
  else .fin s (2 ^ f.m + mf) (ef - f.bias - f.m)

/-- The code of the NaN, if the format has one (R138, step 1). -/
def FloatFmt.nanCode (f : FloatFmt) : Option Nat :=
  if f.spec = 1 then some ((2 ^ f.e - 1) * 2 ^ f.m + 2 ^ (f.m - 1))
  else if f.spec = 2 then some (2 ^ (f.e + f.m) - 1)
  else none
/-- The code of the largest finite magnitude. -/
def FloatFmt.maxCode (f : FloatFmt) : Nat :=
  if f.spec = 1 then (2 ^ f.e - 1) * 2 ^ f.m - 1
  else if f.spec = 2 then 2 ^ (f.e + f.m) - 2
  else 2 ^ (f.e + f.m) - 1
/-- A magnitude code with a sign. -/
def FloatFmt.signed (f : FloatFmt) (neg : Bool) (code : Nat) : Nat := if neg then code + 2 ^ (f.e + f.m) else code

/-- `m · 2^e` in units of `2^q`: the whole units, and how the rest stands to one half: 0 nothing, 1 less, 2 equal, 3 more. -/
def inUnits (m : Nat) (e q : Int) : Nat × Nat :=
  if q ≤ e then (m <<< (e - q).toNat, 0)
  else
    let sh := (q - e).toNat
    let r := m % 2 ^ sh
    let half := 2 ^ (sh - 1)
    (m >>> sh, if r = 0 then 0 else if r < half then 1 else if r = half then 2 else 3)

/-- Does rounding go away from zero: the mode, the sign, the rest, and whether a tie goes up (R142)? -/
def goesUp (mode : BitVec 2) (neg : Bool) (rest : Nat) (tieUp : Bool) : Bool :=
  if rest = 0 then false
  else match mode.toNat with
    | 0 => rest == 3 || (rest == 2 && tieUp)
    | 1 => false
    | 2 => neg
    | _ => !neg

/-- Is an overflow in this mode an infinity (R124)? -/
def toInf (mode : BitVec 2) (neg : Bool) : Bool :=
  match mode.toNat with
  | 0 => true
  | 1 => false
  | 2 => neg
  | _ => !neg

/-- Round a finite nonzero value `± m · 2^e` to a format (R124, R138 steps 4 to 7). -/
def FloatFmt.roundFin (f : FloatFmt) (mode : BitVec 2) (neg : Bool) (m : Nat) (e : Int) : Nat × BitVec 5 :=
  let top := e + (Nat.log2 m : Int)
  let emin : Int := if f.m = 0 then -f.bias else 1 - f.bias
  if top < emin && f.m == 0 then (0, fUnderflow ||| fInexact)
  else if top < emin && !f.sub then
    let rest := if top + 1 < emin then 1 else if m = 2 ^ Nat.log2 m then 2 else 3
    (f.signed neg (if goesUp mode neg rest false then 2 ^ f.m else 0), fUnderflow ||| fInexact)
  else
    let q := max top emin - (f.m : Int)
    let u := inUnits m e q
    let tieUp := if f.m = 0 then decide ((q + f.bias) % 2 = 1) else u.1 % 2 == 1
    let n := if goesUp mode neg u.2 tieUp then u.1 + 1 else u.1
    let code := (q + (f.m : Int) + f.bias - 1) * 2 ^ f.m + (n : Int)
    if (f.maxCode : Int) < code then
      ((if f.spec = 1 && toInf mode neg then f.signed neg (f.maxCode + 1) else f.signed neg f.maxCode), fOverflow ||| fInexact)
    else
      let q' := top - (f.m : Int)
      let v := inUnits m e q'
      let n' := if goesUp mode neg v.2 (v.1 % 2 == 1) then v.1 + 1 else v.1
      let tiny := decide (top < emin) && !(n' == 2 ^ (f.m + 1) && decide (top + 1 = emin))
      (f.signed neg code.toNat, (if u.2 = 0 then 0 else fInexact) ||| (if tiny && u.2 != 0 then fUnderflow else 0))

/-- Write a value to a format (R124, R138). -/
def FloatFmt.round (f : FloatFmt) (mode : BitVec 2) (x : Num) : Nat × BitVec 5 :=
  match x with
  | .nan _ =>
    match f.nanCode with
    | some c => (c, 0)
    | none => (0, fInvalid)
  | .inf neg =>
    if neg && !f.sgn then (0, fInvalid)
    else if f.spec = 1 then (f.signed neg (f.maxCode + 1), 0)
    else (f.signed neg f.maxCode, fInvalid)
  | .fin neg m e =>
    if neg && !f.sgn then (0, if m = 0 then 0 else fInvalid)
    else if m = 0 then (if f.m = 0 then (0, fInvalid) else (f.signed neg 0, 0))
    else f.roundFin mode neg m e

/-! ### Exact operations: the value, and the invalid and divide flags -/

/-- Invalid for a signalling operand. -/
def sigFlag (x : Num) : BitVec 5 := if x.isSig then fInvalid else 0

/-- The integer `± m · 2^(e - q)` for `q ≤ e`. -/
def scaled (neg : Bool) (m : Nat) (e q : Int) : Int := if neg then -((m <<< (e - q).toNat : Nat) : Int) else ((m <<< (e - q).toNat : Nat) : Int)

/-- The sum (R124), with the sign of an exact zero. -/
def Num.add (mode : BitVec 2) (a b : Num) : Num × BitVec 5 :=
  let fl := sigFlag a ||| sigFlag b
  match a, b with
  | .nan _, _ => (.nan false, fl)
  | _, .nan _ => (.nan false, fl)
  | .inf s, .inf t => if s == t then (.inf s, 0) else (.nan false, fInvalid)
  | .inf s, _ => (.inf s, 0)
  | _, .inf t => (.inf t, 0)
  | .fin s m e, .fin t n d =>
    if m = 0 && n = 0 then (.fin (if s == t then s else mode == rd) 0 0, 0)
    else if m = 0 then (.fin t n d, 0)
    else if n = 0 then (.fin s m e, 0)
    else
      let q := min e d
      let v := scaled s m e q + scaled t n d q
      if v = 0 then (.fin (mode == rd) 0 0, 0) else (.fin (decide (v < 0)) v.natAbs q, 0)

/-- The product (R124). -/
def Num.mul (a b : Num) : Num × BitVec 5 :=
  let fl := sigFlag a ||| sigFlag b
  match a, b with
  | .nan _, _ => (.nan false, fl)
  | _, .nan _ => (.nan false, fl)
  | .inf s, y => if y.isZero then (.nan false, fInvalid) else (.inf (s != y.neg?), 0)
  | x, .inf t => if x.isZero then (.nan false, fInvalid) else (.inf (x.neg? != t), 0)
  | .fin s m e, .fin t n d => (.fin (s != t) (m * n) (e + d), 0)

/-- The product plus an addend, in one rounding (R124). -/
def Num.fma (mode : BitVec 2) (a b c : Num) : Num × BitVec 5 :=
  let p := a.mul b
  let r := p.1.add mode c
  (r.1, p.2 ||| r.2)

/-- The quotient to 64 bits and one that stands for the rest: it rounds as the exact quotient does (R124). -/
def Num.div (a b : Num) : Num × BitVec 5 :=
  let fl := sigFlag a ||| sigFlag b
  match a, b with
  | .nan _, _ => (.nan false, fl)
  | _, .nan _ => (.nan false, fl)
  | .inf _, .inf _ => (.nan false, fInvalid)
  | .inf s, y => (.inf (s != y.neg?), 0)
  | x, .inf t => (.fin (x.neg? != t) 0 0, 0)
  | .fin s m e, .fin t n d =>
    if n = 0 then (if m = 0 then (.nan false, fInvalid) else (.inf (s != t), fDivide))
    else
      let k := 64 + Nat.log2 n
      let x := m <<< k
      (.fin (s != t) (2 * (x / n) + (if x % n = 0 then 0 else 1)) (e - d - k - 1), 0)

/-- The whole square root of `n`, bit by bit from bit `k - 1` downwards, above `r`. -/
def isqrt (n k r : Nat) : Nat :=
  match k with
  | 0 => r
  | k + 1 => if (r + 2 ^ k) * (r + 2 ^ k) ≤ n then isqrt n k (r + 2 ^ k) else isqrt n k r

/-- The square root to 64 bits and one that stands for the rest (R124). -/
def Num.sqrt (a : Num) : Num × BitVec 5 :=
  match a with
  | .nan s => (.nan false, if s then fInvalid else 0)
  | .inf s => if s then (.nan false, fInvalid) else (.inf false, 0)
  | .fin s m e =>
    if m = 0 then (.fin s 0 0, 0)
    else if s then (.nan false, fInvalid)
    else
      let odd := e % 2
      let k := 128
      let x := (m <<< odd.toNat) <<< k
      let r := isqrt x (Nat.log2 x / 2 + 1) 0
      (.fin false (2 * r + (if r * r = x then 0 else 1)) ((e - odd - k) / 2 - 1), 0)

/-- Is `a` below `b`, both no NaN? Zeros of either sign are equal. -/
def Num.lt (a b : Num) : Bool :=
  match a, b with
  | .inf s, .inf t => s && !t
  | .inf s, _ => s
  | _, .inf t => !t
  | .fin s m e, .fin t n d => decide (scaled s m e (min e d) < scaled t n d (min e d))
  | _, _ => false
/-- Are `a` and `b`, both no NaN, equal? -/
def Num.eq (a b : Num) : Bool := !a.isNan && !b.isNan && !a.lt b && !b.lt a

/-- Order for minimum and maximum: −0 below +0 (R125). -/
def Num.below (a b : Num) : Bool := a.lt b || (a.isZero && b.isZero && a.neg? && !b.neg?)

/-- Round to a whole number (R126, R144): the number, and whether it changed. -/
def roundInt (mode : BitVec 2) (neg : Bool) (m : Nat) (e : Int) : Int × Bool :=
  let u := inUnits m e 0
  let n := if goesUp mode neg u.2 (u.1 % 2 == 1) then u.1 + 1 else u.1
  ((if neg then -(n : Int) else (n : Int)), u.2 != 0)

/-- Floating to an integer range (R126, R144). -/
def Num.toRange (mode : BitVec 2) (lo hi : Int) (x : Num) : Int × BitVec 5 :=
  match x with
  | .nan _ => (0, fInvalid)
  | .inf s => (if s then lo else hi, fInvalid)
  | .fin s m e =>
    let r := roundInt mode s m e
    if r.1 < lo then (lo, fInvalid)
    else if hi < r.1 then (hi, fInvalid)
    else (r.1, if r.2 then fInexact else 0)

/-- `round_f32` (R124). -/
def roundF32 (mode : BitVec 2) (x : Num) : BitVec 32 × BitVec 5 :=
  let r := fmtF32.round mode x
  (BitVec.ofNat 32 r.1, r.2)
/-- The value of a binary32 word. -/
def f32 (w : BitVec 32) : Num := fmtF32.decode w.toNat
/-- Round an exact result that comes with flags. -/
def roundTo (f : FloatFmt) (mode : BitVec 2) (x : Num × BitVec 5) : Nat × BitVec 5 :=
  let r := f.round mode x.1
  (r.1, r.2 ||| x.2)

/-- Minimum or maximum of two codes of a format (R125): the code taken, and invalid for a signalling operand. -/
def minMax (f : FloatFmt) (max? : Bool) (a b : Nat) : Nat × BitVec 5 :=
  let x := f.decode a
  let y := f.decode b
  let fl := sigFlag x ||| sigFlag y
  match x.isNan, y.isNan with
  | true, true => ((f.nanCode).getD 0, fl)
  | true, false => (b, fl)
  | false, true => (a, fl)
  | false, false => ((if max? then (if x.below y then b else a) else (if y.below x then b else a)), fl)

end Sys2Proof.Machine
end

