-- ==== Sys2Proof/Syntax.lean ====
section
/-!
DEFINITION. The abstract syntax: one constructor of `Instr` for each row of the opcode table. An instruction of a strand
carries its operand fields as encoded; an event carries what the outside supplies with it and every choice that the spec
leaves to the part (log entry 2).
-/
namespace Sys2Proof

/-- The guard of an extended form (R83): it executes if bit `bit` of the register named by `reg` equals 1 minus the sense. -/
structure Guard where
  sense : Bool
  reg : BitVec 4
  bit : BitVec 6
  deriving DecidableEq, Repr

/-- Base form or extended form with an optional guard (R75, R76). For a literal member the lengths are 01 and 11 (R73). -/
structure Form where
  ext : Bool
  gd : Option Guard
  deriving DecidableEq, Repr

/-- The form of an instruction on window fields (R78): `rd`, `ra`, `rb`, `rc` say which window fields are relative. -/
structure WForm where
  ext : Bool
  gd : Option Guard
  rm : BitVec 3
  rd : Bool
  ra : Bool
  rb : Bool
  rc : Bool
  idx : BitVec 3
  deriving DecidableEq, Repr

/-- The fields of an extended-only member, layouts XO, word 1 and word 2 (R76, R77). -/
structure XOp where
  rd : BitVec 4
  ra : BitVec 4
  rb : BitVec 4
  imm12 : BitVec 12
  gd : Option Guard
  fmt : BitVec 4
  fd : BitVec 3
  rm : BitVec 3
  mod : BitVec 2
  rc : BitVec 4
  re : BitVec 4
  lme : Bool
  lmr : BitVec 3
  scope : BitVec 3
  bx : Bool
  bn : BitVec 2
  am : BitVec 2
  bit : BitVec 6
  imm6 : BitVec 6
  deriving DecidableEq, Repr

/-- An operation that acts on a block at its home (R202 to R209, R216, R238, R248, R50). -/
inductive OpKind where
  /-- A read (R204); `consume` for `.r` (R208). -/
  | read (consume : Bool)
  /-- WAIT (R215): a read that transfers no data. -/
  | wait
  /-- A posted write of `n` bytes at offset `off`, the bytes in the low end of `data` (R202). -/
  | write (off : BitVec 12) (n : Nat) (data : Payload) (q : Bool)
  /-- SEAL, or SEALE with `x` (R203). -/
  | seal (x : Bool)
  /-- One arrival (R205). -/
  | arrival
  /-- ACC or ACCT, with the arrival of `.c` (R248). -/
  | accum (off : BitVec 12) (n : Nat) (fmt : BitVec 4) (rule : BitVec 2) (arr : Bool) (data : Payload)
  /-- ARM with its arm word (R206). -/
  | arm (w : Word)
  /-- REL (R208). -/
  | release
  /-- CLR, or CLRX with `x` (R209). -/
  | clear (x : Bool)
  /-- DISCARD (R238). -/
  | discard
  /-- PROBE or GENR (R216, R217). -/
  | probe
  /-- A watcher registration (R50). -/
  | watcher (die : BitVec 3) (node : BitVec 32)
  deriving DecidableEq, Repr

/-- What a home answers to an operation. -/
inductive Reply where
  /-- The block's payload at one generation, its presence word, and the outcome bits of a consuming read (R204, R208, R215). -/
  | data (bytes : Payload) (pw : BitVec 16) (bits : BitVec 16)
  | stale
  | poison
  /-- Status code of R210 and, for ACNT, the ticket (R260). -/
  | status (code : BitVec 4) (ticket : BitVec 16)
  /-- The 64-bit word of PROBE (R216). -/
  | probe (w : Word)
  /-- Outcome of a posted operation: bits of R267, and the cause of its failure (R266). -/
  | report (bits : BitVec 16) (cause : BitVec 5)
  deriving DecidableEq, Repr

/-- What another module's Lantern sends to this one (R300). -/
inductive FrameBody where
  /-- A block operation from unit `u` of the sending module under its sequence number (R255), with the cluster and record reference
  of a reader (R302) and its tags (R265). -/
  | op (k : OpKind) (h : Word) (u : Nat) (seq : Word) (cl : BitVec 9) (rec : Nat) (node : BitVec 32) (ordinal : BitVec 32)
      (tracker : Nat) (batch : BitVec 2)
  /-- The answer to the operation that unit `u` of this module sent under `seq`. -/
  | reply (u : Nat) (seq : Word) (r : Reply)
  /-- A wake of a remote reader of handle `h`, a watcher fire, or a wake that enters a trap: a CLRX abort or poison (R302, R368). -/
  | wake (cl : BitVec 9) (rec : Nat) (h : Word)
  | fire (node : BitVec 32)
  | abort (cl : BitVec 9) (rec : Nat) (h : Word) (cause : BitVec 5)
  /-- The release of unit `u` (R255). -/
  | release (u : Nat)
  /-- A close or sync of a batch that has operations at this module, without a count for a batch that does not track it, and its
  answer: operations in effect, bits, first failure (R266). -/
  | close (tracker : Nat) (batch : BitVec 2) (count : Option Nat) (take : Bool) (rec : Nat)
  | closeReply (tracker : Nat) (batch : BitVec 2) (take : Bool) (n : Nat) (bits : BitVec 16)
      (first : Option (Nat × Nat × BitVec 5 × Word)) (rec : Nat)
  /-- POISON of a merge for a copy engine's write (R199). -/
  | late (cl : BitVec 9) (tracker : Nat) (batch : BitVec 2) (ordinal : BitVec 32) (bits : BitVec 16) (cause : BitVec 5) (h : Word)
  /-- The instance of a record or node that made a stub ends: the stub found no room, or was lost (R200, R256, R368). -/
  | lost (rec : Nat) (node : BitVec 32) (cause : BitVec 5) (v : Word)
  /-- The watcher stubs of these node instances of the sending module are to be dropped (R319). -/
  | drop (nodes : List (BitVec 32))
  /-- A hint to make a block resident, and to send it as a copy for a cluster; and that copy (R237). -/
  | pref (h : Word) (target : Option (BitVec 9))
  | copy (h : Word) (cl : BitVec 9) (data : Payload)
  deriving DecidableEq, Repr

/-- A SEND on its way to the peer's Lantern (R304, R306): its source, channel, destination, the unit and sequence number of its
write with the tags of R265, its data, its number, and the number of the SEND accepted before it on the channel whose receipt was
outstanding, zero if there was none. -/
structure SendMsg where
  frm : BitVec 8
  chan : Word
  hd : Word
  unit : Nat
  seq : Word
  tracker : Nat
  batch : BitVec 2
  ordinal : BitVec 32
  node : BitVec 32
  data : Payload
  num : Nat
  prev : Nat
  deriving DecidableEq, Repr

/-- The tags that a SEND's write carries (R265): its unit and sequence number, and its batch, ordinal and node instance. -/
structure OpTags where
  unit : Nat
  seq : Word
  tracker : Nat
  batch : BitVec 2
  ordinal : BitVec 32
  node : BitVec 32
  deriving DecidableEq, Repr

/-- Where a SEND stands in its channel (R304): its number and the number of the one before it. -/
structure SendOrder where
  num : Nat
  prev : Nat
  deriving DecidableEq, Repr

/-- The receipt of a frame or a SEND by the Lantern of a module (R301, R304). -/
structure Receipt where
  frm : BitVec 8
  num : Nat
  deriving DecidableEq, Repr

/-- The generations that an arrival names (R309): the one it expects and its own. -/
structure Gens where
  expect : BitVec 32
  theirs : BitVec 32
  deriving DecidableEq, Repr

/-- What a plane answers to a UPC message (R312): its number, the result and the port pairs. -/
structure UpcAnswer where
  seq : BitVec 32
  result : BitVec 16
  pairs : List (BitVec 8)
  deriving DecidableEq, Repr

/-- The leader's order to relock (R309, R311): to the plan in force after a fall-back, and the planes that did not return. -/
structure RelockOrder where
  fallback : Bool
  lost : BitVec 64
  deriving DecidableEq, Repr

/-- A fibre that has not relocked in time (R309), to the new plan or in a fall-back. -/
structure LateFibre where
  fibre : BitVec 6
  fallback : Bool
  deriving DecidableEq, Repr

/-- A plan with its entries (R296, R386). -/
structure PlanTable where
  plan : BitVec 4
  entries : List (Nat × BitVec 16)
  deriving DecidableEq, Repr

/-- One module's arrival at the leader (R309): the number of its collective, plan, DIGEST unless the plan is not loaded, expected
and own tgen. -/
structure Arrival where
  round : Nat
  plan : BitVec 4
  digest : Option (BitVec 256)
  expect : BitVec 32
  theirs : BitVec 32
  deriving DecidableEq, Repr

/-- A routed frame with its end points and its number at the sending Lantern (R300, R301), and the topology generation under which it
was put on its fibre (R309; log entry 55). -/
structure Frame where
  src : BitVec 8
  dst : BitVec 8
  num : Nat
  body : FrameBody
  gen : BitVec 32 := 0
  deriving DecidableEq, Repr

/-- A unit of the part as an error names it (R370, R372). The R370 word of an HBM row holds its stack alone; `row` is the row in the stack,
which an error record names as its address (R371), and zero for every other unit. -/
structure UnitId where
  unit : BitVec 8
  die : BitVec 3
  cluster : BitVec 6
  index : BitVec 6
  row : BitVec 24 := 0
  deriving DecidableEq, Repr

/-- A firmware component as it stands in flash (R382): whether it can be read, whether its signature verifies, its header's fields,
and its header and body. -/
structure Component where
  readable : Bool
  signed : Bool
  number : BitVec 32
  version : BitVec 32
  floor : BitVec 32
  bytes : List (BitVec 8)
  deriving DecidableEq, Repr

/-- What a step of the boot sequence finds (R380 to R384): the components 0 to 5 of the two flash copies, whether hearth die 0
works, the units that fail, the dies that pass, the fibres that train, and the entries that plan 0 is provisioned with, by `64 m + k`
(R344; log entry 91). -/
structure BootOutcome where
  copyA : List Component
  copyB : List Component
  hearth : Bool
  failed : List UnitId
  dies : BitVec 8
  fibres : BitVec 64
  plan0 : List (Nat × BitVec 16) := []
  deriving DecidableEq, Repr

/-- A UHP datagram with its header (R38); `under` is the session whose keys its tag verifies under, which a CONFIRM's header does not
name (R35, R36), and none where it verifies under none. -/
structure Datagram where
  ver : BitVec 8
  typ : BitVec 8
  a : Bool
  m : Bool
  session : BitVec 32
  seq : BitVec 32
  ack : BitVec 32
  body : List (BitVec 8)
  under : Option (BitVec 32)
  deriving DecidableEq, Repr

/-- The header of a RoCEv2 request (R46). -/
structure Packet where
  port : Bool
  qpn : BitVec 24
  psn : BitVec 24
  rkey : BitVec 32
  va : Word
  deriving DecidableEq, Repr

/-- What an error has struck (R367). -/
inductive ErrTarget where
  | nothing
  /-- A strand's own state or record. -/
  | strand (rec : Nat)
  /-- Entries of a Belfry, a dispatcher or a deque: the node instances whose record or entry was held there. -/
  | entry (nodes : List (BitVec 32))
  /-- A space-0 block by its home and physical number, with the generation that the lost data belonged to (R379); `lost` when its
  presence tag, with seal mode, armed count and quota, is destroyed. -/
  | block (cl : BitVec 9) (blk : Nat) (gen : BitVec 12) (lost : Bool)
  /-- A scratchpad slot of a cluster, in the same way. -/
  | slot (cl : BitVec 9) (slot : BitVec 9) (gen : BitVec 12) (lost : Bool)
  /-- Entries of a block's log by their places in it, and its descriptor. -/
  | log (cl : BitVec 9) (blk : Nat) (entries : List Nat) (desc : Bool)
  /-- A remote-data copy of a cluster: its VBN and generation (R225). -/
  | copy (cl : BitVec 9) (vbn : BitVec 37) (gen : BitVec 12)
  deriving DecidableEq, Repr

/-- An error report (R367, R370, R371). -/
structure ErrorReport where
  unit : UnitId
  syndrome : BitVec 32
  addr : Word
  corrected : Bool
  target : ErrTarget
  deriving DecidableEq, Repr

/-- A unit that has idle states (R363). -/
inductive IdleUnit where
  | core (c : BitVec 13)
  | die (d : BitVec 3)
  | module
  deriving DecidableEq, Repr

/-- The instructions and events of the opcode table, one constructor for each row; the rows that have words come first. -/
inductive Instr where
  /-- ADD (R110). -/
  | add (f : Form) (rd : BitVec 4) (ra : BitVec 4) (rb : BitVec 4)
  /-- SUB (R110). -/
  | sub (f : Form) (rd : BitVec 4) (ra : BitVec 4) (rb : BitVec 4)
  /-- MUL (R110). -/
  | mul (f : Form) (rd : BitVec 4) (ra : BitVec 4) (rb : BitVec 4)
  /-- MULH (R110). -/
  | mulh (f : Form) (rd : BitVec 4) (ra : BitVec 4) (rb : BitVec 4)
  /-- MULHU (R110). -/
  | mulhu (f : Form) (rd : BitVec 4) (ra : BitVec 4) (rb : BitVec 4)
  /-- DIV (R110). -/
  | div (f : Form) (rd : BitVec 4) (ra : BitVec 4) (rb : BitVec 4)
  /-- DIVU (R110). -/
  | divu (f : Form) (rd : BitVec 4) (ra : BitVec 4) (rb : BitVec 4)
  /-- REM (R110). -/
  | rem (f : Form) (rd : BitVec 4) (ra : BitVec 4) (rb : BitVec 4)
  /-- REMU (R110). -/
  | remu (f : Form) (rd : BitVec 4) (ra : BitVec 4) (rb : BitVec 4)
  /-- AND (R110). -/
  | and (f : Form) (rd : BitVec 4) (ra : BitVec 4) (rb : BitVec 4)
  /-- OR (R110). -/
  | or (f : Form) (rd : BitVec 4) (ra : BitVec 4) (rb : BitVec 4)
  /-- XOR (R110). -/
  | xor (f : Form) (rd : BitVec 4) (ra : BitVec 4) (rb : BitVec 4)
  /-- ANDN (R110). -/
  | andn (f : Form) (rd : BitVec 4) (ra : BitVec 4) (rb : BitVec 4)
  /-- SHL (R110). -/
  | shl (f : Form) (rd : BitVec 4) (ra : BitVec 4) (rb : BitVec 4)
  /-- SHR (R110). -/
  | shr (f : Form) (rd : BitVec 4) (ra : BitVec 4) (rb : BitVec 4)
  /-- SRA (R110). -/
  | sra (f : Form) (rd : BitVec 4) (ra : BitVec 4) (rb : BitVec 4)
  /-- ROR (R110). -/
  | ror (f : Form) (rd : BitVec 4) (ra : BitVec 4) (rb : BitVec 4)
  /-- MIN (R110). -/
  | min (f : Form) (rd : BitVec 4) (ra : BitVec 4) (rb : BitVec 4)
  /-- MAX (R110). -/
  | max (f : Form) (rd : BitVec 4) (ra : BitVec 4) (rb : BitVec 4)
  /-- MINU (R110). -/
  | minu (f : Form) (rd : BitVec 4) (ra : BitVec 4) (rb : BitVec 4)
  /-- MAXU (R110). -/
  | maxu (f : Form) (rd : BitVec 4) (ra : BitVec 4) (rb : BitVec 4)
  /-- CLZ (R111). -/
  | clz (f : Form) (rd : BitVec 4) (ra : BitVec 4)
  /-- CTZ (R111). -/
  | ctz (f : Form) (rd : BitVec 4) (ra : BitVec 4)
  /-- POPC (R111). -/
  | popc (f : Form) (rd : BitVec 4) (ra : BitVec 4)
  /-- BREV (R111). -/
  | brev (f : Form) (rd : BitVec 4) (ra : BitVec 4)
  /-- ABS (R111). -/
  | abs (f : Form) (rd : BitVec 4) (ra : BitVec 4)
  /-- SEXT (R111). -/
  | sext (f : Form) (rd : BitVec 4) (ra : BitVec 4) (w1 : BitVec 6)
  /-- ZEXT (R111). -/
  | zext (f : Form) (rd : BitVec 4) (ra : BitVec 4) (w1 : BitVec 6)
  /-- MOV (R111). -/
  | mov (f : Form) (rd : BitVec 4) (ra : BitVec 4)
  /-- ADDI (R112). -/
  | addi (f : Form) (rd : BitVec 4) (ra : BitVec 4) (imm : BitVec 12)
  /-- ANDI (R112). -/
  | andi (f : Form) (rd : BitVec 4) (ra : BitVec 4) (imm : BitVec 12)
  /-- ORI (R112). -/
  | ori (f : Form) (rd : BitVec 4) (ra : BitVec 4) (imm : BitVec 12)
  /-- XORI (R112). -/
  | xori (f : Form) (rd : BitVec 4) (ra : BitVec 4) (imm : BitVec 12)
  /-- ADDI_LITERAL (R112). -/
  | addiLiteral (f : Form) (rd : BitVec 4) (ra : BitVec 4) (lit : Word)
  /-- ANDI_LITERAL (R112). -/
  | andiLiteral (f : Form) (rd : BitVec 4) (ra : BitVec 4) (lit : Word)
  /-- ORI_LITERAL (R112). -/
  | oriLiteral (f : Form) (rd : BitVec 4) (ra : BitVec 4) (lit : Word)
  /-- XORI_LITERAL (R112). -/
  | xoriLiteral (f : Form) (rd : BitVec 4) (ra : BitVec 4) (lit : Word)
  /-- SHLI (R113). -/
  | shli (f : Form) (rd : BitVec 4) (ra : BitVec 4) (n : BitVec 6)
  /-- SHRI (R113). -/
  | shri (f : Form) (rd : BitVec 4) (ra : BitVec 4) (n : BitVec 6)
  /-- SRAI (R113). -/
  | srai (f : Form) (rd : BitVec 4) (ra : BitVec 4) (n : BitVec 6)
  /-- RORI (R113). -/
  | rori (f : Form) (rd : BitVec 4) (ra : BitVec 4) (n : BitVec 6)
  /-- MOVI (R114). -/
  | movi (f : Form) (rd : BitVec 4) (imm : BitVec 20)
  /-- MOVHI (R114). -/
  | movhi (f : Form) (rd : BitVec 4) (imm : BitVec 20)
  /-- LDK (R114). -/
  | ldk (f : Form) (rd : BitVec 4) (lit : Word)
  /-- BFX (R115). -/
  | bfx (f : Form) (rd : BitVec 4) (ra : BitVec 4) (pos : BitVec 6) (len1 : BitVec 6)
  /-- BFXU (R115). -/
  | bfxu (f : Form) (rd : BitVec 4) (ra : BitVec 4) (pos : BitVec 6) (len1 : BitVec 6)
  /-- BFI (R115). -/
  | bfi (f : Form) (rd : BitVec 4) (ra : BitVec 4) (pos : BitVec 6) (len1 : BitVec 6)
  /-- CEQ (R116). -/
  | ceq (f : Form) (rd : BitVec 4) (ra : BitVec 4) (rb : BitVec 4) (bit : BitVec 6)
  /-- CNE (R116). -/
  | cne (f : Form) (rd : BitVec 4) (ra : BitVec 4) (rb : BitVec 4) (bit : BitVec 6)
  /-- CLT (R116). -/
  | clt (f : Form) (rd : BitVec 4) (ra : BitVec 4) (rb : BitVec 4) (bit : BitVec 6)
  /-- CLTU (R116). -/
  | cltu (f : Form) (rd : BitVec 4) (ra : BitVec 4) (rb : BitVec 4) (bit : BitVec 6)
  /-- CLE (R116). -/
  | cle (f : Form) (rd : BitVec 4) (ra : BitVec 4) (rb : BitVec 4) (bit : BitVec 6)
  /-- CLEU (R116). -/
  | cleu (f : Form) (rd : BitVec 4) (ra : BitVec 4) (rb : BitVec 4) (bit : BitVec 6)
  /-- CEQI (R117). -/
  | ceqi (f : Form) (rd : BitVec 4) (ra : BitVec 4) (imm : BitVec 8) (bit : BitVec 6)
  /-- CLTI (R117). -/
  | clti (f : Form) (rd : BitVec 4) (ra : BitVec 4) (imm : BitVec 8) (bit : BitVec 6)
  /-- CEQI_LITERAL (R117). -/
  | ceqiLiteral (f : Form) (rd : BitVec 4) (ra : BitVec 4) (bit : BitVec 6) (lit : Word)
  /-- CLTI_LITERAL (R117). -/
  | cltiLiteral (f : Form) (rd : BitVec 4) (ra : BitVec 4) (bit : BitVec 6) (lit : Word)
  /-- BSET (R118). -/
  | bset (f : Form) (rd : BitVec 4) (ra : BitVec 4) (bit : BitVec 6)
  /-- BCLR (R118). -/
  | bclr (f : Form) (rd : BitVec 4) (ra : BitVec 4) (bit : BitVec 6)
  /-- BINV (R118). -/
  | binv (f : Form) (rd : BitVec 4) (ra : BitVec 4) (bit : BitVec 6)
  /-- BMOV (R118). -/
  | bmov (f : Form) (rd : BitVec 4) (ra : BitVec 4) (rb : BitVec 4) (bit : BitVec 6)
  /-- SEL (R118). -/
  | sel (f : Form) (rd : BitVec 4) (ra : BitVec 4) (rb : BitVec 4) (bit : BitVec 6)
  /-- PMK (R119). -/
  | pmk (f : Form) (rd : BitVec 4) (ra : BitVec 4) (rb : BitVec 4)
  /-- PADD (R119). -/
  | padd (f : Form) (rd : BitVec 4) (ra : BitVec 4) (rb : BitVec 4)
  /-- PIDX (R119). -/
  | pidx (f : Form) (rd : BitVec 4) (ra : BitVec 4) (rb : BitVec 4)
  /-- PSUB (R119). -/
  | psub (f : Form) (rd : BitVec 4) (ra : BitVec 4) (rb : BitVec 4)
  /-- PGEN (R119). -/
  | pgen (f : Form) (rd : BitVec 4) (ra : BitVec 4) (rb : BitVec 4)
  /-- PINC (R119). -/
  | pinc (f : Form) (rd : BitVec 4) (ra : BitVec 4)
  /-- PFLD (R119). -/
  | pfld (f : Form) (rd : BitVec 4) (ra : BitVec 4) (sel : BitVec 4)
  /-- PBLK (R119). -/
  | pblk (f : Form) (rd : BitVec 4) (ra : BitVec 4)
  /-- PADDI (R120). -/
  | paddi (f : Form) (rd : BitVec 4) (ra : BitVec 4) (imm : BitVec 12)
  /-- J (R121). -/
  | j (f : Form) (disp : BitVec 24)
  /-- JAL (R121). -/
  | jal (f : Form) (disp : BitVec 24)
  /-- JR (R121). -/
  | jr (f : Form) (ra : BitVec 4)
  /-- JALR (R121). -/
  | jalr (f : Form) (rd : BitVec 4) (ra : BitVec 4)
  /-- BBS (R121). -/
  | bbs (f : Form) (ra : BitVec 4) (bit : BitVec 6) (disp : BitVec 14)
  /-- BBC (R121). -/
  | bbc (f : Form) (ra : BitVec 4) (bit : BitVec 6) (disp : BitVec 14)
  /-- BZ (R121). -/
  | bz (f : Form) (ra : BitVec 4) (disp : BitVec 20)
  /-- BNZ (R121). -/
  | bnz (f : Form) (ra : BitVec 4) (disp : BitVec 20)
  /-- DBNZ (R121). -/
  | dbnz (f : Form) (ra : BitVec 4) (disp : BitVec 20)
  /-- NOP (R121). -/
  | nop (f : Form)
  /-- FADD (R123). -/
  | fadd (f : WForm) (wd : BitVec 6) (wa : BitVec 6) (wb : BitVec 6)
  /-- FSUB (R123). -/
  | fsub (f : WForm) (wd : BitVec 6) (wa : BitVec 6) (wb : BitVec 6)
  /-- FMUL (R123). -/
  | fmul (f : WForm) (wd : BitVec 6) (wa : BitVec 6) (wb : BitVec 6)
  /-- FDIV (R123). -/
  | fdiv (f : WForm) (wd : BitVec 6) (wa : BitVec 6) (wb : BitVec 6)
  /-- FSQRT (R123). -/
  | fsqrt (f : WForm) (wd : BitVec 6) (wa : BitVec 6)
  /-- FMIN (R125). -/
  | fmin (f : WForm) (wd : BitVec 6) (wa : BitVec 6) (wb : BitVec 6)
  /-- FMAX (R125). -/
  | fmax (f : WForm) (wd : BitVec 6) (wa : BitVec 6) (wb : BitVec 6)
  /-- FABS (R125). -/
  | fabs (f : WForm) (wd : BitVec 6) (wa : BitVec 6)
  /-- FNEG (R125). -/
  | fneg (f : WForm) (wd : BitVec 6) (wa : BitVec 6)
  /-- FFMA (R123). -/
  | ffma (f : WForm) (wd : BitVec 6) (wa : BitVec 6) (wb : BitVec 6) (wc : BitVec 6)
  /-- FFMS (R123). -/
  | ffms (f : WForm) (wd : BitVec 6) (wa : BitVec 6) (wb : BitVec 6) (wc : BitVec 6)
  /-- FCLT (R125). -/
  | fclt (f : WForm) (wa : BitVec 6) (wb : BitVec 6) (gd : BitVec 4) (bit : BitVec 6)
  /-- FCLE (R125). -/
  | fcle (f : WForm) (wa : BitVec 6) (wb : BitVec 6) (gd : BitVec 4) (bit : BitVec 6)
  /-- FCEQ (R125). -/
  | fceq (f : WForm) (wa : BitVec 6) (wb : BitVec 6) (gd : BitVec 4) (bit : BitVec 6)
  /-- WGET (R122). -/
  | wget (f : WForm) (ga : BitVec 4) (wx : BitVec 6)
  /-- WPUT (R122). -/
  | wput (f : WForm) (wx : BitVec 6) (ga : BitVec 4)
  /-- WMOV (R122). -/
  | wmov (f : WForm) (wx : BitVec 6) (wy : BitVec 6)
  /-- FCVTI (R126). -/
  | fcvti (f : WForm) (wd : BitVec 6) (wa : BitVec 6)
  /-- FCVTF (R126). -/
  | fcvtf (f : WForm) (wd : BitVec 6) (wa : BitVec 6)
  /-- LDL (R127). -/
  | ldl (f : Form) (sz : BitVec 2) (rd : BitVec 4) (ra : BitVec 4) (imm : BitVec 12)
  /-- LDLU (R127). -/
  | ldlu (f : Form) (sz : BitVec 2) (rd : BitVec 4) (ra : BitVec 4) (imm : BitVec 12)
  /-- STL (R127). -/
  | stl (f : Form) (sz : BitVec 2) (rd : BitVec 4) (ra : BitVec 4) (imm : BitVec 12)
  /-- WLDL (R127). -/
  | wldl (f : WForm) (wd : BitVec 6) (ga : BitVec 4) (imm : BitVec 12)
  /-- WSTL (R127). -/
  | wstl (f : WForm) (wd : BitVec 6) (ga : BitVec 4) (imm : BitVec 12)
  /-- LD (R213). -/
  | ld (o : XOp)
  /-- LDV (R213). -/
  | ldv (o : XOp)
  /-- WLD (R213). -/
  | wld (o : XOp)
  /-- ST (R214). -/
  | st (o : XOp)
  /-- STV (R214). -/
  | stv (o : XOp)
  /-- FILL (R214). -/
  | fill (o : XOp)
  /-- FILL_LITERAL (R214). -/
  | fillLiteral (o : XOp) (lit : Word)
  /-- WAIT (R215). -/
  | wait (o : XOp)
  /-- PROBE (R216). -/
  | probe (o : XOp)
  /-- SEAL (R218). -/
  | seal (o : XOp)
  /-- SEALE (R218). -/
  | seale (o : XOp)
  /-- ARM (R218). -/
  | arm (o : XOp)
  /-- CLR (R218). -/
  | clr (o : XOp)
  /-- CLRX (R218). -/
  | clrx (o : XOp)
  /-- REL (R218). -/
  | rel (o : XOp)
  /-- GENR (R217). -/
  | genr (o : XOp)
  /-- ACC (R258). -/
  | acc (o : XOp)
  /-- ACCT (R259). -/
  | acct (o : XOp)
  /-- ACNT (R260). -/
  | acnt (o : XOp)
  /-- PREF (R237). -/
  | pref (o : XOp)
  /-- DISCARD (R238). -/
  | discard (o : XOp)
  /-- MIGR (R240). -/
  | migr (o : XOp)
  /-- CPY (R241). -/
  | cpy (o : XOp)
  /-- CPYS (R241). -/
  | cpys (o : XOp)
  /-- CPYX (R241). -/
  | cpyx (o : XOp)
  /-- CPYH (R241). -/
  | cpyh (o : XOp)
  /-- HADD (R242). -/
  | hadd (o : XOp)
  /-- HCAS (R242). -/
  | hcas (o : XOp)
  /-- VADD (R164). -/
  | vadd (o : XOp)
  /-- VSUB (R164). -/
  | vsub (o : XOp)
  /-- VMUL (R164). -/
  | vmul (o : XOp)
  /-- VFMA (R164). -/
  | vfma (o : XOp)
  /-- VFMS (R164). -/
  | vfms (o : XOp)
  /-- VMIN (R164). -/
  | vmin (o : XOp)
  /-- VMAX (R164). -/
  | vmax (o : XOp)
  /-- VABS (R164). -/
  | vabs (o : XOp)
  /-- VNEG (R164). -/
  | vneg (o : XOp)
  /-- VAND (R165). -/
  | vand (o : XOp)
  /-- VOR (R165). -/
  | vor (o : XOp)
  /-- VXOR (R165). -/
  | vxor (o : XOp)
  /-- VSHL (R165). -/
  | vshl (o : XOp)
  /-- VSHR (R165). -/
  | vshr (o : XOp)
  /-- VSRA (R165). -/
  | vsra (o : XOp)
  /-- VCVT (R166). -/
  | vcvt (o : XOp)
  /-- VSCL (R167). -/
  | vscl (o : XOp)
  /-- VRCP (R168). -/
  | vrcp (o : XOp)
  /-- VRSQ (R168). -/
  | vrsq (o : XOp)
  /-- VEXP2 (R168). -/
  | vexp2 (o : XOp)
  /-- VLOG2 (R168). -/
  | vlog2 (o : XOp)
  /-- VTANH (R168). -/
  | vtanh (o : XOp)
  /-- VRED (R169). -/
  | vred (o : XOp)
  /-- VCMP (R170). -/
  | vcmp (o : XOp)
  /-- VSEL (R171). -/
  | vsel (o : XOp)
  /-- VPERM (R172). -/
  | vperm (o : XOp)
  /-- VBCAST (R173). -/
  | vbcast (o : XOp)
  /-- VBCAST_LITERAL (R173). -/
  | vbcastLiteral (o : XOp) (lit : Word)
  /-- VINS (R173). -/
  | vins (o : XOp)
  /-- VEXT (R173). -/
  | vext (o : XOp)
  /-- VIOTA (R173). -/
  | viota (o : XOp)
  /-- VZERO (R173). -/
  | vzero (o : XOp)
  /-- VTAG (R173). -/
  | vtag (o : XOp)
  /-- VSETT_TO_DESCRIPTOR (R175). -/
  | vsettToDescriptor (o : XOp)
  /-- VSETT_FROM_DESCRIPTOR (R175). -/
  | vsettFromDescriptor (o : XOp)
  /-- VPACK (R174). -/
  | vpack (o : XOp)
  /-- VUNPK (R174). -/
  | vunpk (o : XOp)
  /-- TACQ (R184). -/
  | tacq (o : XOp)
  /-- TREL (R184). -/
  | trel (o : XOp)
  /-- TZERO (R184). -/
  | tzero (o : XOp)
  /-- TLD (R188). -/
  | tld (o : XOp)
  /-- TST (R189). -/
  | tst (o : XOp)
  /-- TADDR (R190). -/
  | taddr (o : XOp)
  /-- TADDC (R190). -/
  | taddc (o : XOp)
  /-- TSCL (R190). -/
  | tscl (o : XOp)
  /-- TMAXR (R190). -/
  | tmaxr (o : XOp)
  /-- TSUMR (R190). -/
  | tsumr (o : XOp)
  /-- TEXPR (R190). -/
  | texpr (o : XOp)
  /-- TRDV (R191). -/
  | trdv (o : XOp)
  /-- TWRV (R191). -/
  | twrv (o : XOp)
  /-- MMA (R185). -/
  | mma (o : XOp)
  /-- MMAS (R185). -/
  | mmas (o : XOp)
  /-- MMAI (R185). -/
  | mmai (o : XOp)
  /-- TOPK (R193). -/
  | topk (o : XOp)
  /-- TOPKM (R193). -/
  | topkm (o : XOp)
  /-- FENCE (R269). -/
  | fence (f : Form) (scope : BitVec 3)
  /-- BSEL (R270). -/
  | bsel (f : Form) (b : BitVec 2)
  /-- BCLOSE (R271). -/
  | bclose (f : Form) (rd : BitVec 4) (b : BitVec 2) (q : Bool)
  /-- FORK (R276). -/
  | fork (f : Form) (ra : BitVec 4) (win : BitVec 3)
  /-- JOIN (R278). -/
  | join (f : Form) (ra : BitVec 4)
  /-- YIELD (R279). -/
  | yield (f : Form)
  /-- SPAWN (R280). -/
  | spawn (f : Form) (rd : BitVec 4) (ra : BitVec 4) (rb : BitVec 4)
  /-- END (R281). -/
  | endStrand (f : Form)
  /-- SEND (R306). -/
  | send (o : XOp)
  /-- CHMK (R307). -/
  | chmk (o : XOp)
  /-- RCIR (R309). -/
  | rcir (o : XOp)
  /-- TGENR (R308). -/
  | tgenr (o : XOp)
  /-- TRAP (R326). -/
  | trap (f : Form) (code : BitVec 8)
  /-- RETT (R318). -/
  | rett (f : Form) (skip : Bool)
  /-- RDSR (R327). -/
  | rdsr (f : Form) (rd : BitVec 4) (sr : BitVec 8)
  /-- WRSR (R327). -/
  | wrsr (f : Form) (ra : BitVec 4) (sr : BitVec 8)
  /-- WRSR_PARTITION (R243). -/
  | wrsrPartition (f : Form) (ra : BitVec 4)
  /-- XBSET (R329). -/
  | xbset (f : Form) (ra : BitVec 4)
  /-- OVLD (R330). -/
  | ovld (f : Form) (ra : BitVec 4)
  /-- TLBI (R331). -/
  | tlbi (f : Form) (ra : BitVec 4) (all : Bool)
  /-- IDLE (R332). -/
  | idle (f : Form) (rd : BitVec 4)
  /-- SAVEREC (R333). -/
  | saverec (f : Form) (rd : BitVec 4) (ra : BitVec 4) (rb : BitVec 4)
  /-- LOADREC (R334). -/
  | loadrec (f : Form) (rd : BitVec 4) (ra : BitVec 4) (rb : BitVec 4)
  /-- MAPB (R335). -/
  | mapb (f : Form) (rd : BitVec 4) (ra : BitVec 4) (rb : BitVec 4)
  /-- PERF (R328). -/
  | perf (f : Form) (rd : BitVec 4) (ra : BitVec 4)
  /-- ILLEGAL_ENCODING (R85). -/
  | illegalEncoding (w0 : BitVec 32) (w1 : BitVec 32)
  /-- OVERLAY_FETCH (R70). -/
  | overlayFetch
  /-- POWER_GOOD (R380). -/
  | powerGood (o : BootOutcome)
  /-- COLD_RESET (R390). -/
  | coldReset
  /-- SUPPLY_FAULT (R15). -/
  | supplyFault
  /-- SUPPLY_RESTORED (R15). -/
  | supplyRestored
  /-- BELLOWS_PERIOD (R378). -/
  | bellowsPeriod (dies : List Nat) (hbm : Nat)
  /-- OPEN (R35). -/
  | openSession (port : Bool) (seq : BitVec 32) (body : List (BitVec 8)) (number : BitVec 32)
  /-- CONFIRM (R35). -/
  | confirm (session : BitVec 32) (seq : BitVec 32) (sigOk : Bool)
  /-- CONFIRM_TIMEOUT (R35). -/
  | confirmTimeout (session : BitVec 32)
  /-- CLOSE (R36). -/
  | close
  /-- UHP_SEGMENT (R39). -/
  | uhpSegment (port : Bool) (dg : Datagram)
  /-- ACK (R39). -/
  | ack (port : Bool) (dg : Datagram)
  /-- UHP_RETRANSMIT (R39). -/
  | uhpRetransmit (session : BitVec 32) (seq : BitVec 32)
  /-- UHP_UNKNOWN_TYPE (R40). -/
  | uhpUnknownType
  /-- IMAGE_LOAD (R24). -/
  | imageLoad
  /-- IMAGE_UNLOAD (R45). -/
  | imageUnload
  /-- GRAPH_INSTALL (R32). -/
  | graphInstall
  /-- GRAPH_REMOVE (R45). -/
  | graphRemove
  /-- BLOCK_MAP (R42). -/
  | blockMap (frames : List (BitVec 5 × BitVec 15))
  /-- BLOCK_UNMAP (R45). -/
  | blockUnmap
  /-- REGION (R40). -/
  | region (rkey : BitVec 32)
  /-- QP (R40). -/
  | qp (port : Bool) (qpn : BitVec 24) (psn : BitVec 24)
  /-- QP_DESTROY (R45). -/
  | qpDestroy
  /-- RUN (R48). -/
  | run (number : BitVec 32) (nodes : List (BitVec 32))
  /-- QUENCH (R323). -/
  | quench
  /-- LATENCY (R362). -/
  | latency
  /-- QUOTE (R44). -/
  | quote
  /-- RESET_WRITE (R385). -/
  | resetWrite
  /-- PLANLOAD_WRITE (R386). -/
  | planloadWrite
  /-- HOSTKEY_WRITE (R389). -/
  | hostkeyWrite
  /-- REGISTER_WRITE (R385). -/
  | registerWrite
  /-- ROCE_WRITE (R46). -/
  | roceWrite (p : Packet) (data : List (BitVec 8))
  /-- ROCE_WRITE_IMM (R46). -/
  | roceWriteImm (p : Packet) (data : List (BitVec 8)) (imm : BitVec 32)
  /-- ROCE_READ (R46). -/
  | roceRead (p : Packet) (len : Nat)
  /-- ROCE_UNSUPPORTED_OP (R46). -/
  | roceUnsupportedOp (p : Packet)
  /-- ROCE_UNKNOWN_QP (R46). -/
  | roceUnknownQp (p : Packet)
  /-- ROCE_WRITE_ACK (R47). -/
  | roceWriteAck (qpn : BitVec 24)
  /-- WATCHER_REGISTER (R50). -/
  | watcherRegister (m : Nat)
  /-- WATCHER_WAKE (R52). -/
  | watcherWake (m : Nat)
  /-- BELFRY_DISPATCH_ROUND (R55). -/
  | belfryDispatchRound (die : BitVec 3) (quad : BitVec 2)
  /-- BELFRY_HANDOVER (R57). -/
  | belfryHandover (die : BitVec 3) (dest : BitVec 3) (node : BitVec 32)
  /-- DISPATCHER_ACCEPT (R58). -/
  | dispatcherAccept (rec : Nat)
  /-- DISPATCHER_PLACE (R59). -/
  | dispatcherPlace (cl : BitVec 9) (slot : BitVec 3)
  /-- IMAGE_SWITCH_DONE (R25). -/
  | imageSwitchDone (core : BitVec 13)
  /-- DEQUE_POP (R275). -/
  | dequePop (core : BitVec 13) (slot : BitVec 3)
  /-- STEAL_ATTEMPT (R277). -/
  | stealAttempt (core : BitVec 13) (victim : BitVec 13) (slot : BitVec 3)
  /-- WAKE_DELIVER (R93). -/
  | wakeDeliver (m : Nat)
  /-- HOME_READ (R204). -/
  | homeRead (m : Nat)
  /-- HOME_WRITE (R202). -/
  | homeWrite (m : Nat)
  /-- HOME_SEAL (R203). -/
  | homeSeal (m : Nat)
  /-- HOME_ARRIVAL (R205). -/
  | homeArrival (m : Nat)
  /-- HOME_ACCUMULATE (R248). -/
  | homeAccumulate (m : Nat)
  /-- HOME_ARM (R206). -/
  | homeArm (m : Nat)
  /-- HOME_RELEASE (R208). -/
  | homeRelease (m : Nat)
  /-- HOME_CLEAR (R209). -/
  | homeClear (m : Nat)
  /-- HOME_DISCARD (R238). -/
  | homeDiscard (m : Nat)
  /-- HOME_PROBE (R216). -/
  | homeProbe (m : Nat)
  /-- BLOCK_FILL (R222). -/
  | blockFill (cl : BitVec 9) (blk : Nat)
  /-- DEDUPE_RELEASE (R255). -/
  | dedupeRelease (home : Nat) (u : Nat)
  /-- DEDUPE_WINDOW_EXPIRY (R255). -/
  | dedupeWindowExpiry (cl : BitVec 9) (u : Nat)
  /-- OPERATION_RETRANSMIT (R255). -/
  | operationRetransmit (u : Nat) (seq : Nat)
  /-- BATCH_SYNC (R266). -/
  | batchSync (m : Nat)
  /-- BATCH_CLOSE_REBROADCAST (R266). -/
  | batchCloseRebroadcast (rec : Nat)
  /-- CLOSE_REPLY (R271). -/
  | closeReply (m : Nat)
  /-- READ_REPLY (R213). -/
  | readReply (m : Nat)
  /-- STATUS_REPLY (R218). -/
  | statusReply (m : Nat)
  /-- RECORD_STORE_REPLY (R322). -/
  | recordStoreReply (m : Nat)
  /-- DIVIDER_RESULT (R104). -/
  | dividerResult (core : BitVec 13)
  /-- VECTOR_DISPATCH (R157). -/
  | vectorDispatch (anvil : BitVec 11)
  /-- MATRIX_DISPATCH (R157). -/
  | matrixDispatch (anvil : BitVec 11)
  /-- VECTOR_RESULT (R158). -/
  | vectorResult (rec : Nat)
  /-- MATRIX_RESULT (R186). -/
  | matrixResult (rec : Nat)
  /-- ACCT_POST (R259). -/
  | acctPost (rec : Nat)
  /-- TONGS_OPERAND_REPLY (R181). -/
  | tongsOperandReply (m : Nat)
  /-- COPY_COMMAND_START (R232). -/
  | copyCommandStart (cl : BitVec 9)
  /-- COPY_SOURCE_REPLY (R233). -/
  | copySourceReply (m : Nat)
  /-- PROXY_REQUEST (R235). -/
  | proxyRequest (die : BitVec 3) (req : Nat)
  /-- PROXY_REPLY (R242). -/
  | proxyReply (die : BitVec 3) (req : Nat) (ok : Bool) (data : List (BitVec 8))
  /-- PROXY_RETRY (R235). -/
  | proxyRetry (die : BitVec 3) (req : Nat) (expired : Bool)
  /-- SPAWN_SERVICE (R280). -/
  | spawnService (number : BitVec 32) (nodes : List (BitVec 32))
  /-- FAULT_QUEUE_SERVICE (R229). -/
  | faultQueueService (die : BitVec 3)
  /-- PREEMPT_WAIT_EXPIRY (R320). -/
  | preemptWaitExpiry (node : BitVec 32)
  /-- TIME_SLICE_EXPIRY (R320). -/
  | timeSliceExpiry (inst : BitVec 32)
  /-- QUENCH_DONE (R321). -/
  | quenchDone
  /-- QUENCH_RESUME (R320). -/
  | quenchResume
  /-- DONE_SEAL_OUTCOME (R357). -/
  | doneSealOutcome (m : Nat)
  /-- LU_DISCARD_STATUS (R358). -/
  | luDiscardStatus (m : Nat)
  /-- IDLE_STATE_ENTRY (R363). -/
  | idleStateEntry (u : IdleUnit)
  /-- IDLE_STATE_EXIT (R363). -/
  | idleStateExit (u : IdleUnit)
  /-- ROUTED_FORWARD (R300). -/
  | routedForward (fr : Frame)
  /-- ROUTED_ACK (R301). -/
  | routedAck (r : Receipt)
  /-- ROUTED_RESEND (R301). -/
  | routedResend (num : Nat)
  /-- FLIT_REPLAY (R295). -/
  | flitReplay (fibre : BitVec 6)
  /-- SEND_ACCEPT (R304). -/
  | sendAccept (rec : Nat)
  /-- SEND_DELIVER (R304). -/
  | sendDeliver (frm : BitVec 8) (chan : Word) (hd : Word) (tags : OpTags) (order : SendOrder) (data : Payload)
  /-- RCIR_GATHER (R309). -/
  | rcirGather (frm : BitVec 8) (round : Nat) (plan : BitVec 4) (digest : Option (BitVec 256)) (gens : Gens)
  /-- DRAIN (R309). -/
  | drain (plan : BitVec 4) (expect : BitVec 32)
  /-- LANTERN_DRAINED (R309). -/
  | lanternDrained
  /-- DRAINED (R309). -/
  | drained (frm : BitVec 8)
  /-- CONFIGURED (R309). -/
  | configured (plane : BitVec 6) (a : UpcAnswer)
  /-- UPC_STATUS (R312). -/
  | upcStatus (plane : BitVec 6) (a : UpcAnswer)
  /-- UPC_RETRANSMIT (R312). -/
  | upcRetransmit (plane : BitVec 6)
  /-- PLANE_FALLBACK (R311). -/
  | planeFallback (plane : BitVec 6)
  /-- LANTERN_RELOCK (R309). -/
  | lanternRelock (up : BitVec 64) (r : RelockOrder)
  /-- FIBRE_RELOCK_TIMEOUT (R309). -/
  | fibreRelockTimeout (f : LateFibre)
  /-- LOCKED (R309). -/
  | locked (frm : BitVec 8)
  /-- GO (R309). -/
  | go (fallback : Bool)
  /-- ABORT (R309). -/
  | abort
  /-- ERROR_REPORT (R367). -/
  | errorReport (e : ErrorReport)
  /-- SELF_TEST_START (R372). -/
  | selfTestStart (u : UnitId)
  /-- SELF_TEST_COMPLETE (R372). -/
  | selfTestComplete (u : UnitId) (pass : Bool)
  /-- HBM_SCRUB (R366). -/
  | hbmScrub (stack : BitVec 5) (line : BitVec 30) (bad : Bool)
  /-- RFM_ALERT (R377). -/
  | rfmAlert (stack : BitVec 5) (cycles : Nat)
  /-- DIE_FAILURE (R376). -/
  | dieFailure (die : BitVec 3)
  /-- WALK_COMPLETE (R229). -/
  | walkComplete (rec : Nat)
  /-- OPERATION_ACK (R255). -/
  | operationAck (m : Nat)
  /-- OVLD_COPY_COMPLETE (R71). -/
  | ovldCopyComplete (core : BitVec 13)
  /-- LEADER_PLAN_REQUEST (R386). -/
  | leaderPlanRequest (frm : BitVec 8)
  /-- LEADER_PLAN_REPLY (R386). -/
  | leaderPlanReply (gen : BitVec 32) (plan : PlanTable)
  /-- LEADER_UNREACHABLE_TIMEOUT (R386). -/
  | leaderUnreachableTimeout
  deriving DecidableEq, Repr

end Sys2Proof
end

