-- ==== Sys2Proof/Config.lean ====
section
/-!
DEFINITION. What one part fixes and the spec does not give, and the free values. Every constant here is opaque: nothing
is known of it, so a statement that holds, holds whatever it is (log entries 1, 2, 14).
-/
namespace Sys2Proof

/-- One move of the machine: an event of the opcode table, or one cycle of a core, in which the slot of its phase has its
turn (R101); and what the Keeps of a domain tell each other of the table that every module holds of all of it (R227). -/
inductive Move where
  | event (i : Instr)
  | turn (core : BitVec 13)
  /-- The Keep of module `frm` maps an extent, or with a zero entry unmaps it (R227; log entry 36). -/
  | peerExtent (frm : BitVec 8) (vbn : BitVec 37) (e : BitVec 64)
  /-- The Keep of module `frm` has entered in its table what this one told it of an extent (R227, R343; log entry 36). -/
  | extentEntered (frm : BitVec 8) (vbn : BitVec 37)
  deriving DecidableEq, Repr, Inhabited

/-- The move the part makes at step `k` when nothing else names it: the orders the spec leaves open (R263, R274). -/
opaque Config.nextMove (k : Nat) : Move

/-- The cycles that pass in step `k` on die `d`, 8 and 9 being the hearth dies (R17). -/
opaque Config.elapsed (k d : Nat) : Nat

/-- Fused values (R385): stepping, serial number, identity and attestation keys, the hash of the firmware key. -/
opaque Config.stepping : BitVec 8
opaque Config.serial : BitVec 64
opaque Config.idKey : BitVec 512
opaque Config.attKey : BitVec 512
opaque Config.fwKeyHash : BitVec 256

/-- The certificate chain in flash, at most 8,192 bytes (R385). -/
opaque Config.certLen : Fin 8193
opaque Config.cert : BitVec 65536

/-- The 48 check bits of a line's code over its data and spare metadata bits (R10, R366). -/
opaque Config.checkBits (data : BitVec 512) (spare : BitVec 16) : BitVec 48

/-- The activations of a row at which stack `k` raises its alert (R10, R377). -/
opaque Config.rowThreshold (k : Nat) : Nat

/-- The ROLLBACK thermometer as fused (R382), and the enrolment fuse (R385). -/
opaque Config.rollback : BitVec 64
opaque Config.enrolLock : Bool

/-- The part nonce of the OPENED that answers at step `k`, the ciphertext and the shared secret of ML-KEM-1024 for an encapsulation
key, and the signature by the identity key (R35). -/
opaque Config.partNonce (k : Nat) : BitVec 256
opaque Config.cipherText (k : Nat) (key : List Byte) : BitVec 12544
opaque Config.sharedSecret (k : Nat) (key : List Byte) : BitVec 256
opaque Config.identitySignature (h : BitVec 256) : List Byte

/-- The endorsement and the signature of a quote over these bytes (R44). -/
opaque Config.endorsement : List Byte
opaque Config.quoteSignature (bytes : List Byte) : List Byte

/-- The nonce of the UPC message `seq` to plane `k` (R312). -/
opaque Config.upcNonce (k : Nat) (seq : BitVec 32) : BitVec 96

/-- The part's GID on Ethernet port `p` (R40). -/
opaque Config.gid (p : Bool) : BitVec 128

/-- A 64-bit value that the spec leaves open, for the `k`-th use of purpose `p`. -/
opaque Config.free (p k : Nat) : BitVec 64

end Sys2Proof
end

