-- ==== Sys2Proof/Machine/State.lean ====
section
/-!
DEFINITION. The state of one AK-8 module as plain data, and the state after cold reset. Sparse tables are lists of key and
value with rising keys (`FMap`); a key that is not listed stands for the reset value of its entry.
-/
namespace Sys2Proof.Machine

/-- A sparse table: entries with strictly rising keys. -/
abbrev FMap (α : Type) := List (Nat × α)

/-- Bytes by address, in canonical form: rising addresses and no zero byte listed (log entries 9 and 11). -/
abbrev Memory := List Host.Cell

/-- Where the presence of a block is kept (R92): its home slice and physical block number, a scratchpad slot, or another
module. -/
inductive Place where
  | dom (cl : BitVec 9) (blk : Nat)
  | pad (cl : BitVec 9) (slot : BitVec 9)
  | off (module : BitVec 8)
  deriving DecidableEq, Repr

/-- Who waits for the answer to an operation. -/
inductive Asker where
  | strand (rec : Nat)
  | tongs (rec operand : Nat)
  | copySource (cl : BitVec 9) (cmd seg : Nat)
  | copyDest (cl : BitVec 9) (cmd req dst : Nat)
  | host (qpn : BitVec 24) (msg : Nat)
  | belfryDone (node : BitVec 32)
  | belfryLu (node : BitVec 32)
  | batch
  /-- An operation of another module: the module, the cluster it came from and the record reference (R300, R302). -/
  | remote (module : BitVec 8) (cl : BitVec 9) (rec : Nat)
  /-- A SEND's destination write, at its sender, and at the peer that posts it for module `frm` (R304, R306). -/
  | circuit (chan : Word)
  | channel (frm : BitVec 8) (chan : Word)
  | nobody
  deriving DecidableEq, Repr

/-- When an operation reached its home, by the model's steps and by the die's cycle counter, and the presence word it found (R273). -/
structure Came where
  tick : Nat
  cycle : Word
  pw : BitVec 16
  deriving DecidableEq, Repr

/-- An operation on its way to a block's home, with the tags of R94 and R265. -/
structure Op where
  kind : OpKind
  h : Word
  place : Place
  unit : Nat
  seq : Word
  asker : Asker
  tracker : Nat
  batch : BitVec 2
  ordinal : BitVec 32
  node : BitVec 32
  /-- Of an operation that its home holds for a fill, a log or a clear (R202, R252): when it came. -/
  came : Option Came := none
  deriving DecidableEq, Repr

/-- The summary of a (tracker, batch) pair at one home (R266): operations in effect, OR of their bits, first failure as
ordinal, destination index, cause and handle. -/
structure Sum where
  count : Nat
  bits : BitVec 16
  first : Option (Nat × Nat × BitVec 5 × Word)
  deriving DecidableEq, Repr

/-- The summary with nothing in it. -/
def Sum.zero : Sum := { count := 0, bits := 0, first := none }

/-- A message in flight inside the module or towards another. -/
inductive Msg where
  | op (o : Op)
  | reply (o : Op) (r : Reply)
  /-- A wake of a parked reader; `ok` is a seal, otherwise a trap enters at the reading instruction (R201, R209, R368). -/
  | wake (rec : Nat) (p : Place) (cause : Option (BitVec 5)) (h : Word)
  /-- The same for a copy engine's segment (R233). -/
  | wakeEngine (cl : BitVec 9) (cmd seg : Nat) (cause : Option (BitVec 5))
  /-- A watcher fire to its owner Belfry (R51). -/
  | fire (die : BitVec 3) (node : BitVec 32)
  /-- A close, or with `take` false a sync, of a batch at one home, with its count where the home is tracked (R266). -/
  | close (home tracker : Nat) (batch : BitVec 2) (count : Option Nat) (take : Bool) (rec : Nat)
  | closeReply (home tracker : Nat) (batch : BitVec 2) (take : Bool) (sum : Sum) (rec : Nat)
  /-- A close or sync that another module has sent, by the key under which its tracker stands here (R266). -/
  | closeFor (src : BitVec 8) (tracker : Nat) (batch : BitVec 2) (count : Option Nat) (take : Bool) (rec : Nat)
  deriving DecidableEq, Repr

/-- A held accumulator tile (R177): its type, its physical tile, whether it was granted from the reservation. -/
structure Tile where
  isInt : Bool
  phys : BitVec 4
  reserved : Bool
  data : Payload
  deriving DecidableEq, Repr

/-- Where a strand record stands (R58, R61, R229, R275, R322). -/
inductive Loc where
  | slot (core : BitVec 13) (k : BitVec 3)
  | store (cl : BitVec 9)
  | arriving (cl : BitVec 9)
  /-- On its way from a core of another cluster. -/
  | migrating (cl : BitVec 9) (frm : BitVec 13)
  | queue (cl : BitVec 9)
  | deque (core : BitVec 13)
  | faultq (die : BitVec 3)
  | held (cl : BitVec 9)
  | saved (die : BitVec 3) (cl : BitVec 9)
  deriving DecidableEq, Repr

/-- What a fault-queue record needs before the Keep can return it (R229): a permission on its handle, that on a block of this module
(R241), a host context, or nothing that can come about. -/
inductive Need where
  | perm (p : BitVec 4)
  | permHere (p : BitVec 4)
  | ctx (c : BitVec 4)
  | never
  deriving DecidableEq, Repr

/-- One operand block of a command as the Tongs have it (R179, R181, R182): asked for, pinned, or the reply that is not data.
`woken` is a parked read whose wake came before the outcome of an earlier operand. -/
inductive Pin where
  | waiting
  | data (d : Payload)
  | anchor
  | fault
  | stale
  | poison
  | parked (p : Place) (h : Word)
  | woken (cause : Option (BitVec 5))
  deriving DecidableEq, Repr

/-- What a strand waits for (R103, R322). -/
inductive Wait where
  /-- In rotation, or ready to be placed. -/
  | run
  | divider (i : Instr)
  | walk (h : Word) (perm : BitVec 4)
  /-- A synchronous operation: the instruction, its handle and the pointer it leaves. -/
  | reply (i : Instr) (h : Word) (upd : Word)
  /-- An Anvil command, not yet or already dispatched, the operand blocks of the Tongs (none before they are asked for), and
  the place that TST or ACCT stores to. -/
  | command (i : Instr) (dispatched : Bool) (pins : List Pin) (dest : Option Place)
  | parked (p : Place) (h : Word)
  /-- FENCE, BCLOSE, END or JOIN waiting for the homes of batch `b` (R266). -/
  | closing (i : Instr) (b : BitVec 2)
  /-- A request the Keep serves: SPAWN, IDLE, LOADREC. -/
  | keep (i : Instr)
  | overlay (i : Instr)
  | proxy (i : Instr)
  /-- SEND with its data read, waiting for acceptance (R306). -/
  | send (i : Instr) (data : Payload)
  /-- Held until GO (R306, R307). -/
  | go
  | rcir (i : Instr)
  /-- On its die's fault queue with XLATE (R229). -/
  | fault (v : Word) (need : Need)
  /-- An anchored strand after YIELD skips one turn (R279). -/
  | skip
  deriving DecidableEq, Repr

/-- A strand: its record (R62) with the extensions of R63, and where it stands. -/
structure Strand where
  regs : Vector Word 16
  fd : Vector (BitVec 32) 8
  pc : BitVec 32
  image : BitVec 16
  prio : BitVec 2
  win : BitVec 3
  steal : BitVec 3
  tpc : BitVec 32
  tcause : BitVec 8
  tval : Word
  fflags : BitVec 5
  rmode : BitVec 2
  batch : BitVec 2
  opens : BitVec 4
  node : BitVec 32
  window : Vector (BitVec 32) 64
  tags : Vector (BitVec 8) 8
  vecs : Vector Vec 8
  tiles : Vector (Option Tile) 8
  tracker : Nat
  /-- The core that holds its window words, or the core it last ran on (R59, R61). -/
  core : BitVec 13
  /-- Its window words stand allocated on `core` (R60, R61). -/
  bound : Bool
  /-- A root strand that has not been placed yet (R59, R64). -/
  root : Bool
  /-- The blocks that its LOADREC has read so far, by handle, and the record that it is handing over (R334). -/
  loaded : List (Word × Payload)
  handing : Option Nat
  /-- Its instance has ended: it stands only until its dispatched command completes (R319, R322). -/
  ended : Bool
  loc : Loc
  wait : Wait
  deriving DecidableEq, Repr

/-- One batch of a tracker (R265): homes with posted counts, the count beyond 64 homes, the off-module flag, the next
ordinal, and what the closes have collected. -/
structure BatchSt where
  homes : FMap Nat
  untracked : Nat
  off : Bool
  next : Nat
  got : Sum
  deriving DecidableEq, Repr

/-- A batch that holds nothing. -/
def BatchSt.zero : BatchSt := { homes := [], untracked := 0, off := false, next := 0, got := Sum.zero }

/-- A batch tracker, in the batch table of the cluster where its strand was created (R265). -/
structure Tracker where
  cl : BitVec 9
  b0 : BatchSt
  b1 : BatchSt
  b2 : BatchSt
  b3 : BatchSt
  deriving DecidableEq, Repr

/-- A stub on a deferred list (R200): a reader waits with its expected generation, a watcher names Belfry and node. -/
inductive Stub where
  | reader (who : Asker) (gen : BitVec 12) (h : Word)
  | watcher (die : BitVec 3) (node : BitVec 32) (gen : BitVec 12) (h : Word) (from_ : Option (BitVec 8))
  deriving DecidableEq, Repr

/-- The state a home keeps for a block (R195, R196) and its poison bit (R368); L is not held: it is 1 while a log stands. -/
structure Block where
  st : BitVec 2
  gen : BitVec 12
  x : Bool
  mode : BitVec 2
  acount : BitVec 16
  arrivals : BitVec 16
  qarmed : BitVec 8
  qrem : BitVec 8
  mask : BitVec 512
  poisoned : Bool
  stubs : List Stub
  /-- Queued writes in arrival order (R202). -/
  queued : List Op
  /-- The write that last added to the mask (R199). -/
  lastWrite : Option Op
  payload : Payload
  deriving DecidableEq, Repr

/-- A block at mapping (R195, R196): EMPTY, generation 0, byte mode, armed count 4,096. -/
def Block.mapped : Block :=
  { st := 0, gen := 0, x := false, mode := 0, acount := 4096, arrivals := 0, qarmed := 0, qrem := 0, mask := 0,
    poisoned := false, stubs := [], queued := [], lastWrite := none, payload := 0 }

/-- A resident block with the stamp of its last use (R224) and whether it changed since its last write-back (R376). -/
structure Resident where
  b : Block
  used : Nat
  dirty : Bool
  deriving DecidableEq, Repr

/-- An entry of a log (R246). -/
inductive LogEntry where
  | acc (gen : BitVec 12) (fmt : BitVec 4) (rule : BitVec 2) (off : BitVec 12) (data : Vec)
  /-- One ACCT: its sixteen parts in one entry of the model. -/
  | acct (gen : BitVec 12) (fmt : BitVec 4) (rule : BitVec 2) (data : Payload)
  /-- Up to 16 stubs of one kind and generation. -/
  | stubs (kind : BitVec 4) (gen : BitVec 12) (l : List Stub)
  | clear (gen : BitVec 12)
  | seal (gen : BitVec 12)
  deriving DecidableEq, Repr

/-- A pending-operation log: its descriptor (R245), its entries in arrival order, and when it began (R252). -/
structure Log where
  desc : Block
  entries : List LogEntry
  born : Nat
  deriving DecidableEq, Repr

/-- A remote-data copy (R225). -/
structure Copy where
  data : Payload
  used : Nat
  deriving DecidableEq, Repr

/-- One requester of a copy command (R232, R233): its tags, its destinations with handle, place and whether answered, and
the summary of their outcomes. -/
structure CopyReq where
  tracker : Nat
  batch : BitVec 2
  ordinal : BitVec 32
  node : BitVec 32
  dests : List (Word × Place × Bool)
  got : Sum
  deriving DecidableEq, Repr

/-- What a copy command does with its source rows (R241). -/
inductive CopyKind where
  | rows
  | gather (stride : Word)
  | transpose (fmt : BitVec 4)
  | fromHost (ctx : BitVec 4) (gh : Word)
  | toHost (ctx : BitVec 4) (gh : Word)
  deriving DecidableEq, Repr

/-- A copy command (R232 to R234): source handle and place per segment, offset and rows, what has been read. -/
structure CopyCmd where
  id : Nat
  core : BitVec 13
  kind : CopyKind
  hs : Word
  rows : Nat
  /-- Handle, place and the data read, for every source block. -/
  srcs : List (Word × Place × Option Payload)
  dstOff : BitVec 12
  reqs : List CopyReq
  /-- The source blocks whose read has been sent (R255). -/
  asked : List Nat
  started : Bool
  /-- All its writes have been sent, or its request to the proxy. -/
  posted : Bool
  /-- Destinations whose write has been sent, in the order of requesters and destinations (R255). -/
  sent : Nat := 0
  deriving DecidableEq, Repr

/-- The copy engine of a cluster (R232): the ring it visits, the deficits, and the commands it has started. -/
structure Engine where
  ring : BitVec 4
  deficit : FMap Nat
  active : FMap CopyCmd
  deriving DecidableEq, Repr

/-- A dedupe window (R255): outcomes by sequence number, newest last, and whether the unit has released it. -/
structure Window where
  seen : List (Word × Reply)
  released : Bool
  deriving DecidableEq, Repr

/-- A cluster: its store's partition and blocks, Crucible, translation buffer, dispatcher, trace ring and counters. -/
structure Cluster where
  l2units : BitVec 5
  /-- A partition move asked for by a strand: the L2 units and the strand (R243). -/
  moving : Option (BitVec 5 × Nat)
  res : FMap Resident
  pads : FMap Block
  copies : FMap Copy
  logs : FMap Log
  /-- Blocks whose fill is in progress, with the messages that wait (R252). -/
  fills : FMap (List Nat)
  tlb : FMap Word
  windows : FMap Window
  /-- The presence cache: presence words of blocks not resident, by block (R12, R197, R198). -/
  pcache : FMap (BitVec 16)
  /-- Copies asked for by PREF of blocks that are not resident yet (R237): the block, the handle, the module that asked if it is
  another, and the cluster that takes the copy. -/
  prefs : List (Nat × Word × Option (BitVec 8) × BitVec 9)
  /-- The trace ring in order of arrival (R273), each entry under the step of its operation's arrival. -/
  trace : List (Nat × BitVec 256)
  traceOvf : BitVec 32
  /-- Records waiting for a core, in order; past 64 they stand in the spill area (R58). -/
  queue : List Nat
  /-- Records offered while queue and spill area were full, in order (R58). -/
  waiting : List Nat
  eng : Engine
  perf4 : Word
  perf7 : Word
  deriving DecidableEq, Repr

/-- An engine at reset. DESIGN CHOICE (log entry 8): the first ring that it visits is ring 0, and no ring has a deficit (R232). -/
def Engine.reset : Engine := { ring := 0, deficit := [], active := [] }

/-- A cluster at reset: 1.5 MiB of L2 (R221). -/
def Cluster.reset : Cluster :=
  { l2units := 12, moving := none, res := [], pads := [], copies := [], logs := [], fills := [], tlb := [], windows := [],
    pcache := [], prefs := [], trace := [], traceOvf := 0, queue := [], waiting := [], eng := Engine.reset, perf4 := 0, perf7 := 0 }

/-- An overlay copy in progress (R71, R330): load address, body, the strand that waits. -/
structure Overlay where
  load : BitVec 32
  body : List Byte
  strand : Nat
  deriving DecidableEq, Repr

/-- A core (R12): store, boundary, slots, divider, command queue, deque, copy ring. -/
structure Core where
  store : Memory
  xb : BitVec 32
  trapbase : BitVec 32
  database : BitVec 32
  image : BitVec 16
  switching : Option (BitVec 16)
  slots : Vector (Option Nat) 8
  phase : BitVec 3
  divq : List Nat
  cmdq : List Nat
  /-- Records of the deque, bottom first (R275). -/
  deque : List Nat
  ring : List CopyCmd
  ringwt : BitVec 4
  /-- A record in the outbound migration buffer that its target delays (R58). -/
  outbuf : List Nat
  ovld : Option Overlay
  idleSince : Nat
  /-- The victim it tried last in its quad, its cluster, its die and the module (R277). -/
  victims : Vector (BitVec 13) 4
  perf0 : Word
  perf1 : Word
  perf5 : Word
  deriving DecidableEq, Repr

/-- A core at reset (log entry 9). -/
def Core.reset : Core :=
  { store := [], xb := 0, trapbase := 0, database := 0, image := 0, switching := none, slots := Vector.replicate 8 none,
    phase := 0, divq := [], cmdq := [], deque := [], ring := [], ringwt := 1, outbuf := [], ovld := none, idleSince := 0,
    victims := Vector.replicate 4 0, perf0 := 0, perf1 := 0, perf5 := 0 }

/-- What stands in a physical tile (R56, R177). -/
inductive TileUse where
  | free
  | reserved (node : BitVec 32)
  | held (rec : Nat) (node : Option (BitVec 32))
  deriving DecidableEq, Repr

/-- An Anvil (R157, R177, R187). -/
structure Anvil where
  tiles : Vector TileUse 16
  vptr : BitVec 2
  mptr : BitVec 2
  /-- Strands whose dispatched commands have not written their results. -/
  lanes : List Nat
  array : List Nat
  spent : Nat
  perf2 : Word
  perf3 : Word
  deriving DecidableEq, Repr

/-- An Anvil at reset. -/
def Anvil.reset : Anvil :=
  { tiles := Vector.replicate 16 .free, vptr := 0, mptr := 0, lanes := [], array := [], spent := 0, perf2 := 0, perf3 := 0 }

/-- A request at a die's proxy core (R235): the asker, the context, the host address and what to do there. -/
structure ProxyReq where
  id : Nat
  strand : Option Nat
  cmd : Option (BitVec 9 × Nat)
  ctx : BitVec 4
  addr : Word
  op : BitVec 2
  a : Word
  b : Word
  bytes : List Byte
  sent : Bool
  deriving DecidableEq, Repr

/-- A compute die (R8): counters, power, Belfry, fault queue, proxy. -/
structure Die where
  alive : Bool
  secondPort : Bool
  cycle : Word
  idle : BitVec 2
  idleTime : Word
  /-- The current grant in watts, as numerator and denominator (R378). -/
  grant : Nat × Nat
  budget : Nat
  ready : Vector (List (BitVec 32)) 4
  faultq : List Nat
  proxy : List ProxyReq
  perf6 : Word
  perf8 : Word
  deriving DecidableEq, Repr

/-- A die at reset. -/
def Die.reset : Die :=
  { alive := true, secondPort := false, cycle := 0, idle := 0, idleTime := 0, grant := (0, 1), budget := 0,
    ready := Vector.replicate 4 [], faultq := [], proxy := [], perf6 := 0, perf8 := 0 }

/-- How far a node instance has come (R52 to R56, R356). -/
inductive Stage where
  | waiting
  | ready
  | running
  | doneSeal
  | discards (left : Nat)
  /-- Its seal, or the next of its discards, is still to be sent (R255). -/
  | sealDue
  | discardDue (left : Nat)
  deriving DecidableEq, Repr

/-- A node instance (R33, R50 to R57, R355). -/
structure Node where
  inst : BitVec 32
  idx : Nat
  owner : BitVec 3
  missing : Nat
  live : Nat
  skip : Nat
  stage : Stage
  cluster : Option (BitVec 9)
  anvil : Option (BitVec 11)
  /-- The other modules that home blocks which it watches (R50, R319). -/
  away : List (BitVec 8) := []
  deriving DecidableEq, Repr

/-- A running instance (R33, R48, R280). -/
structure Instance where
  graph : BitVec 16
  args : Vector Word 8
  cookie : Word
  session : BitVec 32
  root : BitVec 32
  parent : BitVec 32
  slice : BitVec 32
  started : Nat
  nodes : List (BitVec 32)
  spawned : Nat
  quenched : Bool
  deriving DecidableEq, Repr

/-- An installed graph (R31): its node records as 192-byte lists, and its image list. -/
structure Graph where
  nodes : List (List Byte)
  images : List (BitVec 16)
  deriving DecidableEq, Repr

/-- The state of a UHP session (R35, R389). -/
inductive SessPhase where
  | opening
  | opened
  | enrolling
  deriving DecidableEq, Repr

/-- A UHP session (R35 to R39). -/
structure Session where
  port : Bool
  slot : BitVec 2
  phase : SessPhase
  /-- SEQ and body of its OPEN, the body of its OPENED, and the 88 bytes of its keys: the key and then the IV of each direction, the host's first (R35). -/
  openSeq : BitVec 32
  openBody : List Byte
  opened : List Byte
  keys : BitVec 704
  rxNext : BitVec 32
  rxHeld : FMap Datagram
  /-- The message being reassembled (R39): whether one is, its first SEQ, its TYPE, its body, whether a segment did not fit. -/
  partOn : Bool
  partSeq : BitVec 32
  partTyp : BitVec 8
  part : List Byte
  partBad : Bool
  txNext : BitVec 32
  /-- Datagrams not acknowledged: SEQ, type, more segments follow, body, transmissions. -/
  unacked : List (BitVec 32 × BitVec 8 × Bool × List Byte × Nat)
  /-- Stored replies by the request's first SEQ (R39). -/
  stored : FMap (List Byte)
  deriving DecidableEq, Repr

/-- A request in the Keep's one order (R43). -/
inductive KeepReq where
  | uhp (session seq : BitVec 32) (typ : BitVec 8) (bad : Bool) (body : List Byte)
  /-- An OPEN (R35). -/
  | openReq (port : Bool) (seq : BitVec 32) (body : List Byte)
  | spawn (rec : Nat) (graph : BitVec 16) (args : List Word)
  deriving DecidableEq, Repr

/-- A memory region (R40, R46). -/
structure Region where
  first : Nat
  count : Nat
  write : Bool
  read : Bool
  deriving DecidableEq, Repr

/-- A RoCEv2 message not yet answered (R46, R47): its operations unanswered, whether one was refused, the seal due after them. -/
structure HostMsg where
  id : Nat
  /-- The PSNs of its first and its last packet. -/
  first : BitVec 24
  psn : BitVec 24
  left : Nat
  /-- Units that have taken effect. -/
  applied : Nat
  bad : Bool
  badSeal : Bool
  sealDue : Option (Word × Bool)
  /-- The units of a WRITE, or the blocks of a READ, that the port has not yet sent to their homes (R255). -/
  todo : List (Word × List Byte) := []
  /-- Of a READ: its first byte within the first block, its length, and the blocks it has, by VBN. -/
  read : Option (Nat × Nat × FMap Payload) := none
  deriving DecidableEq, Repr

/-- A queue pair (R46, R47). -/
structure QPair where
  port : Bool
  mtu : Nat
  /-- GID, number and first PSN of the host's side, and the part's first PSN (R40). -/
  hostGid : BitVec 128
  hostQpn : BitVec 24
  hostPsn : BitVec 24
  startPsn : BitVec 24
  psn : BitVec 24
  err : Bool
  msgs : List HostMsg
  deriving DecidableEq, Repr

/-- The messages that run a collective (R309, R311) and bring-up step 5 (R386), and those by which every module holds a table of the
whole domain (R227). -/
inductive DomainMsg where
  | gather (a : Arrival)
  | drain (plan : BitVec 4) (expect : BitVec 32)
  | drained
  | relock (fallback : Bool) (lost : BitVec 64)
  | locked
  | go (fallback : Bool)
  | abort
  | planRequest
  | planReply (tgen : BitVec 32) (plan : BitVec 4) (entries : FMap (BitVec 16))
  /-- An extent of this module for the table of another (R227): its first VBN and its entry, zero when it is unmapped; and that an extent
  of the other module stands so in this module's table (log entry 36). -/
  | extent (vbn : BitVec 37) (e : Word)
  | extentEntered (vbn : BitVec 37)
  deriving DecidableEq, Repr

/-- A message that left the module. -/
inductive Out where
  /-- A datagram with its header's fields and, where it is encrypted, the key and the nonce (R36, R38). -/
  | uhp (port : Bool) (session seq : BitVec 32) (typ : BitVec 8) (more : Bool) (ack : BitVec 32) (body : List Byte)
      (under : Option (BitVec 256 × BitVec 96))
  | roceAck (qpn : BitVec 24) (psn : BitVec 24)
  | roceNak (qpn : BitVec 24) (psn : BitVec 24) (code : BitVec 8)
  | roceData (qpn : BitVec 24) (psn : BitVec 24) (data : List Byte)
  | proxy (r : ProxyReq)
  /-- A routed frame on the fibre that the routing table gives (R300). -/
  | routed (fibre : BitVec 6) (f : Frame)
  /-- The receipt of frame or SEND `num` of module `dst` (R301, R304). -/
  | routedAck (dst : BitVec 8) (num : Nat)
  /-- Circuit traffic to module `dst` (R304). -/
  | send (dst : BitVec 8) (m : SendMsg)
  /-- A message of the collective or of bring-up between this module and the leader (R309, R386). -/
  | domainMsg (dst : BitVec 8) (m : DomainMsg)
  /-- A UPC message with its header's fields, the address and UDP port it goes to, and the PLANEKEY and the nonce that protect its body
  (R312). -/
  | upc (plane : BitVec 6) (addr : BitVec 128) (port : BitVec 16) (ver typ : BitVec 8) (seq gen : BitVec 32) (len : BitVec 16)
      (body : List Byte) (under : BitVec 256 × BitVec 96)
  | bootBusy (status : Word)
  /-- The Keep's report of a supply or thermal fault (R15; log entry 83). -/
  | supplyReport
  deriving DecidableEq, Repr

/-- What the Keep has to tell an IDLE (R332). -/
structure KeepEvent where
  kind : BitVec 8
  ref : BitVec 56
  deriving DecidableEq, Repr

/-- A quench for pre-emption (R320 to R322): the quenched instances, whether their records are saved, and the node instances
that it makes room for. -/
structure Quench where
  victims : List (BitVec 32)
  saved : Bool
  waits : List (BitVec 32)
  deriving DecidableEq, Repr

/-- A run or spawn whose watchers are being registered (R48, R50): registrations on their way, and who gets the reply. -/
structure Starting where
  inst : BitVec 32
  left : Nat
  session : BitVec 32
  seq : BitVec 32
  strand : Option Nat
  /-- Registrations that a Belfry has not sent yet (R255): the node instance, its owner and the handle. -/
  todo : List (BitVec 32 × BitVec 3 × Word) := []
  deriving DecidableEq, Repr

/-- What a FAULT reports (R49). -/
structure FaultInfo where
  idx : BitVec 16
  node : BitVec 32
  cause : BitVec 8
  tpc : BitVec 32
  tval : Word
  deriving DecidableEq, Repr

/-- An instance that ends, while commands of its strands that were dispatched complete (R319, R322): its number, its record, what its FAULT
reports, and the strands. -/
structure Ending where
  number : BitVec 32
  inst : Instance
  info : FaultInfo
  recs : List Nat
  deriving DecidableEq, Repr

/-- A request whose REPLY OK the Keep still owes, so that it serves no other (R43): the instances that have not ended yet of a QUENCH
(R323), and the entries of a map or unmap that do not stand yet in another module's table (R227; log entry 36). -/
structure KeepWait where
  session : BitVec 32
  seq : BitVec 32
  ends : List (BitVec 32)
  told : List (BitVec 8 × BitVec 37)
  deriving DecidableEq, Repr

/-- This module's part in an RCIR collective (R309): its arrivals, how far it has come, and the arrivals for the next. -/
structure Collective where
  /-- The number its arrivals carry. -/
  round : Nat
  plan : BitVec 4
  expect : BitVec 32
  recs : List Nat
  drain : Bool
  drained : Bool
  relocked : Bool
  late : List Nat
  /-- It has relocked under the plan in force, after a fall-back (R311). -/
  back : Bool := false
  deriving DecidableEq, Repr

/-- What the leader has gathered (R309, R311): arrivals, whether one module's differ; reports; planes. -/
structure Leader where
  bad : Bool
  arrivals : FMap Arrival
  running : Bool
  plan : BitVec 4
  expect : BitVec 32
  drained : List Nat
  configured : List Nat
  /-- Planes whose last message is a QUERY (R312; log entry 88). -/
  asked : List Nat
  locked : List Nat
  fallback : Bool
  /-- Planes that returned from neither the switch nor the fall-back (R311). -/
  lost : BitVec 64
  /-- The collective each module has last had an end of, by its number. -/
  ended : FMap Nat
  deriving DecidableEq, Repr

/-- A leader that gathers nothing. -/
def Leader.reset : Leader :=
  { bad := false, arrivals := [], running := false, plan := 0, expect := 0, drained := [], configured := [], asked := [], locked := [],
    fallback := false, lost := 0, ended := [] }

/-- Bring-up (R380, R386, R388): the register fields, whether power is good, whether a plan is asked of the leader. -/
structure Boot where
  stage : BitVec 4
  copyB : Bool
  fail : BitVec 8
  tready : BitVec 32
  wantsPlan : Bool
  /-- The floor of the stage-1 component that runs (R382). -/
  floor : BitVec 32
  deriving DecidableEq, Repr

/-- A unit under self-test (R372). -/
structure Test where
  unit : UnitId
  /-- The first error record that the test may answer, those before it having been answered (R371). -/
  record : Nat
  second : Bool
  /-- The instances quenched for it, which do not resume before it ends (R372, R373). -/
  moved : List (BitVec 32) := []
  deriving DecidableEq, Repr

/-- Why the machine stops. -/
inductive Fault where
  /-- An instruction of a strand is executed while no strand issues. Raised by every meaning of a strand's instruction;
  `step` never does it, and the spec gives such an execution no effect. Safe. -/
  | noStrand
  deriving DecidableEq, Repr

/-- Why an instruction is refused. -/
inductive Refusal where
  /-- The instruction has no meaning in the model yet. Raised by arms of the dispatcher alone. Safe. -/
  | notModelled (mnemonic : String)
  deriving DecidableEq, Repr

/-- The state of the module. -/
structure State where
  /-- The model's counter of steps, argument of the free values (log entry 1). -/
  tick : Nat
  /-- Which moves come next where the spec leaves the order open (log entry 2). -/
  schedule : List Move
  /-- The strand whose instruction is being executed (log entry 2). -/
  cur : Option Nat
  /-- The next unused number of a message, record or tracker (log entry 3). -/
  fresh : Nat
  /-- What has left the module (log entry 3). -/
  outbox : List Out
  /-- BOOTSTATUS (R388) and bring-up (R380, R386). -/
  boot : Boot
  /-- Registers kept in flash, by address (R385). -/
  flash : FMap Word
  /-- The values of MODULE, DOMAIN and LEADER that the module came up with (R294, R386). -/
  modNo : BitVec 8
  modSet : Bool
  domain : BitVec 256
  leader : BitVec 8
  /-- MEASURE (R383). -/
  measure : Vector (BitVec 256) 8
  /-- Fuses blown since delivery (R382, R389). -/
  rollback : Word
  enrolLock : Bool
  /-- TRACESEL and TTBASE (R385). -/
  tracesel : BitVec 9
  ttbase : Word
  /-- The error log and the event log with their heads (R36, R371, R385). -/
  errHead : BitVec 32
  errLog : FMap (BitVec 256)
  evtHead : BitVec 32
  evtLog : FMap (BitVec 256)
  /-- The supply is within its limits (R15). -/
  supplyOk : Bool
  /-- The grant of HBM (R378). -/
  hbmGrant : Nat × Nat
  /-- Tolerances and idle states (R362, R363). -/
  dieTol : Vector (BitVec 32) 8
  modTol : BitVec 32
  modState : BitVec 3
  idleCores : List Nat
  /-- Clusters out of service, spares in use, units under test (R372 to R375). -/
  badClusters : List Nat
  spareUse : FMap Nat
  tests : List Test
  /-- For each unit, the cycle of each error it reported since it was last retired (R372). -/
  errTimes : FMap (List Word)
  /-- ERRHEAD when a unit's last test ended (R372). -/
  tested : FMap Nat
  /-- The dies, clusters, cores and Anvils (R8, R12). -/
  dies : Vector Die 8
  clusters : FMap Cluster
  cores : FMap Core
  anvils : FMap Anvil
  /-- Strand records by number (R62). -/
  strands : FMap Strand
  /-- Batch trackers, and the summaries at the homes (R265, R266). -/
  trackers : FMap Tracker
  sums : FMap Sum
  /-- Messages in flight; per sending unit the operations not acknowledged and the next sequence number (R94, R255). -/
  net : FMap Msg
  units : FMap (List Op)
  seqs : FMap Word
  /-- HBM: bytes, metadata, lines that read uncorrectable, poisoned blocks, last writes of blocks not resident (R9, R10, R198, R199, R367, R368). -/
  hbm : Memory
  hbmMeta : FMap (BitVec 16)
  badLines : List Nat
  /-- Activations counted of each row of HBM since its last alert (R10, R377; log entry 95). -/
  rowActs : FMap Nat
  poison : List Nat
  lastWr : FMap Op
  /-- Frames that the Keep has given out (R42). -/
  usedFrames : List Nat
  /-- Images, graphs, instances and node instances (R23, R31, R33, R50). -/
  images : FMap (List Byte)
  /-- The bytes that the Keep can hold of images and graphs (R41; log entry 29). -/
  keepSize : Nat
  graphs : FMap Graph
  instances : FMap Instance
  nodes : FMap Node
  /-- The quench under way, the save pool, the held records (R320 to R322), and what IDLE is told (R332). -/
  quench : Option Quench
  savePool : List Nat
  keepEvents : List KeepEvent
  /-- The host attachment: sessions, the Keep's order, the run being started, regions, queue pairs (R35 to R48). -/
  sessions : FMap Session
  /-- Session numbers given out since cold reset (R35). -/
  sessUsed : List Nat
  keepq : List KeepReq
  starting : Option Starting
  /-- The request whose REPLY OK is owed (R43, R227, R323), and the instances whose last commands complete (R319). -/
  keepWait : Option KeepWait
  ending : List Ending
  regions : FMap Region
  qps : FMap QPair
  /-- The topology in force (R298, R308) and the loaded plans (R296). -/
  tgen : BitVec 32
  plan : BitVec 4
  reconf : Bool
  plans : FMap (FMap (BitVec 16))
  /-- Fibres in service (R295). -/
  fibresUp : BitVec 64
  /-- The collective of this module, and what the leader has gathered (R309, R311). -/
  rcir : Option Collective
  lead : Leader
  /-- SENDs on their way out and in (R304). -/
  chanOut : List SendMsg
  chanIn : List SendMsg
  /-- The number of the last SEND taken in, by source module and channel (R304). -/
  chanLast : List (BitVec 8 × Word × Nat)
  /-- Records of quenched instances that are held, in order (R322). -/
  held : List Nat
  /-- Frames that the Lantern holds, frames sent whose receipt is outstanding, the numbers of the frames taken in of each module, and
  the modules whose lost path is in the event log (R300, R301, R311, R391). -/
  lantern : List Frame
  kept : List Frame
  heard : FMap (List Nat)
  noPath : List (BitVec 8)
  /-- Messages of the collective between this module as leader and itself (R309). -/
  toSelf : List DomainMsg
  /-- Fibres replaced by their spare in this generation, and the channels that CHMK has made again since (R374). -/
  remade : BitVec 64
  chanMade : List Word
  /-- Planes in service: each returned from every switch or fall-back (R311). -/
  planesUp : BitVec 64
  /-- The cycle counters of the two hearth dies (R17). -/
  hearth : Vector Word 2
  /-- The sequence number of each plane (R312). -/
  upcSeq : FMap (BitVec 32)
  deriving DecidableEq, Repr

/-- The address of the MODULE register (R385). -/
def moduleReg : Nat := 0x10000

/-- Cold reset, before power is good (R5, R385, R388, R390): see log entries 4 to 12 for what the spec gives no value. -/
def State.reset : State :=
  { tick := 0, schedule := [], cur := none, fresh := 1, outbox := [],
    boot := { stage := 0, copyB := false, fail := 0, tready := 0, wantsPlan := false, floor := 0 },
    flash := [(moduleReg, 0xFF)], modNo := 0xFF, modSet := false, domain := 0, leader := 0,
    measure := Vector.replicate 8 0, rollback := 0, enrolLock := false, tracesel := 0, ttbase := 0,
    errHead := 0, errLog := [], evtHead := 0, evtLog := [], supplyOk := true, hbmGrant := (0, 1),
    dieTol := Vector.replicate 8 1, modTol := 0, modState := 0, idleCores := [], badClusters := [], spareUse := [],
    tests := [], errTimes := [], tested := [], dies := Vector.replicate 8 Die.reset, clusters := [], cores := [], anvils := [],
    strands := [], trackers := [], sums := [], net := [], units := [], seqs := [], hbm := [], hbmMeta := [], badLines := [], rowActs := [],
    poison := [], lastWr := [], usedFrames := [], images := [], keepSize := 2 ^ 30, graphs := [], instances := [], nodes := [], quench := none, savePool := [],
    keepEvents := [], sessions := [], sessUsed := [], keepq := [], starting := none,
    keepWait := none, ending := [], regions := [], qps := [], tgen := 0, plan := 0, reconf := false,
    plans := [(0, [])], fibresUp := BitVec.allOnes 64, rcir := none, lead := Leader.reset, chanOut := [], chanIn := [],
    chanLast := [], held := [], lantern := [], kept := [], heard := [], noPath := [], toSelf := [], remade := 0, chanMade := [], planesUp := BitVec.allOnes 64,
    hearth := Vector.replicate 2 0, upcSeq := [] }

end Sys2Proof.Machine
end

