-- ==== Sys2Proof/Machine/Maps.lean ====
section
/-!
DEFINITION. Sparse tables and byte memories: reading, writing, removing, and their canonical form.
-/
namespace Sys2Proof.Machine

/-- The entry at key `k`. -/
def Maps.get {α : Type} (m : FMap α) (k : Nat) : Option α :=
  match m with
  | [] => none
  | (a, v) :: r => if a = k then some v else Maps.get r k

/-- The entry at key `k`, or the value an unlisted key stands for. -/
def Maps.getD {α : Type} (m : FMap α) (k : Nat) (d : α) : α := (Maps.get m k).getD d

/-- Set the entry at key `k`. -/
def Maps.put {α : Type} (m : FMap α) (k : Nat) (v : α) : FMap α :=
  match m with
  | [] => [(k, v)]
  | (a, w) :: r => if k < a then (k, v) :: (a, w) :: r else if a = k then (k, v) :: r else (a, w) :: Maps.put r k v

/-- Remove the entry at key `k`. -/
def Maps.del {α : Type} (m : FMap α) (k : Nat) : FMap α :=
  match m with
  | [] => []
  | (a, w) :: r => if a = k then r else (a, w) :: Maps.del r k

/-- Are the keys strictly rising? -/
def Maps.wf {α : Type} (m : FMap α) : Bool :=
  match m with
  | [] => true
  | [_] => true
  | (a, _) :: (b, w) :: r => decide (a < b) && Maps.wf ((b, w) :: r)

/-- Apply `f` to every entry. -/
def Maps.map {α β : Type} (m : FMap α) (f : Nat → α → β) : FMap β := m.map fun p => (p.1, f p.1 p.2)

/-- Keep the entries that `f` accepts. -/
def Maps.filter {α : Type} (m : FMap α) (f : Nat → α → Bool) : FMap α := List.filter (fun p => f p.1 p.2) m

/-- The canonical form of a byte memory: rising addresses, no zero byte listed. -/
def Memory.wf (m : Memory) : Bool := Maps.wf m && m.all fun c => c.2 != 0#8

/-- One byte; a byte that nothing has written reads as zero (log entries 9 and 11). -/
def Mem.byte (m : Memory) (a : Nat) : Byte := Maps.getD m a 0#8

/-- Write one byte, keeping the canonical form. -/
def Mem.setByte (m : Memory) (a : Nat) (b : Byte) : Memory := if b = 0#8 then Maps.del m a else Maps.put m a b

/-- The `n` bytes from address `a`. -/
def Mem.bytes (m : Memory) (a n : Nat) : List Byte :=
  match n with
  | 0 => []
  | n + 1 => Mem.byte m a :: Mem.bytes m (a + 1) n

/-- Write bytes from address `a` upwards. -/
def Mem.setBytes (m : Memory) (a : Nat) (bs : List Byte) : Memory :=
  match bs with
  | [] => m
  | b :: r => Mem.setBytes (Mem.setByte m a b) (a + 1) r

/-- The number that bytes make, lowest address least significant (R2). -/
def leNat (bs : List Byte) : Nat :=
  match bs with
  | [] => 0
  | b :: r => b.toNat + 256 * leNat r

/-- The `n` low bytes of a number, least significant first (R2). -/
def leBytes (n v : Nat) : List Byte :=
  match n with
  | 0 => []
  | n + 1 => BitVec.ofNat 8 v :: leBytes n (v / 256)

/-- The little-endian number of `n` bytes at address `a`. -/
def Mem.num (m : Memory) (a n : Nat) : Nat := leNat (Mem.bytes m a n)

/-- Bytes `[o, o + n)` of a payload, moved to the low end. -/
def Payload.slice (p : Payload) (o n : Nat) : Payload := (p >>> (8 * o)) &&& BitVec.ofNat 32768 (2 ^ (8 * n) - 1)

/-- A payload with bytes `[o, o + n)` taken from the low end of `d`. -/
def Payload.put (p : Payload) (o n : Nat) (d : Payload) : Payload :=
  let m : Payload := BitVec.ofNat 32768 (2 ^ (8 * n) - 1) <<< (8 * o)
  (p &&& ~~~m) ||| ((d <<< (8 * o)) &&& m)

/-- A payload as 4,096 bytes. -/
def Payload.toBytes (p : Payload) : List Byte := leBytes 4096 p.toNat

/-- A payload from bytes. -/
def Payload.ofBytes (bs : List Byte) : Payload := BitVec.ofNat 32768 (leNat bs)

/-- Field of a byte record: `n` bytes at offset `o` as a number. -/
def recField (bs : List Byte) (o n : Nat) : Nat := leNat ((bs.drop o).take n)

end Sys2Proof.Machine
end

