-- ==== Sys2Proof/Machine/Ops.lean ====
section
/-!
DEFINITION. The named operations over the state: units and places, registers, translation, posting and batches, taking a
trap and returning from one, fault queues, and ending an instance.
-/
namespace Sys2Proof

/-- The length of an instruction that has a base form (R72). -/
def Form.len (f : Form) : Nat := if f.ext then 12 else 4
/-- The length of a literal form (R72). -/
def Form.litLen (f : Form) : Nat := if f.ext then 20 else 12
/-- The length of a window form (R72). -/
def WForm.len (f : WForm) : Nat := if f.ext then 12 else 4

end Sys2Proof

namespace Sys2Proof.Machine

/-! ### Names of units -/

/-- The cluster of a core: die, cluster and core number stand in one field (R327, SELF). -/
def coreCluster (k : BitVec 13) : BitVec 9 := k.extractLsb' 4 9
/-- The die of a cluster. -/
def clusterDie (c : BitVec 9) : BitVec 3 := c.extractLsb' 6 3
/-- The die of a core. -/
def coreDie (k : BitVec 13) : BitVec 3 := clusterDie (coreCluster k)
/-- The Anvil of a core's quad: cores 4q to 4q + 3 make quad q (log entry 15). -/
def coreAnvil (k : BitVec 13) : BitVec 11 := k.extractLsb' 2 11
/-- The cluster an Anvil stands in. -/
def anvilCluster (a : BitVec 11) : BitVec 9 := a.extractLsb' 2 9
/-- Core `i` of a cluster. -/
def clusterCore (c : BitVec 9) (i : Nat) : BitVec 13 := c ++ BitVec.ofNat 4 i
/-- The sixteen cores of a cluster, lowest number first. -/
def clusterCores (c : BitVec 9) : List (BitVec 13) := (List.range 16).map (clusterCore c)

/-- The number of a sending unit (R255, R273): cores, copy engines, proxies, Ethernet ports, Belfries. -/
def unitCore (k : BitVec 13) : Nat := k.toNat
def unitEngine (c : BitVec 9) : Nat := 8192 + c.toNat
def unitProxy (d : BitVec 3) : Nat := 8704 + d.toNat
def unitPort (p : Bool) : Nat := 8712 + p.toNat
def unitBelfry (d : BitVec 3) : Nat := 8720 + d.toNat
/-- A unit of another module. -/
def unitRemote (m : BitVec 8) (u : Nat) : Nat := 16384 * (m.toNat + 1) + u

/-- The number of a home that keeps batch summaries (R265, R266): slices, engines, proxies, other modules. -/
def homeOf (p : Place) : Nat :=
  match p with
  | .dom c _ => c.toNat
  | .pad c _ => c.toNat
  | .off m => 2048 + m.toNat
def homeEngine (c : BitVec 9) : Nat := 512 + c.toNat
def homeProxy (d : BitVec 3) : Nat := 1024 + d.toNat

/-! ### Accessors -/

/-- A cluster. -/
def State.cluster (s : State) (c : BitVec 9) : Cluster := Maps.getD s.clusters c.toNat Cluster.reset
/-- Replace a cluster. -/
def State.setCluster (s : State) (c : BitVec 9) (v : Cluster) : State := { s with clusters := Maps.put s.clusters c.toNat v }
/-- A core. -/
def State.core (s : State) (k : BitVec 13) : Core := Maps.getD s.cores k.toNat Core.reset
/-- Replace a core. -/
def State.setCore (s : State) (k : BitVec 13) (v : Core) : State := { s with cores := Maps.put s.cores k.toNat v }
/-- An Anvil. -/
def State.anvil (s : State) (a : BitVec 11) : Anvil := Maps.getD s.anvils a.toNat Anvil.reset
/-- Replace an Anvil. -/
def State.setAnvil (s : State) (a : BitVec 11) (v : Anvil) : State := { s with anvils := Maps.put s.anvils a.toNat v }
/-- A die. -/
def State.die (s : State) (d : BitVec 3) : Die := s.dies[d.toNat]'(d.isLt)
/-- Replace a die. -/
def State.setDie (s : State) (d : BitVec 3) (v : Die) : State := { s with dies := s.dies.set d.toNat v d.isLt }
/-- A strand's record. -/
def State.strand (s : State) (r : Nat) : Option Strand := Maps.get s.strands r
/-- Replace a strand's record. -/
def State.setStrand (s : State) (r : Nat) (v : Strand) : State := { s with strands := Maps.put s.strands r v }
/-- Change a strand's record, if it stands. -/
def State.updStrand (s : State) (r : Nat) (f : Strand → Strand) : State :=
  match s.strand r with
  | none => s
  | some st => s.setStrand r (f st)
/-- A node instance. -/
def State.node (s : State) (n : BitVec 32) : Option Node := Maps.get s.nodes n.toNat
/-- Replace a node instance. -/
def State.setNode (s : State) (n : BitVec 32) (v : Node) : State := { s with nodes := Maps.put s.nodes n.toNat v }
/-- A running instance. -/
def State.inst (s : State) (n : BitVec 32) : Option Instance := Maps.get s.instances n.toNat
/-- Replace an instance. -/
def State.setInst (s : State) (n : BitVec 32) (v : Instance) : State := { s with instances := Maps.put s.instances n.toNat v }
/-- Append a message that leaves the module. -/
def State.emit (s : State) (o : Out) : State := { s with outbox := s.outbox ++ [o] }
/-- Put a message on its way. -/
def State.send (s : State) (m : Msg) : State := { s with net := Maps.put s.net s.fresh m, fresh := s.fresh + 1 }
/-- Take a message off the network. -/
def State.take (s : State) (m : Nat) : State := { s with net := Maps.del s.net m }
/-- Is the cluster in service (R11, R375)? -/
def State.inService (s : State) (c : BitVec 9) : Bool :=
  (s.die (clusterDie c)).alive && !s.badClusters.contains c.toNat

/-- Does a self-test fence this core: its own, or that of its cluster (R372)? -/
def UnitId.fencesCore (u : UnitId) (k : BitVec 13) : Bool :=
  u.die == coreDie k && u.cluster == k.extractLsb' 4 6
    && (u.unit == 4#8 || u.unit == 10#8 || (u.unit == 1#8 && u.index == (k.extractLsb' 0 4).zeroExtend 6))
/-- Does it fence this Anvil? -/
def UnitId.fencesAnvil (u : UnitId) (a : BitVec 11) : Bool :=
  u.die == clusterDie (anvilCluster a) && u.cluster == a.extractLsb' 2 6
    && (u.unit == 4#8 || u.unit == 10#8 || (u.unit == 3#8 && u.index == (a.extractLsb' 0 2).zeroExtend 6))
/-- Is a core under a self-test? -/
def State.fenced (s : State) (k : BitVec 13) : Bool := s.tests.any fun t => UnitId.fencesCore t.unit k
/-- Is an Anvil under a self-test? -/
def State.fencedAnvil (s : State) (a : BitVec 11) : Bool := s.tests.any fun t => UnitId.fencesAnvil t.unit a

/-- The module leaves S4 (R363). -/
def State.rouseModule (s : State) : State := if s.modState = 0 then s else { s with modState := 0 }
/-- An operation needs a die: it leaves S2 or S3, and the module S4 (R363); while the supply is out of its limits the dies stay in
S3 (R15). -/
def State.rouse (s : State) (d : BitVec 3) : State :=
  let s1 := s.rouseModule
  if (s1.die d).idle = 0 || !s1.supplyOk then s1 else s1.setDie d { s1.die d with idle := 0 }
/-- A strand needs a core: it leaves S1. -/
def State.rouseCore (s : State) (k : BitVec 13) : State :=
  let s1 := if s.idleCores.contains k.toNat then { s with idleCores := s.idleCores.filter (· != k.toNat) } else s
  s1.rouse (coreDie k)

/-! ### Activations of HBM rows (R10, R377) -/

/-- The stack counts an activation of the row that holds a block: one for each access of the block that log entry 95 names. -/
def State.activate (s : State) (blk : Nat) : State := { s with rowActs := Maps.put s.rowActs blk (Maps.getD s.rowActs blk 0 + 1) }
/-- One activation of the row of each of `n` blocks from `blk` on. -/
def State.activateRange (s : State) (blk n : Nat) : State :=
  { s with rowActs := (s.rowActs.filter fun p => decide (p.1 < blk)) ++ ((List.range n).map fun i => (blk + i, Maps.getD s.rowActs (blk + i) 0 + 1))
      ++ s.rowActs.filter fun p => decide (blk + n ≤ p.1) }
/-- The block of the HBM byte address `a`. -/
def hbmBlock (a : Nat) : Nat := a / 4096

/-! ### Registers (R80, R90) -/

/-- `reg(n)` of R90. -/
def Strand.reg (st : Strand) (n : BitVec 4) : Word := st.regs[n.toNat]'(n.isLt)
/-- `setreg(n, v)` of R90. -/
def Strand.setReg (st : Strand) (n : BitVec 4) (v : Word) : Strand := { st with regs := st.regs.set n.toNat v n.isLt }
/-- g register `n` of a 3-bit field. -/
def Strand.g (st : Strand) (n : BitVec 3) : Word := st.reg (0#1 ++ n)
/-- The pc after an instruction of `len` bytes. -/
def Strand.next (st : Strand) (len : Nat) : Strand := { st with pc := st.pc + BitVec.ofNat 32 len }
/-- OR flags into FFLAGS (R143). -/
def Strand.orFlags (st : Strand) (f : BitVec 5) : Strand := { st with fflags := st.fflags ||| f }
/-- The low 3 bits of a register field: a vector, tile or descriptor number (R80). -/
def low3 (n : BitVec 4) : BitVec 3 := n.extractLsb' 0 3
/-- A vector register. -/
def Strand.vec (st : Strand) (n : BitVec 3) : Vec := st.vecs[n.toNat]'(n.isLt)
/-- A vector's tag. -/
def Strand.tag (st : Strand) (n : BitVec 3) : BitVec 8 := st.tags[n.toNat]'(n.isLt)
/-- Write a vector and its tag (R152). -/
def Strand.setVec (st : Strand) (n : BitVec 3) (v : Vec) (t : BitVec 8) : Strand :=
  { st with vecs := st.vecs.set n.toNat v n.isLt, tags := st.tags.set n.toNat t n.isLt }
/-- A held tile. -/
def Strand.tile (st : Strand) (n : BitVec 3) : Option Tile := st.tiles[n.toNat]'(n.isLt)
/-- Set or release a tile. -/
def Strand.setTile (st : Strand) (n : BitVec 3) (t : Option Tile) : Strand := { st with tiles := st.tiles.set n.toNat t n.isLt }
/-- A format descriptor. -/
def Strand.desc (st : Strand) (n : BitVec 3) : BitVec 32 := st.fd[n.toNat]'(n.isLt)
/-- Write a format descriptor. -/
def Strand.setDesc (st : Strand) (n : BitVec 3) (v : BitVec 32) : Strand := { st with fd := st.fd.set n.toNat v n.isLt }
/-- Tiles held (TCNT, R62). -/
def Strand.tcnt (st : Strand) : Nat := (st.tiles.toList.filter Option.isSome).length
/-- ANCH: some tag is not EMPTY or a tile is held (R155, R177). -/
def Strand.anch (st : Strand) : Bool := st.tags.toList.any (fun t => t.extractLsb' 4 4 != 0#4) || st.tiles.toList.any Option.isSome
/-- The window words of a window code (R27, R62). -/
def winWords (w : BitVec 3) : Nat :=
  match w.toNat with
  | 1 => 8
  | 2 => 16
  | 3 => 32
  | 4 => 64
  | _ => 0
/-- The strand's allocation. -/
def Strand.words (st : Strand) : Nat := winWords st.win
/-- A window word; `i` is below the allocation wherever it is read (R108). -/
def Strand.w (st : Strand) (i : Nat) : BitVec 32 := st.window[i]?.getD 0
/-- Write a window word. -/
def Strand.setW (st : Strand) (i : Nat) (v : BitVec 32) : Strand := { st with window := st.window.setIfInBounds i v }
/-- Is the strand privileged (R86)? -/
def Strand.privileged (st : Strand) : Bool := st.image == 0xFFFF#16
/-- The core a strand runs on, or last ran on. -/
def Strand.home (st : Strand) : BitVec 13 :=
  match st.loc with
  | .slot k _ => k
  | _ => st.core
/-- Is the strand in a slot? -/
def Strand.inSlot (st : Strand) : Bool :=
  match st.loc with
  | .slot _ _ => true
  | _ => false
/-- The guard of R83. -/
def Strand.guardOk (st : Strand) (g : Option Guard) : Bool :=
  match g with
  | none => true
  | some g => (st.reg g.reg).getLsbD g.bit.toNat == !g.sense

/-! ### The Keep's events (R332) -/

/-- The strand that waits in IDLE, first by record. -/
def State.idler (s : State) : Option (Nat × Strand × Form × BitVec 4) :=
  s.strands.findSome? fun p => match p.2.wait with | .keep (.idle f rd) => some (p.1, p.2, f, rd) | _ => none

/-- IDLE's result: kind and reference, whose numbering the spec leaves open (log entry 23). -/
def KeepEvent.word (e : KeepEvent) : Word := e.ref ++ e.kind

/-- IDLE completes with an event. -/
def Strand.idled (st : Strand) (f : Form) (rd : BitVec 4) (e : KeepEvent) : Strand :=
  { (st.setReg rd e.word).next f.len with wait := .run }

/-- Give the Keep an event to tell: a waiting IDLE takes it, or it stands in arrival order. -/
def State.tellKeep (s : State) (kind : BitVec 8) (ref : Nat) : State :=
  let e : KeepEvent := { kind := kind, ref := (Config.free 4 ref).extractLsb' 0 56 }
  match s.idler with
  | some (r, st, f, rd) => s.setStrand r (st.idled f rd e)
  | none => { s with keepEvents := s.keepEvents ++ [e] }

/-! ### Handles (R19 to R22) -/

/-- GEN of a handle. -/
def Handle.gen (h : Word) : BitVec 12 := h.extractLsb' 52 12
/-- SPACE of a handle. -/
def Handle.space (h : Word) : BitVec 3 := h.extractLsb' 49 3
/-- VBN of a handle. -/
def Handle.vbn (h : Word) : BitVec 37 := h.extractLsb' 12 37
/-- OFF of a handle. -/
def Handle.off (h : Word) : BitVec 12 := h.extractLsb' 0 12
/-- Cluster of a space-1 handle: die and logical cluster. -/
def Handle.cluster (h : Word) : BitVec 9 := h.extractLsb' 21 9
/-- Pointer advance (R22). -/
def padd49 (h x : Word) : Word := h.extractLsb' 49 15 ++ (h.extractLsb' 0 49 + x.extractLsb' 0 49)
/-- The canonical null handle (R20). -/
def nullHandle : Word := 0x000E_0000_0000_0000#64

/-! ### Translation (R223, R227 to R231) -/

/-- HBM address of byte `a` of a stack. -/
def hbmAddr (stack a : Nat) : Nat := stack * 2 ^ 36 + a
/-- The 64-bit word at an HBM address. -/
def State.hbmWord (s : State) (a : Nat) : Word := BitVec.ofNat 64 (Mem.num s.hbm a 8)
/-- PERM of an entry. -/
def Pte.perm (e : Word) : BitVec 4 := e.extractLsb' 58 4
/-- MODULE of an entry. -/
def Pte.module (e : Word) : BitVec 8 := e.extractLsb' 50 8
/-- Stack of the module that an entry names: die and stack of the die. -/
def Pte.stack (e : Word) : BitVec 5 := e.extractLsb' 45 5
/-- FRAME of an entry. -/
def Pte.frame (e : Word) : BitVec 24 := e.extractLsb' 0 24
/-- V set and the reserved field zero (R227). -/
def Pte.valid (e : Word) : Bool := e.getLsbD 63 && e.extractLsb' 24 21 == 0#21
/-- LEAF. -/
def Pte.leaf (e : Word) : Bool := e.getLsbD 62

/-- The HBM address of the level-1 entry of a VBN (R227, TTBASE of R385). -/
def State.l1Addr (s : State) (vbn : BitVec 37) : Nat :=
  hbmAddr (s.ttbase.extractLsb' 0 5).toNat ((s.ttbase.extractLsb' 40 24).toNat * 2 ^ 21 + 8 * (vbn.toNat >>> 18))

/-- The walk of R227: the leaf of a VBN, and whether it is a 1 GiB leaf. -/
def State.walk (s : State) (vbn : BitVec 37) : Option (Word × Bool) :=
  let e1 := s.hbmWord (s.l1Addr vbn)
  if !Pte.valid e1 then none
  else if Pte.leaf e1 then some (e1, true)
  else
    let e2 := s.hbmWord (hbmAddr (Pte.stack e1).toNat ((Pte.frame e1).toNat * 4096 + 8 * ((vbn.toNat >>> 9) % 512)))
    if Pte.valid e2 && Pte.leaf e2 then some (e2, false) else none

/-- The home slice of physical block `p` of stack `k` of the driving die (R223). -/
def homeCluster (die : BitVec 3) (k : BitVec 2) (p : BitVec 24) : BitVec 9 :=
  let h := p.extractLsb' 0 4 ^^^ p.extractLsb' 4 4 ^^^ p.extractLsb' 8 4 ^^^ p.extractLsb' 12 4 ^^^ p.extractLsb' 16 4
    ^^^ p.extractLsb' 20 4
  die ++ (k.extractLsb' 1 1 ++ h.extractLsb' 2 2) ++ (k.extractLsb' 0 1 ++ h.extractLsb' 0 2)

/-- The die whose port of a stack is active (R9). -/
def State.driver (s : State) (stack : BitVec 5) : BitVec 3 :=
  let d := stack.extractLsb' 2 3
  if (s.die d).secondPort then d ^^^ 4#3 else d

/-- An access of HBM at byte address `a` wakes the die that drives its stack (R363) and activates the row (R377). -/
def State.touchHbm (s : State) (a : Nat) : State := (s.rouse (s.driver (BitVec.ofNat 5 (a / 2 ^ 36)))).activate (hbmBlock a)
/-- The entries that a walk reads (R227): that of level 1, and where it is a pointer that of level 2. -/
def State.walkAddrs (s : State) (vbn : BitVec 37) : List Nat :=
  let a := s.l1Addr vbn
  let e := s.hbmWord a
  if Pte.valid e && !Pte.leaf e then [a, hbmAddr (Pte.stack e).toNat ((Pte.frame e).toNat * 4096 + 8 * ((vbn.toNat >>> 9) % 512))] else [a]
/-- A die's walker has walked for a VBN (R229). -/
def State.walked (s : State) (vbn : BitVec 37) : State := (s.walkAddrs vbn).foldl (fun t a => t.touchHbm a) s

/-- The place of a VBN under a leaf (R223, R227). -/
def State.leafPlace (s : State) (e : Word) (big : Bool) (vbn : BitVec 37) : Place :=
  if Pte.module e != s.modNo then .off (Pte.module e)
  else
    let idx := if big then vbn.toNat % 2 ^ 18 else vbn.toNat % 512
    let p := BitVec.ofNat 24 ((Pte.frame e).toNat * 512 + idx)
    let k := Pte.stack e
    .dom (homeCluster (s.driver k) (k.extractLsb' 0 2) p) (k.toNat * 2 ^ 24 + p.toNat)

/-- Keys of the TLB: an extent of 2 MiB or of 1 GiB (R229). -/
def tlbKey (vbn : BitVec 37) (big : Bool) : Nat := if big then 2 * (vbn.toNat >>> 18) + 1 else 2 * (vbn.toNat >>> 9)

/-- The TLB's entry for a VBN. -/
def Cluster.lookup (c : Cluster) (vbn : BitVec 37) : Option (Word × Bool) :=
  match Maps.get c.tlb (tlbKey vbn false) with
  | some e => some (e, false)
  | none =>
    match Maps.get c.tlb (tlbKey vbn true) with
    | some e => some (e, true)
    | none => none

/-- What translation answers (R20, R229, R231). -/
inductive XRes where
  | ok (p : Place)
  | miss
  | fault
  | migrate (c : BitVec 9)
  deriving DecidableEq, Repr

/-- Does the module of an entry belong to the domain (R294)? -/
def State.inDomain (s : State) (m : BitVec 8) : Bool := m == s.modNo || (s.modSet && s.domain.getLsbD m.toNat)

/-- The place a leaf gives, if it grants the permissions `perm` (R228). -/
def State.granted (s : State) (e : Word) (big : Bool) (vbn : BitVec 37) (perm : BitVec 4) : XRes :=
  if Pte.perm e &&& perm == perm && s.inDomain (Pte.module e) then .ok (s.leafPlace e big vbn) else .fault

/-- Scratchpad slots of a cluster (R221). -/
def Cluster.padSlots (c : Cluster) : Nat := 512 - 32 * c.l2units.toNat

/-- A space-1 handle (R20): the slot it names, when it breaks no rule. -/
def State.padPlace (s : State) (h : Word) : Option Place :=
  let c := Handle.cluster h
  let slot := h.extractLsb' 12 9
  if h.extractLsb' 38 11 == 0#11 && h.extractLsb' 30 8 == s.modNo && s.inService c && decide (slot.toNat < (s.cluster c).padSlots)
  then some (.pad c slot) else none

/-- Translate a handle for cluster `c`: through its TLB, or by a walk at once for an engine or the Keep. -/
def State.xlate (s : State) (c : BitVec 9) (tlb : Bool) (h : Word) (perm : BitVec 4) : XRes :=
  if Handle.space h == 0#3 then
    match (if tlb then (s.cluster c).lookup (Handle.vbn h) else s.walk (Handle.vbn h)) with
    | some (e, big) => s.granted e big (Handle.vbn h) perm
    | none => if tlb then .miss else .fault
  else if Handle.space h == 1#3 then
    match s.padPlace h with
    | none => .fault
    | some (.pad d slot) => if d == c then .ok (.pad d slot) else .migrate d
    | some p => .ok p
  else .fault

/-- Permission masks (R228): read, write, accumulate. -/
def permR : BitVec 4 := 1#4
def permW : BitVec 4 := 2#4
def permA : BitVec 4 := 4#4

/-! ### The host's events (R39, R49, R391) -/

/-- The key and the IV of the part's direction (R35), and the nonce of a SEQ (R36). -/
def Session.partKey (se : Session) : BitVec 256 := se.keys.extractLsb' 256 256
def Session.partIv (se : Session) : BitVec 96 := se.keys.extractLsb' 608 96
def Session.nonce (se : Session) (seq : BitVec 32) : BitVec 96 := se.partIv ^^^ seq.zeroExtend 96

/-- A datagram of session `n` on its way out; OPENED bears session number 0 and is not encrypted (R35, R38). -/
def Session.datagram (se : Session) (n seq : BitVec 32) (typ : BitVec 8) (more : Bool) (body : List Byte) : Out :=
  .uhp se.port (if typ = 2#8 then 0 else n) seq typ more (se.rxNext - 1) body
    (if typ = 2#8 then none else some (se.partKey, se.nonce seq))

/-- Send one message of a session, cut into datagrams of 8,192 bytes (R39). -/
def State.sendSegments (s : State) (fuel : Nat) (n : BitVec 32) (se : Session) (typ : BitVec 8) (body : List Byte) : State × Session :=
  let last := decide (body.length ≤ 8192)
  let seg := body.take 8192
  let se' := { se with txNext := se.txNext + 1, unacked := se.unacked ++ [(se.txNext, typ, !last, seg, 1)] }
  let s' := s.emit (se.datagram n se.txNext typ (!last) seg)
  match fuel with
  | 0 => (s', se')
  | fuel + 1 => if last then (s', se') else s'.sendSegments fuel n se' typ (body.drop 8192)

/-- Send a message over an open session. -/
def State.sendMsg (s : State) (n : BitVec 32) (typ : BitVec 8) (body : List Byte) : State :=
  match Maps.get s.sessions n.toNat with
  | none => s
  | some se =>
    let r := s.sendSegments body.length n se typ body
    { r.1 with sessions := Maps.put r.1.sessions n.toNat r.2 }

/-- Append a record to the management event log (R391). -/
def State.logEvent (s : State) (kind code : BitVec 8) (idx : BitVec 16) (inst : BitVec 32) (ref : Word) (node tpc : BitVec 32)
    (val : Word) : State :=
  let r : BitVec 256 := val ++ tpc ++ node ++ ref ++ inst ++ idx ++ code ++ kind
  { s with evtLog := Maps.put s.evtLog (s.evtHead.toNat % 1024) r, evtHead := s.evtHead + 1 }

/-- The cycle counter of a hearth die (R17). -/
def State.hearthClock (s : State) (second : Bool) : Word := if second then s.hearth[1] else s.hearth[0]
/-- That of hearth die 0 (R391). -/
def State.hearthCycle (s : State) : Word := s.hearthClock false

/-- REPLY to a request (R40), kept for a repetition of it (R39). -/
def State.reply (s : State) (n seq : BitVec 32) (status : Nat) (body : List Byte) : State :=
  let b := leBytes 4 seq.toNat ++ leBytes 2 status ++ body
  let s1 := s.sendMsg n 0x80#8 b
  match Maps.get s1.sessions n.toNat with
  | none => s1
  | some se => { s1 with sessions := Maps.put s1.sessions n.toNat { se with stored := Maps.put se.stored seq.toNat b } }

/-- Is the session open? -/
def State.sessionOpen (s : State) (n : BitVec 32) : Bool :=
  match Maps.get s.sessions n.toNat with
  | none => false
  | some se => se.phase != .opening

/-- COMPLETE of an instance (R49), or its event record when the session has closed (R36). -/
def State.sendComplete (s : State) (n : BitVec 32) (i : Instance) : State :=
  if s.sessionOpen i.session then
    s.sendMsg i.session 0x81#8 (leBytes 4 n.toNat ++ leBytes 8 i.cookie.toNat ++ leBytes 2 0)
  else s.logEvent 1#8 0#8 0#16 n i.cookie 0#32 0#32 s.hearthCycle

/-- FAULT of an instance (R49, R280). -/
def State.sendFault (s : State) (n : BitVec 32) (i : Instance) (f : FaultInfo) : State :=
  if s.sessionOpen i.session then
    s.sendMsg i.session 0x82#8 (leBytes 4 n.toNat ++ leBytes 8 i.cookie.toNat ++ leBytes 2 f.idx.toNat ++ leBytes 4 f.node.toNat
      ++ leBytes 1 f.cause.toNat ++ leBytes 4 f.tpc.toNat ++ leBytes 8 f.tval.toNat)
  else s.logEvent 2#8 f.cause f.idx n i.cookie f.node f.tpc f.tval

/-! ### Slots and the places of records -/

/-- Take a strand out of the slot, queues and lists of the cores and clusters. -/
def State.unlist (s : State) (r : Nat) : State :=
  { s with
    cores := Maps.map s.cores fun _ c =>
      { c with slots := c.slots.map (fun o => if o == some r then none else o),
               idleSince := if c.slots.toList.contains (some r) then s.tick else c.idleSince, divq := c.divq.filter (· != r),
               cmdq := c.cmdq.filter (· != r), deque := c.deque.filter (· != r), outbuf := c.outbuf.filter (· != r) }
    clusters := Maps.map s.clusters fun _ c =>
      { c with queue := c.queue.filter (· != r), waiting := c.waiting.filter (· != r), moving := match c.moving with | some (u, q) => if q = r then none else some (u, q) | none => none }
    anvils := Maps.map s.anvils fun _ a => { a with lanes := a.lanes.filter (· != r), array := a.array.filter (· != r) }
    dies := s.dies.map fun d => { d with faultq := d.faultq.filter (· != r) }
    savePool := s.savePool.filter (· != r)
    held := s.held.filter (· != r) }

/-- Free the slot of a strand that leaves the rotation, unless it is anchored (R61); its window words stay with its core. -/
def State.vacate (s : State) (r : Nat) : State :=
  match s.strand r with
  | none => s
  | some st =>
    match st.loc with
    | .slot k n =>
      if st.anch then s
      else
        let c := s.core k
        (s.setCore k { c with slots := c.slots.set n.toNat none n.isLt, idleSince := s.tick }).setStrand r { st with loc := .store (coreCluster k), core := k }
    | _ => s

/-- Is the strand's instance a victim of a quench in progress or already quenched (R321)? -/
def State.victim (s : State) (st : Strand) : Bool :=
  match s.node st.node with
  | none => false
  | some n =>
    match s.inst n.inst with
    | none => false
    | some i => i.quenched

/-- A record returns to the dispatcher of cluster `c` (R58); a victim's is held there (R321, R322). -/
def State.toDispatcher (s : State) (r : Nat) (c : BitVec 9) : State :=
  match s.strand r with
  | none => s
  | some st =>
    if s.victim st then { (s.setStrand r { st with loc := .held c, wait := .run, bound := false }) with held := s.held.filter (· != r) ++ [r] }
    else if st.inSlot then s.setStrand r { st with wait := .run }
    else s.setStrand r { st with loc := .arriving c, wait := .run }

/-- The cluster whose dispatcher and record store a strand belongs to. -/
def Strand.clusterOf (st : Strand) : BitVec 9 :=
  match st.loc with
  | .slot k _ => coreCluster k
  | .store c => c
  | .arriving c => c
  | .migrating c _ => c
  | .queue c => c
  | .deque k => coreCluster k
  | .faultq _ => coreCluster st.core
  | .held c => c
  | .saved _ c => c

/-- Release the tiles a strand holds (R177): a granted reservation gets its tile back while the node lives. -/
def TileUse.release (u : TileUse) (r : Nat) (alive : BitVec 32 → Bool) : TileUse :=
  match u with
  | .held r' n => if r' = r then (match n with | some n => if alive n then .reserved n else .free | none => .free) else u
  | _ => u

/-- Give back every tile of a strand. -/
def State.freeTiles (s : State) (r : Nat) : State :=
  let alive : BitVec 32 → Bool := fun n => (s.node n).isSome
  { s with anvils := Maps.map s.anvils fun _ a => { a with tiles := a.tiles.map fun u => u.release r alive } }

/-- Does a message close or sync on behalf of strand `r`? -/
def Msg.closesFor (m : Msg) (r : Nat) : Bool :=
  match m with
  | .close _ _ _ _ _ q => q == r
  | .closeReply _ _ _ _ _ q => q == r
  | _ => false

/-- Free a tracker and its summaries (R265). -/
def State.freeTracker (s : State) (t : Nat) : State :=
  { s with trackers := Maps.del s.trackers t, sums := Maps.filter s.sums fun k _ => k / 16384 != t }

/-- A strand is gone: slot, window words, vector file entry, tiles and tracker are free (R281, R319). -/
def State.dropStrand (s : State) (r : Nat) : State :=
  match s.strand r with
  | none => s
  | some st =>
    let s1 := (s.freeTiles r).unlist r
    let s2 := s1.freeTracker st.tracker
    { s2 with strands := Maps.del s2.strands r, net := Maps.filter s2.net fun _ m => !m.closesFor r,
              keepq := s2.keepq.filter fun q => match q with | .spawn q _ _ => q != r | _ => true,
              cur := if s2.cur = some r then none else s2.cur,
              rcir := s2.rcir.map fun c => { c with recs := c.recs.filter (· != r), late := c.late.filter (· != r) } }

/-! ### Batches (R94, R265, R266) -/

/-- Batch `b` of a tracker. -/
def Tracker.get (t : Tracker) (b : BitVec 2) : BatchSt :=
  match b.toNat with
  | 0 => t.b0
  | 1 => t.b1
  | 2 => t.b2
  | _ => t.b3
/-- Replace batch `b`. -/
def Tracker.set (t : Tracker) (b : BitVec 2) (v : BatchSt) : Tracker :=
  match b.toNat with
  | 0 => { t with b0 := v }
  | 1 => { t with b1 := v }
  | 2 => { t with b2 := v }
  | _ => { t with b3 := v }
/-- A tracker with nothing posted. -/
def Tracker.zero : Tracker := { cl := 0, b0 := BatchSt.zero, b1 := BatchSt.zero, b2 := BatchSt.zero, b3 := BatchSt.zero }

/-- Count one operation posted to home `h` (R265): the first 64 homes are tracked; another module is one home (log entry 79). -/
def BatchSt.count (b : BatchSt) (h : Nat) : BatchSt :=
  let b := { b with next := b.next + 1, off := b.off || decide (2048 ≤ h) }
  match Maps.get b.homes h with
  | some n => { b with homes := Maps.put b.homes h (n + 1) }
  | none => if b.homes.length < 64 then { b with homes := Maps.put b.homes h 1 } else { b with untracked := b.untracked + 1 }

/-- Key of a summary: tracker, batch, home. -/
def sumKey (t : Nat) (b : BitVec 2) (h : Nat) : Nat := t * 16384 + b.toNat * 4096 + h

/-- Is failure `a` earlier than `b`: lower ordinal, then lower destination (R266)? -/
def failBefore (a b : Nat × Nat × BitVec 5 × Word) : Bool := decide (a.1 < b.1) || (a.1 == b.1 && decide (a.2.1 < b.2.1))

/-- The earlier of two first failures. -/
def firstFail (a b : Option (Nat × Nat × BitVec 5 × Word)) : Option (Nat × Nat × BitVec 5 × Word) :=
  match a, b with
  | none, b => b
  | a, none => a
  | some a, some b => if failBefore b a then some b else some a

/-- Two summaries together. -/
def Sum.merge (a b : Sum) : Sum :=
  { count := a.count + b.count, bits := a.bits ||| b.bits, first := firstFail a.first b.first }

/-- One outcome as a summary: the operation's ordinal, destination index, bits, cause and handle. -/
def Sum.one (ordinal dst : Nat) (bits : BitVec 16) (cause : BitVec 5) (h : Word) : Sum :=
  { count := 1, bits := bits, first := if bits = 0 then none else some (ordinal, dst, cause, h) }

/-- The key under which tracker `t` of module `m` stands here: odd, as the trackers of this module are even. -/
def remoteTracker (m : BitVec 8) (t : Nat) : Nat := 2 * (256 * t + m.toNat) + 1

/-- A home adds an outcome to its summary (R266); of a tracker of this module only while it stands. -/
def State.tally (s : State) (home t : Nat) (b : BitVec 2) (x : Sum) : State :=
  if t % 2 = 0 && (Maps.get s.trackers t).isNone then s
  else { s with sums := Maps.put s.sums (sumKey t b home) ((Maps.getD s.sums (sumKey t b home) Sum.zero).merge x) }

/-- A new tracker in the batch table of cluster `cl` (R265). -/
def State.newTracker (s : State) (cl : BitVec 9) : Nat × State :=
  (2 * s.fresh, { s with trackers := Maps.put s.trackers (2 * s.fresh) { Tracker.zero with cl := cl }, fresh := s.fresh + 1 })

/-- The next sequence number of a sending unit (R94, R255). -/
def State.nextSeq (s : State) (u : Nat) : Word × State :=
  let v := Maps.getD s.seqs u 0#64
  (v, { s with seqs := Maps.put s.seqs u (v + 1) })

/-- Operations of unit `u` towards home `h` that are not acknowledged (R255). -/
def State.unackedAt (s : State) (u h : Nat) : Nat := ((Maps.getD s.units u []).filter fun o => homeOf o.place == h).length

/-- May unit `u` send `n` more operations to home `h`: at most 1,024 stand unacknowledged (R255)? -/
def State.roomFor (s : State) (u h n : Nat) : Bool := decide (s.unackedAt u h + n ≤ 1024)

/-- The reference that a remote-reader stub carries (R302): a strand record, or a copy engine's segment. -/
def Asker.recOf (a : Asker) : Nat :=
  match a with
  | .strand r => 2 * r
  | .tongs r _ => 2 * r
  | .copySource cl cmd seg => 2 * (cl.toNat + 512 * (seg % 4096 + 4096 * cmd)) + 1
  | _ => 0

/-- The cluster that a remote-reader stub carries (R302). -/
def Asker.clusterOf (s : State) (a : Asker) : BitVec 9 :=
  match a with
  | .strand r => (s.strand r).elim 0 Strand.clusterOf
  | .tongs r _ => (s.strand r).elim 0 Strand.clusterOf
  | .copySource cl _ _ => cl
  | _ => 0

/-- The body of an operation for another module (R300). -/
def State.opBody (s : State) (o : Op) : FrameBody :=
  .op o.kind o.h o.unit o.seq (o.asker.clusterOf s) o.asker.recOf o.node o.ordinal o.tracker o.batch

/-- The other modules of the domain (R294). -/
def State.others (s : State) : List (BitVec 8) :=
  if s.modSet then ((List.range 256).map (BitVec.ofNat 8)).filter fun m => s.domain.getLsbD m.toNat && m != s.modNo else []

/-- The entry of module `m` and fibre `k` in plan `p` (R296). -/
def State.planEntry (s : State) (p : BitVec 4) (m : BitVec 8) (k : Nat) : BitVec 16 :=
  Maps.getD (Maps.getD s.plans p.toNat []) (64 * m.toNat + k) 0#16

/-- The circuits of plan `p` at module `m`: fibre and far module; a fibre of a
plane that did not return (R311), and one of this module out of service, count for nothing. -/
def State.circuits (s : State) (p : BitVec 4) (m : BitVec 8) : List (BitVec 6 × BitVec 8) :=
  (List.range 64).filterMap fun k =>
    let e := s.planEntry p m k
    let far : BitVec 8 := e.extractLsb' 0 8
    if e.getLsbD 15 && s.planesUp.getLsbD k && (s.fibresUp.getLsbD k || (m != s.modNo && far != s.modNo)) then some (BitVec.ofNat 6 k, far) else none
/-- The modules that they join to module `m`. -/
def State.peers (s : State) (p : BitVec 4) (m : BitVec 8) : List (BitVec 8) := (s.circuits p m).map Prod.snd

/-- The modules within `fuel` more hops of those in `front` (R297, R300). -/
def State.reach (s : State) (p : BitVec 4) (fuel : Nat) (seen front : List (BitVec 8)) : List (BitVec 8) :=
  match fuel with
  | 0 => seen
  | fuel + 1 =>
    let next := ((front.flatMap (s.peers p)).eraseDups).filter fun m => !seen.contains m
    s.reach p fuel (seen ++ next) next

/-- The hops from module `m`, at most `fuel`, along circuits to module `dst`: none when there is no such path. `d` counts those
gone. -/
def State.hops (s : State) (p : BitVec 4) (dst : BitVec 8) (fuel d : Nat) (seen front : List (BitVec 8)) : Option Nat :=
  if front.contains dst then some d
  else match fuel with
    | 0 => none
    | fuel + 1 =>
      let next := ((front.flatMap (s.peers p)).eraseDups).filter fun m => !seen.contains m
      if next.isEmpty then none else s.hops p dst fuel (d + 1) (seen ++ next) next

/-- The plan of the Lantern's routing table: the one in force, or the one installed at relock (R309). -/
def State.routePlan (s : State) : BitVec 4 :=
  match s.rcir with
  | none => s.plan
  | some c => if c.relocked then c.plan else s.plan

/-- The entry of the Lantern's routing table for module `dst` (R300): the fibre of a shortest path under the plan, ties to the
lowest fibre. -/
def State.route (s : State) (dst : BitVec 8) : Option (BitVec 6) :=
  let p := s.routePlan
  (((s.circuits p s.modNo).filterMap fun c =>
      (s.hops p dst 256 0 [s.modNo, c.2] [c.2]).map fun d => (d, c.1)).foldl
    (fun (best : Option (Nat × BitVec 6)) x =>
      match best with
      | none => some x
      | some b => if x.1 < b.1 then some x else best) none).map Prod.snd

/-- Does the plan in force lead to module `m` (R300, R311)? -/
def State.hasPath (s : State) (m : BitVec 8) : Bool := (s.route m).isSome

/-- Has the Lantern stopped injecting routed traffic: between DRAIN and its relock (R309)? -/
def State.stalled (s : State) : Bool := s.rcir.any fun c => c.drain && !c.relocked

/-- The topology generation under which this module's Lantern sends: the one in force, or after relock the one to come (R309). -/
def State.sendGen (s : State) : BitVec 32 :=
  match s.rcir with
  | none => s.tgen
  | some c => if c.relocked && !c.back then c.expect + 1 else s.tgen

/-- A frame leaves on its fibre; one of this module is kept until its receipt (R301). -/
def State.putOn (s : State) (fibre : BitVec 6) (f : Frame) : State :=
  let g := if f.src == s.modNo then { f with gen := s.sendGen } else f
  { s.emit (.routed fibre g) with kept := if f.src == s.modNo then s.kept ++ [g] else s.kept }

/-- The Keep logs the loss of the path to a module, once until there is one again (R311, R391). -/
def State.logNoPath (s : State) (m : BitVec 8) : State :=
  if s.noPath.contains m then s
  else { s.logEvent 4#8 0#8 0#16 0#32 (m.zeroExtend 64) 0#32 0#32 s.hearthCycle with noPath := s.noPath ++ [m] }

/-- A frame goes out, or is held in the Lantern: one of this module while a reconfiguration stops the injection of routed traffic (R309,
R310) and behind a frame for the same module (R301); any for lack of a path, which the Keep logs (R311, R391). -/
def State.inject (s : State) (f : Frame) : State :=
  if f.src == s.modNo && (s.stalled || s.lantern.any fun g => g.dst == f.dst) then { s with lantern := s.lantern ++ [f] }
  else match s.route f.dst with
    | some k => s.putOn k f
    | none =>
      let s1 := s.logNoPath f.dst
      { s1 with lantern := s1.lantern ++ [f] }

/-- Fibres have gone out of service: frames that are sent, unacknowledged and without a path any longer are held again, ahead of the
others, and the Keep logs the loss (R311, R391). -/
def State.holdLost (s : State) : State :=
  let lost := s.kept.filter fun f => !s.hasPath f.dst
  let s1 := lost.foldl (fun t f => t.logNoPath f.dst) s
  { s1 with kept := s1.kept.filter fun f => s.hasPath f.dst, lantern := lost ++ s1.lantern }

/-- Routed traffic for module `dst` (R300): a frame under the Lantern's next number. -/
def State.routed (s : State) (dst : BitVec 8) (b : FrameBody) : State :=
  { s with fresh := s.fresh + 1 }.inject { src := s.modNo, dst := dst, num := s.fresh, body := b }

/-- The Lantern sends what it held, in queue order, as far as there is a path (R310, R311); a lost path is logged once. -/
def State.flush (s : State) : State :=
  if s.stalled then s
  else s.lantern.foldl State.inject { s with lantern := [], noPath := s.noPath.filter fun m => !s.hasPath m }

/-- An operation whose home is on another module leaves as routed traffic (R300). -/
def State.forward (s : State) (o : Op) : State :=
  match o.place with
  | .off m => s.routed m (s.opBody o)
  | _ => s.send (.op o)

/-- Send an operation from a unit under its next sequence number, over the mesh to its home or through the Lantern; it stays
unacknowledged until its outcome comes (R255). -/
def State.sendOp (s : State) (kind : OpKind) (h : Word) (p : Place) (u : Nat) (a : Asker) (t : Nat) (b : BitVec 2) (ord : Nat)
    (node : BitVec 32) : State :=
  let q := s.nextSeq u
  let o : Op := { kind := kind, h := h, place := p, unit := u, seq := q.1, asker := a, tracker := t, batch := b,
                  ordinal := BitVec.ofNat 32 ord, node := node }
  let s' := { q.2 with units := Maps.put q.2.units u (Maps.getD q.2.units u [] ++ [o]) }
  s'.forward o

/-- Open a strand's batch and count one operation towards home `h`; answers the ordinal (R265). -/
def State.openBatch (s : State) (r : Nat) (b : BitVec 2) (h : Nat) : Nat × State :=
  match s.strand r with
  | none => (0, s)
  | some st =>
    let t := Maps.getD s.trackers st.tracker Tracker.zero
    let bs := t.get b
    let s1 := { s with trackers := Maps.put s.trackers st.tracker (t.set b (bs.count h)) }
    (bs.next, s1.setStrand r { st with opens := st.opens ||| (1#4 <<< b.toNat) })

/-- `post(op, batch)` of R94. -/
def State.post (s : State) (r : Nat) (kind : OpKind) (h : Word) (p : Place) (b : BitVec 2) : State :=
  match s.strand r with
  | none => s
  | some st =>
    let q := s.openBatch r b (homeOf p)
    q.2.sendOp kind h p (unitCore st.home) .batch st.tracker b q.1 st.node

/-! ### Errors (R370, R371) -/

/-- The R370 word of a unit. -/
def UnitId.word (u : UnitId) (syndrome : BitVec 32) : Word := syndrome ++ 0#9 ++ u.index ++ u.cluster ++ u.die ++ u.unit
/-- Is the unit on a hearth die? -/
def UnitId.onHearth (u : UnitId) : Bool := u.unit == 8#8 || u.unit == 9#8
/-- The cycle counter of the unit's die (R371): for a hearth unit that of hearth die 0 or 1 (R370). -/
def State.cycleOf (s : State) (u : UnitId) : Word :=
  if UnitId.onHearth u then s.hearthClock (u.die.getLsbD 0) else (s.die u.die).cycle
/-- The cluster of a unit. -/
def UnitId.cl (u : UnitId) : BitVec 9 := u.die ++ u.cluster
/-- A number for a unit: an HBM row counts with its place in the stack. -/
def UnitId.key (u : UnitId) : Nat :=
  u.unit.toNat + 256 * (u.die.toNat + 8 * (u.cluster.toNat + 64 * (u.index.toNat + 64 * (if u.unit = 6#8 then u.row.toNat else 0))))
/-- Are two units one? -/
def UnitId.same (u v : UnitId) : Bool := UnitId.key u == UnitId.key v
/-- The unit of a report whose address is `addr`: of an HBM row the address is the row (R371). -/
def UnitId.at_ (u : UnitId) (addr : Word) : UnitId := { u with row := if u.unit = 6#8 then addr.extractLsb' 0 24 else 0 }

/-- The fibre that a unit names: its hearth die and its number there (R13). -/
def UnitId.fibre (u : UnitId) : Nat := 32 * (u.die.toNat % 2) + u.index.toNat % 32

/-- Append an error record (R371): the R370 word, what is affected, what happened, the outcome so far, the counter. -/
def State.logError (s : State) (word addr : Word) (kind outcome : BitVec 8) (cycle : Word) : State :=
  { s with errLog := Maps.put s.errLog (s.errHead.toNat % 1024) (cycle ++ 0#48 ++ outcome ++ kind ++ addr ++ word), errHead := s.errHead + 1 }

/-- An error is entered in the log; a second one of a unit under test fails its test (R379). -/
def State.noteError (s : State) (u : UnitId) (syndrome : BitVec 32) (addr : Word) (kind : BitVec 8) : State :=
  let c := s.cycleOf u
  let s1 := s.logError (UnitId.word u syndrome) addr kind 0 c
  { s1 with tests := s1.tests.map (fun (t : Test) => if UnitId.same t.unit u then { t with second := true } else t)
            errTimes := Maps.put s1.errTimes (UnitId.key u) (Maps.getD s1.errTimes (UnitId.key u) [] ++ [c]) }

/-- The row of HBM that a block stands in, as an error names it (R370). -/
def rowUnit (blk : Nat) : UnitId :=
  let k := BitVec.ofNat 5 (blk / 2 ^ 24)
  { unit := 6, die := k.extractLsb' 2 3, cluster := 0, index := (k.extractLsb' 0 2).zeroExtend 6, row := BitVec.ofNat 24 blk }
/-- The record of an uncorrectable line of a block, the syndrome left open (R371). -/
def State.lineError (s : State) (blk : Nat) (kind : BitVec 8) : State :=
  s.noteError (rowUnit blk) ((Config.free 2 s.tick).extractLsb' 0 32) (BitVec.ofNat 64 (blk % 2 ^ 24)) kind

/-! ### Ending an instance (R319) -/

/-- The instances spawned from `ns`, directly or in turn. -/
def State.spawnTree (s : State) (fuel : Nat) (ns : List (BitVec 32)) : List (BitVec 32) :=
  match fuel with
  | 0 => ns
  | fuel + 1 =>
    let more := (s.instances.filter fun p => ns.contains p.2.parent && !ns.contains (BitVec.ofNat 32 p.1)).map fun p => BitVec.ofNat 32 p.1
    s.spawnTree fuel (ns ++ more)

/-- Is it a watcher stub of one of these node instances of module `frm`, none for this one (R33, R319)? -/
def Stub.watches (x : Stub) (frm : Option (BitVec 8)) (ns : List (BitVec 32)) : Bool :=
  match x with
  | .watcher _ n _ _ m => m == frm && ns.contains n
  | _ => false
/-- A block without those stubs. -/
def Block.unwatch (b : Block) (frm : Option (BitVec 8)) (ns : List (BitVec 32)) : Block :=
  { b with stubs := b.stubs.filter fun x => !x.watches frm ns }
/-- A log entry without those stubs. -/
def LogEntry.unwatch (e : LogEntry) (frm : Option (BitVec 8)) (ns : List (BitVec 32)) : LogEntry :=
  match e with
  | .stubs k g l => .stubs k g (l.filter fun x => !x.watches frm ns)
  | e => e
/-- Does an entry hold anything: a stub entry holds 1 to 16 stubs (R246)? -/
def LogEntry.held (e : LogEntry) : Bool :=
  match e with
  | .stubs _ _ l => !l.isEmpty
  | _ => true
/-- A cluster without those stubs. -/
def Cluster.unwatch (c : Cluster) (frm : Option (BitVec 8)) (ns : List (BitVec 32)) : Cluster :=
  { c with res := Maps.map c.res fun _ x => { x with b := x.b.unwatch frm ns }, pads := Maps.map c.pads fun _ b => b.unwatch frm ns,
           logs := Maps.map c.logs fun _ l =>
             { l with desc := l.desc.unwatch frm ns, entries := (l.entries.map fun e => e.unwatch frm ns).filter LogEntry.held } }

/-- The module that has sent an operation, none for this one. -/
def Op.from_ (o : Op) : Option (BitVec 8) :=
  match o.asker with
  | .remote m _ _ => some m
  | _ => none
/-- Is a message the watcher registration or fire of one of these node instances of module `frm`? -/
def Msg.watches (m : Msg) (frm : Option (BitVec 8)) (ns : List (BitVec 32)) : Bool :=
  match m with
  | .op o => match o.kind with | .watcher _ n => o.from_ == frm && ns.contains n | _ => false
  | .fire _ n => frm.isNone && ns.contains n
  | _ => false

/-- The homes of this module drop the watcher stubs of node instances of module `frm`, and what is on its way to make one or comes from
one (R319, step 1). -/
def State.dropWatchers (s : State) (frm : Option (BitVec 8)) (ns : List (BitVec 32)) : State :=
  { s with clusters := Maps.map s.clusters fun _ c => c.unwatch frm ns, net := Maps.filter s.net fun _ m => !m.watches frm ns }
/-- The other modules that home blocks which these node instances watch are told to drop their stubs (R300, R319). -/
def State.tellHomes (s : State) (ns : List (BitVec 32)) : State :=
  ((s.nodes.filter fun p => ns.contains (BitVec.ofNat 32 p.1)).flatMap fun p => p.2.away).eraseDups.foldl
    (fun t m => t.routed m (.drop ns)) s

/-- Free the reservations of node instances (R319, step 3; R356, step 1). -/
def State.freeReservations (s : State) (ns : List (BitVec 32)) : State :=
  { s with anvils := Maps.map s.anvils fun _ a =>
      { a with tiles := a.tiles.map fun u => match u with | .reserved n => if ns.contains n then .free else u | u => u } }

/-- The run or spawn whose watchers all stand is answered: REPLY OK (R48), or SPAWN's gD (R280). -/
def State.started (s : State) (x : Starting) : State :=
  match x.strand with
  | none => { s with starting := none }.reply x.session x.seq 0 (leBytes 4 x.inst.toNat)
  | some r =>
    let s1 := { s with starting := none }.updStrand r fun st =>
      match st.wait with
      | .keep (.spawn f rd _ _) => { (st.setReg rd (x.inst.zeroExtend 64)).next f.len with wait := .run }
      | _ => st
    match s1.strand r with
    | none => s1
    | some st => if st.inSlot then s1 else s1.toDispatcher r st.clusterOf

/-- Has the strand a command that was dispatched and has not completed (R322)? -/
def Strand.commanded (st : Strand) : Bool :=
  match st.wait with
  | .command _ true _ _ => true
  | _ => false
/-- A strand of an ended instance is discarded; one whose command is dispatched stands until that completes (R319, R322). -/
def State.discardStrand (s : State) (r : Nat) : State :=
  match s.strand r with
  | none => s
  | some st => if st.commanded then s.setStrand r { st with ended := true } else s.dropStrand r

/-- The cluster that takes the records of cluster `c`: itself, or the first of its die that stands when it is out of service (R375). -/
def State.standIn (s : State) (c : BitVec 9) : BitVec 9 :=
  if s.inService c then c else (((List.range 64).map fun i => clusterDie c ++ BitVec.ofNat 6 i).find? s.inService).getD c

/-- A running strand leaves its core for a dispatcher (R372, R375). -/
def State.leaveCore (s : State) (r : Nat) : State :=
  match s.strand r with
  | none => s
  | some st =>
    let c := s.standIn st.clusterOf
    (((s.freeTiles r).unlist r).setStrand r
      { st with loc := .store c, core := if c = st.clusterOf then st.home else clusterCore c 0, bound := false }).toDispatcher r c

/-- Must a strand leave the core that it stands on: that or its cluster is fenced or out of service, or the Anvil of its tiles is fenced
(R372, R375)? -/
def State.mustLeave (s : State) (st : Strand) : Bool :=
  st.inSlot && st.wait == .run
    && (s.fenced st.home || !s.inService (coreCluster st.home) || (decide (0 < st.tcnt) && s.fencedAnvil (coreAnvil st.home)))


/-- Remove the instances `ns` with everything they own: nodes, watchers, strands, reservations, trackers (R319). -/
def State.removeInstances (s : State) (ns : List (BitVec 32)) : State :=
  let nodes := (s.nodes.filter fun p => ns.contains p.2.inst).map fun p => BitVec.ofNat 32 p.1
  let recs := (s.strands.filter fun p => nodes.contains p.2.node).map fun p => p.1
  let s0 := (s.dropWatchers none nodes).tellHomes nodes
  let s1 := { s0 with dies := s0.dies.map (fun (d : Die) => { d with ready := d.ready.map (fun (q : List (BitVec 32)) => q.filter fun n => !nodes.contains n) }),
                      units := Maps.map s0.units (fun _ (l : List Op) => l.filter fun o => !(Msg.op o).watches none nodes) }
  let s2 := recs.foldl (fun t r => t.discardStrand r) s1
  let s3 := { s2 with nodes := Maps.filter s2.nodes fun _ n => !ns.contains n.inst }
  let s4 := s3.freeReservations nodes
  let s5 := match s4.starting with
    | none => s4
    | some x => if ns.contains x.inst then s4.started x else s4
  { s5 with instances := Maps.filter s5.instances fun k _ => !ns.contains (BitVec.ofNat 32 k)
            quench := match s5.quench with
              | none => none
              | some q =>
                let v := q.victims.filter fun n => !ns.contains n
                if v.isEmpty then none else some { q with victims := v } }

/-- One instance fewer is spawned from `n` (R360). -/
def State.childGone (s : State) (n : BitVec 32) : State :=
  match s.inst n with
  | none => s
  | some i => s.setInst n { i with spawned := i.spawned - 1 }

/-- An instance whose nodes have all retired and whose spawned instances are complete is complete (R360): the number is
freed, and a host-run instance sends COMPLETE. -/
def State.checkComplete (s : State) (fuel : Nat) (n : BitVec 32) : State :=
  match s.inst n with
  | none => s
  | some i =>
    if i.nodes.isEmpty && i.spawned = 0 then
      let s1 := { s with instances := Maps.del s.instances n.toNat
                         quench := match s.quench with
                           | none => none
                           | some q =>
                             let v := q.victims.filter (· != n)
                             if v.isEmpty then none else some { q with victims := v } }
      if i.parent = 0 then s1.sendComplete n i
      else match fuel with
        | 0 => s1.childGone i.parent
        | fuel + 1 => (s1.childGone i.parent).checkComplete fuel i.parent
    else s

/-- The request whose reply is owed is answered once nothing is missing (R43, R227, R323). -/
def State.settleWait (s : State) : State :=
  match s.keepWait with
  | none => s
  | some w => if w.ends.isEmpty && w.told.isEmpty then { s with keepWait := none }.reply w.session w.seq 0 [] else s
/-- The Keep owes a REPLY OK until these instances have ended and these entries stand in the tables of the other modules. -/
def State.oweReply (s : State) (session seq : BitVec 32) (ends : List (BitVec 32)) (told : List (BitVec 8 × BitVec 37)) : State :=
  { s with keepWait := some { session := session, seq := seq, ends := ends, told := told } }.settleWait

/-- The strands of the instances `ns`, and of those spawned from them that end already, whose last commands have not completed. -/
def State.lastCommands (s : State) (ns : List (BitVec 32)) : List Nat :=
  ((s.strands.filter fun p => p.2.commanded && (s.node p.2.node).any fun nd => ns.contains nd.inst).map Prod.fst)
    ++ (s.ending.filter fun e => ns.contains e.inst.parent).flatMap Ending.recs

/-- Step 5 of R319: FAULT; a spawned instance is one fewer of its parent's (R280, R360), and a QUENCH waits for it no longer (R323). -/
def State.ended (s : State) (e : Ending) : State :=
  let s1 := s.sendFault e.number e.inst e.info
  let s2 := if e.inst.parent = 0 then s1 else (s1.childGone e.inst.parent).checkComplete s1.instances.length e.inst.parent
  let s3 := { s2 with keepWait := s2.keepWait.map fun (w : KeepWait) => { w with ends := w.ends.filter (· != e.number) } }
  s3.settleWait
/-- The instances whose last commands have completed have ended. -/
def State.settleEnds (s : State) : State :=
  let gone : Ending → Bool := fun e => e.recs.all fun r => (s.strand r).isNone
  (s.ending.filter gone).foldl (fun t e => t.ended e) { s with ending := s.ending.filter fun e => !gone e }

/-- The Keep ends instance `n` and the instances spawned from it, and sends FAULT for it, once the commands of theirs that were dispatched
have completed and their strands are gone (R319, R280, R322). -/
def State.endInstance (s : State) (n : BitVec 32) (f : FaultInfo) : State :=
  match s.inst n with
  | none => s
  | some i =>
    let ns := s.spawnTree s.instances.length [n]
    let e : Ending := { number := n, inst := i, info := f, recs := s.lastCommands ns }
    let s1 := s.removeInstances ns
    if e.recs.isEmpty then s1.ended e else { s1 with ending := s1.ending ++ [e] }

/-- A divider or an Anvil is done with a strand: one whose instance has ended goes (R319), one whose core is being emptied leaves it
(R372). -/
def State.unitDone (s : State) (r : Nat) : State :=
  match s.strand r with
  | none => s
  | some st => if st.ended then (s.dropStrand r).settleEnds else if s.mustLeave st then s.leaveCore r else s

/-- End the instance of a strand, reporting that strand (R317, R319); a strand of the Keep belongs to none and only goes. -/
def State.endOwner (s : State) (r : Nat) (cause : BitVec 8) (v : Word) : State :=
  match s.strand r with
  | none => s
  | some st =>
    match s.node st.node with
    | none => s.dropStrand r
    | some n => s.endInstance n.inst { idx := BitVec.ofNat 16 n.idx, node := st.node, cause := cause, tpc := st.pc, tval := v }

/-! ### Traps (R92, R316 to R319) -/

/-- TRAPBASE of the strand's image: of its core while it is in a slot, else from the image (R23, R25). -/
def State.trapbaseOf (s : State) (st : Strand) : BitVec 32 :=
  match st.loc with
  | .slot k _ => (s.core k).trapbase
  | _ => BitVec.ofNat 32 (recField (Maps.getD s.images st.image.toNat []) 0x18 4)

/-- Taking a trap, `raise` of R92 with R316: the trap state is written, ACTIVE set, and the pc goes to the vector. While
ACTIVE is set the trap is not entered and the Keep ends the instance (R317). -/
def State.raise (s : State) (r : Nat) (cause : BitVec 5) (v : Word) : State :=
  match s.strand r with
  | none => s
  | some st =>
    if st.tcause.getLsbD 7 then s.endOwner r (0x80#8 ||| cause.zeroExtend 8) v
    else s.setStrand r
      { st with tpc := st.pc, tcause := 0x80#8 ||| cause.zeroExtend 8, tval := v,
                pc := s.trapbaseOf st + 16#32 * cause.zeroExtend 32, wait := .run }

/-- Returning from a handler to `t` (R318). -/
def State.leaveHandler (s : State) (r : Nat) (st : Strand) (t : BitVec 32) : State :=
  s.setStrand r { st with tcause := st.tcause &&& 0x7F#8, pc := t }

/-- XLATE: the record goes to its die's fault queue, and the slot is released unless anchored (R20, R61, R229). -/
def State.toFaultQueue (s : State) (r : Nat) (v : Word) (need : Need) : State :=
  match s.strand r with
  | none => s
  | some st =>
    let d := clusterDie st.clusterOf
    let s1 := (s.setStrand r { st with wait := .fault v need }).vacate r
    let s2 := s1.updStrand r fun st => if st.inSlot then st else { st with loc := .faultq d }
    let s3 := s2.setDie d { s2.die d with faultq := (s2.die d).faultq ++ [r] }
    s3.tellKeep 1#8 r

/-- The strand leaves for the dispatcher of cluster `c`: slot and window words are freed (R231). -/
def State.migrate (s : State) (r : Nat) (c : BitVec 9) : State :=
  match s.strand r with
  | none => s
  | some st => (s.unlist r).setStrand r { st with loc := .migrating (s.standIn c) st.home, wait := .run, bound := false, core := st.home }

/-- An instruction that does not issue: its turn passes unused and it retries at the next (R156, R232, R255, R276). -/
def State.retry (s : State) (r : Nat) : State :=
  match s.strand r with
  | none => s
  | some st =>
    let k := st.home
    let c := s.core k
    s.setCore k { c with perf0 := c.perf0 - 1, perf1 := c.perf1 + 1 }

/-- Does the core of a strand start no migration, since a record waits in its outbound buffer (R58)? -/
def State.migrationBlocked (s : State) (st : Strand) : Bool := !(s.core st.home).outbuf.isEmpty

/-- Translate a strand's block access at issue (R229, R231): go on at the place, wait for a walk, report XLATE, migrate, or
raise ANCHOR. -/
def State.access (s : State) (r : Nat) (st : Strand) (h : Word) (perm : BitVec 4) (go : Place → State) : State :=
  match s.xlate (coreCluster st.home) true h perm with
  | .ok p => go p
  | .miss => s.setStrand r { st with wait := .walk h perm }
  | .fault => s.toFaultQueue r h (.perm perm)
  | .migrate c => if st.anch then s.raise r 10#5 h else if s.migrationBlocked st then s.retry r else s.migrate r c

/-- Send a synchronous operation: the strand is out of rotation until the reply (R103). -/
def State.request (s : State) (r : Nat) (st : Strand) (kind : OpKind) (h : Word) (p : Place) (i : Instr) (upd : Word) : State :=
  let s1 := s.setStrand r { st with wait := .reply i h upd }
  s1.sendOp kind h p (unitCore st.home) (.strand r) 0 0#2 0 st.node

/-! ### Issuing an instruction of a strand (R83, R84) -/

/-- The strand that issues. -/
def State.issuing (s : State) : Option (Nat × Strand) :=
  match s.cur with
  | none => none
  | some r =>
    match s.strand r with
    | none => none
    | some st => some (r, st)

/-- Issue an instruction: with a false guard only the pc advances by its length, otherwise its effect (R83, R84). -/
def State.issue (s : State) (g : Option Guard) (len : Nat) (eff : Nat → Strand → State) : Host.Outcome State Fault Refusal :=
  match s.issuing with
  | none => .fault .noStrand
  | some (r, st) => if st.guardOk g then .next (eff r st) else .next (s.setStrand r (st.next len))

/-- An instruction whose whole effect is on its own strand: the new record. -/
def State.issueOwn (s : State) (g : Option Guard) (len : Nat) (eff : Strand → Strand) : Host.Outcome State Fault Refusal :=
  s.issue g len fun r st => s.setStrand r ((eff st).next len)

end Sys2Proof.Machine
end

