-- ==== Sys2Proof/Machine/Operands.lean ====
section
/-!
DEFINITION. Operand forms: instruction lengths (R72), window indices (R90, R108), the block operand (R91), the rounding mode
(R76, R142) and immediates.
-/
namespace Sys2Proof.Machine

/-- A 12-bit immediate, sign-extended. -/
def imm64 (k : BitVec 12) : Word := k.signExtend 64

/-- The rounding mode of an instruction: RM 4 to 7 name one, 0 takes RMODE (R76, R142). -/
def Strand.mode (st : Strand) (rm : BitVec 3) : BitVec 2 := if rm = 0 then st.rmode else rm.extractLsb' 0 2

/-- `widx` of R90: the index of a window field, a 64-bit two's-complement value. -/
def Strand.widx (st : Strand) (f : WForm) (w : BitVec 6) (rel : Bool) : Word :=
  if rel then st.g f.idx + w.zeroExtend 64 else w.zeroExtend 64

/-- The first index out of range among the window operands, in the order of R90. -/
def Strand.badIndex (st : Strand) (l : List Word) : Option Word :=
  match l with
  | [] => none
  | i :: r => if i.toNat < st.words then st.badIndex r else some i

/-- An instruction on window operands: WBOUND comes before any other step (R108). -/
def State.issueW (s : State) (f : WForm) (ixs : Strand → List Word) (eff : Nat → Strand → State) : Host.Outcome State Fault Refusal :=
  s.issue f.gd f.len fun r st =>
    match st.badIndex (ixs st) with
    | some i => s.raise r 5#5 i
    | none => eff r st

/-- A block operand (R91): the handle and the pointer's new value, or none when the handle is not aligned. -/
structure Ea where
  h : Word
  upd : Word
  deriving DecidableEq, Repr

/-- `ea(size)` of R91 without its ALIGN check. -/
def Strand.ea (st : Strand) (o : XOp) (size : Nat) : Ea :=
  let pn := st.reg o.ra
  match o.am.toNat with
  | 0 => { h := padd49 pn (imm64 o.imm12), upd := pn }
  | 1 => { h := padd49 pn (st.reg o.re), upd := pn }
  | _ => { h := pn, upd := padd49 pn (BitVec.ofNat 64 size) }

/-- Is a handle's offset a multiple of the size? -/
def aligned (h : Word) (size : Nat) : Bool := (Handle.off h).toNat % size == 0

/-- Bytes of a size field: b, h, w, d. -/
def sizeOf2 (sz : BitVec 2) : Nat := 2 ^ sz.toNat

end Sys2Proof.Machine
end

