-- ==== Sys2Proof/Machine/Scalar.lean ====
section
/-!
DEFINITION. The scalar instructions: integer, compare and bit operations, pointers, control flow (R110 to R121).
-/
namespace Sys2Proof.Machine

/-! ### Shapes -/

/-- `OP rD, rA, rB` (R110): both operands are read before rd is written. -/
def State.rrr (s : State) (f : Form) (rd ra rb : BitVec 4) (op : Word → Word → Word) : Host.Outcome State Fault Refusal :=
  s.issueOwn f.gd f.len fun st => st.setReg rd (op (st.reg ra) (st.reg rb))

/-- `OP rD, rA` with a fixed second operand (R111 to R113). -/
def State.rri (s : State) (f : Form) (rd ra : BitVec 4) (op : Word → Word) : Host.Outcome State Fault Refusal :=
  s.issueOwn f.gd f.len fun st => st.setReg rd (op (st.reg ra))

/-- The same with a literal (R73, R112). -/
def State.rrl (s : State) (f : Form) (rd ra : BitVec 4) (op : Word → Word) : Host.Outcome State Fault Refusal :=
  s.issueOwn f.gd f.litLen fun st => st.setReg rd (op (st.reg ra))

/-- The strand leaves the rotation for its core's divider (R103, R104). -/
def State.toDivider (s : State) (r : Nat) (st : Strand) (i : Instr) : State :=
  let c := s.core st.home
  (s.setCore st.home { c with divq := c.divq ++ [r] }).setStrand r { st with wait := .divider i }

/-- An integer divide (R110): DIVZ with the dividend, or the divider. -/
def State.divide (s : State) (f : Form) (ra rb : BitVec 4) (i : Instr) : Host.Outcome State Fault Refusal :=
  s.issue f.gd f.len fun r st => if st.reg rb = 0 then s.raise r 4#5 (st.reg ra) else s.toDivider r st i

/-- One bit of a register set to a condition, the others kept (R107, R116). -/
def Strand.setBit (st : Strand) (rd : BitVec 4) (bit : Nat) (c : Bool) : Strand :=
  let m : Word := 1#64 <<< bit
  st.setReg rd (if c then st.reg rd ||| m else st.reg rd &&& ~~~m)

/-- A compare (R116, R117). -/
def State.compare (s : State) (f : Form) (len : Nat) (rd ra : BitVec 4) (bit : BitVec 6) (b : Strand → Word)
    (c : Word → Word → Bool) : Host.Outcome State Fault Refusal :=
  s.issueOwn f.gd len fun st => st.setBit rd bit.toNat (c (st.reg ra) (b st))

/-- The high half of a product (R110). -/
def mulHigh (a b : BitVec 128) : Word := (a * b).extractLsb' 64 64
/-- Leading zero bits (R111). -/
def clz64 (a : Word) : Word := if a = 0 then 64#64 else BitVec.ofNat 64 (63 - Nat.log2 a.toNat)
/-- Set bits among bit 0 to bit `n - 1`. -/
def popcount (a : Nat) (n : Nat) : Nat :=
  match n with
  | 0 => 0
  | n + 1 => (a.testBit n).toNat + popcount a n
/-- Trailing zero bits (R111): the ones of `(a - 1) & ~a`. -/
def ctz64 (a : Word) : Word := BitVec.ofNat 64 (popcount ((a - 1) &&& ~~~a).toNat 64)
/-- The bits in reverse order (R111). -/
def bitrev64 (a : Word) : Word := BitVec.ofFnLE fun i : Fin 64 => a.getLsbD (63 - i.val)
/-- Sign extension of the low `w` bits (R111, R115). -/
def sextLow (a : Word) (w : Nat) : Word := (a <<< (64 - w)).sshiftRight (64 - w)
/-- Zero extension of the low `w` bits. -/
def zextLow (a : Word) (w : Nat) : Word := (a <<< (64 - w)) >>> (64 - w)
/-- Bits `[pos, pos + len)` of `d` replaced by the low bits of `a` (R115). -/
def bitInsert (d a : Word) (pos len : Nat) : Word :=
  let m := (BitVec.allOnes 64 >>> (64 - len)) <<< pos
  (d &&& ~~~m) ||| ((a <<< pos) &&& m)
/-- Field `sel` of a handle (R119). -/
def handleField (h : Word) (sel : BitVec 4) : Word :=
  match sel.toNat with
  | 0 => (Handle.gen h).zeroExtend 64
  | 1 => (Handle.space h).zeroExtend 64
  | 2 => (Handle.vbn h).zeroExtend 64
  | 3 => (Handle.off h).zeroExtend 64
  | 4 => (h.extractLsb' 30 8).zeroExtend 64
  | 5 => (h.extractLsb' 27 3).zeroExtend 64
  | 6 => (h.extractLsb' 21 6).zeroExtend 64
  | _ => (h.extractLsb' 12 9).zeroExtend 64
/-- The generation of a handle replaced. -/
def setGen (h : Word) (g : BitVec 12) : Word := g ++ h.extractLsb' 0 52

/-! ### Integer arithmetic and logic (R110) -/

/-- ADD (R110). -/
def execAdd (f : Form) (rd ra rb : BitVec 4) (s : State) : Host.Outcome State Fault Refusal :=
  s.rrr f rd ra rb fun a b => a + b
/-- SUB (R110). -/
def execSub (f : Form) (rd ra rb : BitVec 4) (s : State) : Host.Outcome State Fault Refusal :=
  s.rrr f rd ra rb fun a b => a - b
/-- MUL (R110). -/
def execMul (f : Form) (rd ra rb : BitVec 4) (s : State) : Host.Outcome State Fault Refusal :=
  s.rrr f rd ra rb fun a b => a * b
/-- MULH (R110). -/
def execMulh (f : Form) (rd ra rb : BitVec 4) (s : State) : Host.Outcome State Fault Refusal :=
  s.rrr f rd ra rb fun a b => mulHigh (a.signExtend 128) (b.signExtend 128)
/-- MULHU (R110). -/
def execMulhu (f : Form) (rd ra rb : BitVec 4) (s : State) : Host.Outcome State Fault Refusal :=
  s.rrr f rd ra rb fun a b => mulHigh (a.zeroExtend 128) (b.zeroExtend 128)
/-- DIV (R110): the divider's result is written by DIVIDER_RESULT. -/
def execDiv (f : Form) (rd ra rb : BitVec 4) (s : State) : Host.Outcome State Fault Refusal :=
  s.divide f ra rb (.div f rd ra rb)
/-- DIVU (R110): the divider's result is written by DIVIDER_RESULT. -/
def execDivu (f : Form) (rd ra rb : BitVec 4) (s : State) : Host.Outcome State Fault Refusal :=
  s.divide f ra rb (.divu f rd ra rb)
/-- REM (R110): the divider's result is written by DIVIDER_RESULT. -/
def execRem (f : Form) (rd ra rb : BitVec 4) (s : State) : Host.Outcome State Fault Refusal :=
  s.divide f ra rb (.rem f rd ra rb)
/-- REMU (R110): the divider's result is written by DIVIDER_RESULT. -/
def execRemu (f : Form) (rd ra rb : BitVec 4) (s : State) : Host.Outcome State Fault Refusal :=
  s.divide f ra rb (.remu f rd ra rb)
/-- AND (R110). -/
def execAnd (f : Form) (rd ra rb : BitVec 4) (s : State) : Host.Outcome State Fault Refusal :=
  s.rrr f rd ra rb fun a b => a &&& b
/-- OR (R110). -/
def execOr (f : Form) (rd ra rb : BitVec 4) (s : State) : Host.Outcome State Fault Refusal :=
  s.rrr f rd ra rb fun a b => a ||| b
/-- XOR (R110). -/
def execXor (f : Form) (rd ra rb : BitVec 4) (s : State) : Host.Outcome State Fault Refusal :=
  s.rrr f rd ra rb fun a b => a ^^^ b
/-- ANDN (R110). -/
def execAndn (f : Form) (rd ra rb : BitVec 4) (s : State) : Host.Outcome State Fault Refusal :=
  s.rrr f rd ra rb fun a b => a &&& ~~~b
/-- SHL (R110). -/
def execShl (f : Form) (rd ra rb : BitVec 4) (s : State) : Host.Outcome State Fault Refusal :=
  s.rrr f rd ra rb fun a b => a <<< (b.toNat % 64)
/-- SHR (R110). -/
def execShr (f : Form) (rd ra rb : BitVec 4) (s : State) : Host.Outcome State Fault Refusal :=
  s.rrr f rd ra rb fun a b => a >>> (b.toNat % 64)
/-- SRA (R110). -/
def execSra (f : Form) (rd ra rb : BitVec 4) (s : State) : Host.Outcome State Fault Refusal :=
  s.rrr f rd ra rb fun a b => a.sshiftRight (b.toNat % 64)
/-- ROR (R110). -/
def execRor (f : Form) (rd ra rb : BitVec 4) (s : State) : Host.Outcome State Fault Refusal :=
  s.rrr f rd ra rb fun a b => a.rotateRight (b.toNat % 64)
/-- MIN (R110). -/
def execMin (f : Form) (rd ra rb : BitVec 4) (s : State) : Host.Outcome State Fault Refusal :=
  s.rrr f rd ra rb fun a b => if b.slt a then b else a
/-- MAX (R110). -/
def execMax (f : Form) (rd ra rb : BitVec 4) (s : State) : Host.Outcome State Fault Refusal :=
  s.rrr f rd ra rb fun a b => if a.slt b then b else a
/-- MINU (R110). -/
def execMinu (f : Form) (rd ra rb : BitVec 4) (s : State) : Host.Outcome State Fault Refusal :=
  s.rrr f rd ra rb fun a b => if b.ult a then b else a
/-- MAXU (R110). -/
def execMaxu (f : Form) (rd ra rb : BitVec 4) (s : State) : Host.Outcome State Fault Refusal :=
  s.rrr f rd ra rb fun a b => if a.ult b then b else a

/-! ### Unary members (R111) -/

/-- CLZ (R111). -/
def execClz (f : Form) (rd ra : BitVec 4) (s : State) : Host.Outcome State Fault Refusal :=
  s.rri f rd ra fun a => clz64 a
/-- CTZ (R111). -/
def execCtz (f : Form) (rd ra : BitVec 4) (s : State) : Host.Outcome State Fault Refusal :=
  s.rri f rd ra fun a => ctz64 a
/-- POPC (R111). -/
def execPopc (f : Form) (rd ra : BitVec 4) (s : State) : Host.Outcome State Fault Refusal :=
  s.rri f rd ra fun a => BitVec.ofNat 64 (popcount a.toNat 64)
/-- BREV (R111). -/
def execBrev (f : Form) (rd ra : BitVec 4) (s : State) : Host.Outcome State Fault Refusal :=
  s.rri f rd ra fun a => bitrev64 a
/-- ABS (R111). -/
def execAbs (f : Form) (rd ra : BitVec 4) (s : State) : Host.Outcome State Fault Refusal :=
  s.rri f rd ra fun a => if a.msb then -a else a
/-- MOV (R111). -/
def execMov (f : Form) (rd ra : BitVec 4) (s : State) : Host.Outcome State Fault Refusal :=
  s.rri f rd ra fun a => a
/-- SEXT (R111): `w1` is the width less one. -/
def execSext (f : Form) (rd ra : BitVec 4) (w1 : BitVec 6) (s : State) : Host.Outcome State Fault Refusal :=
  s.rri f rd ra fun a => sextLow a (w1.toNat + 1)
/-- ZEXT (R111): `w1` is the width less one. -/
def execZext (f : Form) (rd ra : BitVec 4) (w1 : BitVec 6) (s : State) : Host.Outcome State Fault Refusal :=
  s.rri f rd ra fun a => zextLow a (w1.toNat + 1)

/-! ### Immediates and constants (R112 to R114) -/

/-- ADDI (R112). -/
def execAddi (f : Form) (rd ra : BitVec 4) (imm : BitVec 12) (s : State) : Host.Outcome State Fault Refusal :=
  s.rri f rd ra fun a => a + imm64 imm
/-- ADDI with a literal (R112). -/
def execAddiLiteral (f : Form) (rd ra : BitVec 4) (lit : Word) (s : State) : Host.Outcome State Fault Refusal :=
  s.rrl f rd ra fun a => a + lit
/-- ANDI (R112). -/
def execAndi (f : Form) (rd ra : BitVec 4) (imm : BitVec 12) (s : State) : Host.Outcome State Fault Refusal :=
  s.rri f rd ra fun a => a &&& imm64 imm
/-- ANDI with a literal (R112). -/
def execAndiLiteral (f : Form) (rd ra : BitVec 4) (lit : Word) (s : State) : Host.Outcome State Fault Refusal :=
  s.rrl f rd ra fun a => a &&& lit
/-- ORI (R112). -/
def execOri (f : Form) (rd ra : BitVec 4) (imm : BitVec 12) (s : State) : Host.Outcome State Fault Refusal :=
  s.rri f rd ra fun a => a ||| imm64 imm
/-- ORI with a literal (R112). -/
def execOriLiteral (f : Form) (rd ra : BitVec 4) (lit : Word) (s : State) : Host.Outcome State Fault Refusal :=
  s.rrl f rd ra fun a => a ||| lit
/-- XORI (R112). -/
def execXori (f : Form) (rd ra : BitVec 4) (imm : BitVec 12) (s : State) : Host.Outcome State Fault Refusal :=
  s.rri f rd ra fun a => a ^^^ imm64 imm
/-- XORI with a literal (R112). -/
def execXoriLiteral (f : Form) (rd ra : BitVec 4) (lit : Word) (s : State) : Host.Outcome State Fault Refusal :=
  s.rrl f rd ra fun a => a ^^^ lit
/-- SHLI (R113). -/
def execShli (f : Form) (rd ra : BitVec 4) (n : BitVec 6) (s : State) : Host.Outcome State Fault Refusal :=
  s.rri f rd ra fun a => a <<< n.toNat
/-- SHRI (R113). -/
def execShri (f : Form) (rd ra : BitVec 4) (n : BitVec 6) (s : State) : Host.Outcome State Fault Refusal :=
  s.rri f rd ra fun a => a >>> n.toNat
/-- SRAI (R113). -/
def execSrai (f : Form) (rd ra : BitVec 4) (n : BitVec 6) (s : State) : Host.Outcome State Fault Refusal :=
  s.rri f rd ra fun a => a.sshiftRight n.toNat
/-- RORI (R113). -/
def execRori (f : Form) (rd ra : BitVec 4) (n : BitVec 6) (s : State) : Host.Outcome State Fault Refusal :=
  s.rri f rd ra fun a => a.rotateRight n.toNat
/-- MOVI (R114). -/
def execMovi (f : Form) (rd : BitVec 4) (imm : BitVec 20) (s : State) : Host.Outcome State Fault Refusal :=
  s.issueOwn f.gd f.len fun st => st.setReg rd (imm.signExtend 64)
/-- MOVHI (R114): bits 43:0 stay. -/
def execMovhi (f : Form) (rd : BitVec 4) (imm : BitVec 20) (s : State) : Host.Outcome State Fault Refusal :=
  s.rri f rd rd fun a => imm ++ a.extractLsb' 0 44
/-- LDK (R114). -/
def execLdk (f : Form) (rd : BitVec 4) (lit : Word) (s : State) : Host.Outcome State Fault Refusal :=
  s.issueOwn f.gd f.litLen fun st => st.setReg rd lit

/-! ### Bit fields, compares, bit operations (R115 to R118) -/

/-- BFX (R115). -/
def execBfx (f : Form) (rd ra : BitVec 4) (pos len1 : BitVec 6) (s : State) : Host.Outcome State Fault Refusal :=
  s.rri f rd ra fun a => sextLow (a >>> pos.toNat) (len1.toNat + 1)
/-- BFXU (R115). -/
def execBfxu (f : Form) (rd ra : BitVec 4) (pos len1 : BitVec 6) (s : State) : Host.Outcome State Fault Refusal :=
  s.rri f rd ra fun a => zextLow (a >>> pos.toNat) (len1.toNat + 1)
/-- BFI (R115). -/
def execBfi (f : Form) (rd ra : BitVec 4) (pos len1 : BitVec 6) (s : State) : Host.Outcome State Fault Refusal :=
  s.rrr f rd ra rd fun a d => bitInsert d a pos.toNat (len1.toNat + 1)
/-- CEQ (R116). -/
def execCeq (f : Form) (rd ra rb : BitVec 4) (bit : BitVec 6) (s : State) : Host.Outcome State Fault Refusal :=
  s.compare f f.len rd ra bit (fun st => st.reg rb) fun a b => a == b
/-- CNE (R116). -/
def execCne (f : Form) (rd ra rb : BitVec 4) (bit : BitVec 6) (s : State) : Host.Outcome State Fault Refusal :=
  s.compare f f.len rd ra bit (fun st => st.reg rb) fun a b => a != b
/-- CLT (R116). -/
def execClt (f : Form) (rd ra rb : BitVec 4) (bit : BitVec 6) (s : State) : Host.Outcome State Fault Refusal :=
  s.compare f f.len rd ra bit (fun st => st.reg rb) fun a b => a.slt b
/-- CLTU (R116). -/
def execCltu (f : Form) (rd ra rb : BitVec 4) (bit : BitVec 6) (s : State) : Host.Outcome State Fault Refusal :=
  s.compare f f.len rd ra bit (fun st => st.reg rb) fun a b => a.ult b
/-- CLE (R116). -/
def execCle (f : Form) (rd ra rb : BitVec 4) (bit : BitVec 6) (s : State) : Host.Outcome State Fault Refusal :=
  s.compare f f.len rd ra bit (fun st => st.reg rb) fun a b => a.sle b
/-- CLEU (R116). -/
def execCleu (f : Form) (rd ra rb : BitVec 4) (bit : BitVec 6) (s : State) : Host.Outcome State Fault Refusal :=
  s.compare f f.len rd ra bit (fun st => st.reg rb) fun a b => a.ule b
/-- CEQI (R117). -/
def execCeqi (f : Form) (rd ra : BitVec 4) (imm : BitVec 8) (bit : BitVec 6) (s : State) : Host.Outcome State Fault Refusal :=
  s.compare f f.len rd ra bit (fun _ => imm.signExtend 64) fun a b => a == b
/-- CEQI with a literal (R117). -/
def execCeqiLiteral (f : Form) (rd ra : BitVec 4) (bit : BitVec 6) (lit : Word) (s : State) : Host.Outcome State Fault Refusal :=
  s.compare f f.litLen rd ra bit (fun _ => lit) fun a b => a == b
/-- CLTI (R117). -/
def execClti (f : Form) (rd ra : BitVec 4) (imm : BitVec 8) (bit : BitVec 6) (s : State) : Host.Outcome State Fault Refusal :=
  s.compare f f.len rd ra bit (fun _ => imm.signExtend 64) fun a b => a.slt b
/-- CLTI with a literal (R117). -/
def execCltiLiteral (f : Form) (rd ra : BitVec 4) (bit : BitVec 6) (lit : Word) (s : State) : Host.Outcome State Fault Refusal :=
  s.compare f f.litLen rd ra bit (fun _ => lit) fun a b => a.slt b
/-- BSET (R118). -/
def execBset (f : Form) (rd ra : BitVec 4) (bit : BitVec 6) (s : State) : Host.Outcome State Fault Refusal :=
  s.rri f rd ra fun a => a ||| (1#64 <<< bit.toNat)
/-- BCLR (R118). -/
def execBclr (f : Form) (rd ra : BitVec 4) (bit : BitVec 6) (s : State) : Host.Outcome State Fault Refusal :=
  s.rri f rd ra fun a => a &&& ~~~(1#64 <<< bit.toNat)
/-- BINV (R118). -/
def execBinv (f : Form) (rd ra : BitVec 4) (bit : BitVec 6) (s : State) : Host.Outcome State Fault Refusal :=
  s.rri f rd ra fun a => a ^^^ (1#64 <<< bit.toNat)
/-- BMOV (R118). -/
def execBmov (f : Form) (rd ra rb : BitVec 4) (bit : BitVec 6) (s : State) : Host.Outcome State Fault Refusal :=
  s.compare f f.len rd ra bit (fun st => st.reg rb) fun a b => a.getLsbD (b.toNat % 64)
/-- SEL (R118): the predicate stands in the destination. -/
def execSel (f : Form) (rd ra rb : BitVec 4) (bit : BitVec 6) (s : State) : Host.Outcome State Fault Refusal :=
  s.issueOwn f.gd f.len fun st => st.setReg rd (if (st.reg rd).getLsbD bit.toNat then st.reg ra else st.reg rb)

/-! ### Pointers (R119, R120) -/

/-- PMK (R119). -/
def execPmk (f : Form) (rd ra rb : BitVec 4) (s : State) : Host.Outcome State Fault Refusal :=
  s.rrr f rd ra rb fun a b => a.extractLsb' 0 12 ++ b.extractLsb' 0 52
/-- PADD (R119). -/
def execPadd (f : Form) (rd ra rb : BitVec 4) (s : State) : Host.Outcome State Fault Refusal :=
  s.rrr f rd ra rb fun a b => padd49 a b
/-- PIDX (R119). -/
def execPidx (f : Form) (rd ra rb : BitVec 4) (s : State) : Host.Outcome State Fault Refusal :=
  s.rrr f rd ra rb fun a b => padd49 a (b * 4096#64)
/-- PSUB (R119). -/
def execPsub (f : Form) (rd ra rb : BitVec 4) (s : State) : Host.Outcome State Fault Refusal :=
  s.rrr f rd ra rb fun a b => (a.extractLsb' 0 49 - b.extractLsb' 0 49).signExtend 64
/-- PGEN (R119). -/
def execPgen (f : Form) (rd ra rb : BitVec 4) (s : State) : Host.Outcome State Fault Refusal :=
  s.rrr f rd ra rb fun a b => setGen a (b.extractLsb' 0 12)
/-- PINC (R119). -/
def execPinc (f : Form) (rd ra : BitVec 4) (s : State) : Host.Outcome State Fault Refusal :=
  s.rri f rd ra fun a => setGen a (Handle.gen a + 1)
/-- PBLK (R119). -/
def execPblk (f : Form) (rd ra : BitVec 4) (s : State) : Host.Outcome State Fault Refusal :=
  s.rri f rd ra fun a => a &&& ~~~0xFFF#64
/-- PFLD (R119). -/
def execPfld (f : Form) (rd ra sel : BitVec 4) (s : State) : Host.Outcome State Fault Refusal :=
  s.rri f rd ra fun a => handleField a sel
/-- PADDI (R120). -/
def execPaddi (f : Form) (rd ra : BitVec 4) (imm : BitVec 12) (s : State) : Host.Outcome State Fault Refusal :=
  s.rri f rd ra fun a => padd49 a (imm64 imm)

/-! ### Control flow (R121) -/

/-- The pc after a taken branch: displacements count words from the first word. -/
def Strand.jump (st : Strand) (d : BitVec 32) : Strand := { st with pc := st.pc + d * 4#32 }

/-- A conditional branch. -/
def State.branch (s : State) (f : Form) (d : BitVec 32) (c : Strand → Bool) : Host.Outcome State Fault Refusal :=
  s.issue f.gd f.len fun r st => s.setStrand r (if c st then st.jump d else st.next f.len)

/-- A jump to a register: ALIGN when the target is no word address below 2^32; the link is written last (R69, R121). -/
def State.jumpReg (s : State) (f : Form) (ra : BitVec 4) (link : Strand → Word → Strand) : Host.Outcome State Fault Refusal :=
  s.issue f.gd f.len fun r st =>
    let t := st.reg ra
    if t.extractLsb' 0 2 != 0#2 || t.extractLsb' 32 32 != 0#32 then s.raise r 3#5 t
    else s.setStrand r { link st ((st.pc + BitVec.ofNat 32 f.len).zeroExtend 64) with pc := t.extractLsb' 0 32 }

/-- J (R121). -/
def execJ (f : Form) (disp : BitVec 24) (s : State) : Host.Outcome State Fault Refusal :=
  s.issue f.gd f.len fun r st => s.setStrand r (st.jump (disp.signExtend 32))
/-- JAL (R121): g7 takes the link. -/
def execJal (f : Form) (disp : BitVec 24) (s : State) : Host.Outcome State Fault Refusal :=
  s.issue f.gd f.len fun r st =>
    s.setStrand r ((st.setReg 7#4 ((st.pc + BitVec.ofNat 32 f.len).zeroExtend 64)).jump (disp.signExtend 32))
/-- JR (R121). -/
def execJr (f : Form) (ra : BitVec 4) (s : State) : Host.Outcome State Fault Refusal := s.jumpReg f ra fun st _ => st
/-- JALR (R121): the target is read before rd is written. -/
def execJalr (f : Form) (rd ra : BitVec 4) (s : State) : Host.Outcome State Fault Refusal :=
  s.jumpReg f ra fun st l => st.setReg rd l
/-- BBS (R121). -/
def execBbs (f : Form) (ra : BitVec 4) (bit : BitVec 6) (disp : BitVec 14) (s : State) : Host.Outcome State Fault Refusal :=
  s.branch f (disp.signExtend 32) fun st => (st.reg ra).getLsbD bit.toNat
/-- BBC (R121). -/
def execBbc (f : Form) (ra : BitVec 4) (bit : BitVec 6) (disp : BitVec 14) (s : State) : Host.Outcome State Fault Refusal :=
  s.branch f (disp.signExtend 32) fun st => !(st.reg ra).getLsbD bit.toNat
/-- BZ (R121). -/
def execBz (f : Form) (ra : BitVec 4) (disp : BitVec 20) (s : State) : Host.Outcome State Fault Refusal :=
  s.branch f (disp.signExtend 32) fun st => st.reg ra == 0
/-- BNZ (R121). -/
def execBnz (f : Form) (ra : BitVec 4) (disp : BitVec 20) (s : State) : Host.Outcome State Fault Refusal :=
  s.branch f (disp.signExtend 32) fun st => st.reg ra != 0
/-- DBNZ (R121): the register counts down, and the new value decides. -/
def execDbnz (f : Form) (ra : BitVec 4) (disp : BitVec 20) (s : State) : Host.Outcome State Fault Refusal :=
  s.issue f.gd f.len fun r st =>
    let v := st.reg ra - 1
    let st' := st.setReg ra v
    s.setStrand r (if v != 0 then st'.jump (disp.signExtend 32) else st'.next f.len)
/-- NOP (R121). -/
def execNop (f : Form) (s : State) : Host.Outcome State Fault Refusal := s.issueOwn f.gd f.len fun st => st

end Sys2Proof.Machine
end

