-- ==== Sys2Proof/Machine/Presence.lean ====
section
/-!
DEFINITION. What each operation does to one block at its home, as functions on the block alone: writes, seals, arrivals,
arming, clears, quotas, reads, accumulations, poison (R195 to R211, R248, R368).
-/
namespace Sys2Proof.Machine

/-- An entry for the trace ring (R273): the operation, its code, the bitmap bit, the presence word it found. -/
structure TraceNote where
  o : Op
  code : BitVec 4
  bit : BitVec 4
  pw : BitVec 16
  deriving DecidableEq, Repr

/-- What an operation does at its home: the block, the answer (none while a reader parks or a write is queued), the wakes
with their traps, the outcomes of queued writes, trace entries, watchers lost to poison, and what a log has to keep. -/
structure Act where
  b : Block
  reply : Option Reply
  parks : Bool
  queues : Bool
  woken : List (Stub × Option (BitVec 5))
  late : List (Op × BitVec 16 × BitVec 5)
  notes : List TraceNote
  lost : List Stub
  sealed : Bool
  cleared : Bool
  combined : Bool
  deriving DecidableEq, Repr

/-- Nothing happens but the answer. -/
def Act.only (b : Block) (r : Option Reply) : Act :=
  { b := b, reply := r, parks := false, queues := false, woken := [], late := [], notes := [], lost := [], sealed := false,
    cleared := false, combined := false }

/-- Bits of R267. -/
def bDwrite : BitVec 16 := 1#16
def bStale : BitVec 16 := 2#16
def bArmover : BitVec 16 := 4#16
def bPoison : BitVec 16 := 8#16
def bXlate : BitVec 16 := 16#16
def bQuota : BitVec 16 := 32#16
def bAborted : BitVec 16 := 64#16

/-- The trap cause of the lowest bit of a report, as R314 numbers it. -/
def causeOf (bits : BitVec 16) : BitVec 5 :=
  if bits.getLsbD 0 then 14#5
  else if bits.getLsbD 1 then 8#5
  else if bits.getLsbD 2 then 15#5
  else if bits.getLsbD 3 then 17#5
  else if bits.getLsbD 4 then 18#5
  else if bits.getLsbD 5 then 16#5
  else if bits.getLsbD 6 then 12#5
  else 0#5

/-- A report of bits. -/
def postReply (b : BitVec 16) : Reply := .report b (causeOf b)

/-- FULL or DEFERRED-WRITE (R195). -/
def Block.full (b : Block) : Bool := b.st.getLsbD 0
/-- Bytes written in the generation (R196). -/
def Block.written (b : Block) : Nat := 8 * popcount b.mask.toNat 512
/-- The presence word (R195). -/
def Block.pw (b : Block) (l : Bool) : BitVec 16 := b.st ++ b.gen ++ BitVec.ofBool l ++ BitVec.ofBool b.x
/-- The mask bits of bytes `[o, o + n)`. -/
def maskRange (o n : Nat) : BitVec 512 := BitVec.ofNat 512 ((2 ^ (n / 8) - 1) <<< (o / 8))
/-- Every byte whose mask bit is set: bits 0 to `n - 1` of the mask, eight bytes each. -/
def maskBytes (m n : Nat) : Nat :=
  match n with
  | 0 => 0
  | n + 1 => (if m.testBit n then (2 ^ 64 - 1) <<< (64 * n) else 0) ||| maskBytes m n
/-- The payload with every byte zero whose mask bit is clear (R203). -/
def zeroUnwritten (p : Payload) (m : BitVec 512) : Payload := p &&& BitVec.ofNat 32768 (maskBytes m.toNat 512)

/-- Is a stub woken or fired when the block becomes FULL at `g` (R51, R201)? -/
def Stub.fires (x : Stub) (g : BitVec 12) : Bool :=
  match x with
  | .reader _ _ _ => true
  | .watcher _ _ w _ _ => w == g
/-- Is it a reader's? -/
def Stub.isReader (x : Stub) : Bool :=
  match x with
  | .reader _ _ _ => true
  | .watcher _ _ _ _ _ => false

/-- The seal step of R203, with the wakes of R201. -/
def Block.sealStep (b : Block) (x : Bool) : Block × List (Stub × Option (BitVec 5)) :=
  ({ b with st := 1, x := x, qrem := b.qarmed, payload := zeroUnwritten b.payload b.mask, mask := 0, lastWrite := none,
            stubs := b.stubs.filter fun y => !y.fires b.gen },
   (b.stubs.filter fun y => y.fires b.gen).map fun y => (y, none))

/-- Bytes of the generation have been added: seal in byte mode at the armed count, report ARMOVER past it (R202, R248). -/
def Block.afterBytes (b : Block) : Block × List (Stub × Option (BitVec 5)) × Bool × BitVec 16 :=
  if b.mode = 0 && decide (b.acount.toNat ≤ b.written) then
    let q := b.sealStep false
    (q.1, q.2, true, if b.acount.toNat < b.written then bArmover else 0)
  else (b, [], false, 0)

/-- A trace entry for a report of DWRITE, STALE or ARMOVER, with the presence word at arrival (R273). The field OP has no code for ARM,
REL, CLR, DISCARD and reads, which leave none (log entry 67). -/
def noteOf (o : Op) (code : BitVec 4) (pw : BitVec 16) (bits : BitVec 16) : List TraceNote :=
  let pw := o.came.elim pw Came.pw
  if bits.getLsbD 0 then [{ o := o, code := code, bit := 0, pw := pw }]
  else if bits.getLsbD 1 then [{ o := o, code := code, bit := 1, pw := pw }]
  else if bits.getLsbD 2 then [{ o := o, code := code, bit := 2, pw := pw }]
  else []

/-- Does an Ethernet port, of this or another module, send the operation for a host (R46)? -/
def Op.ofPort (o : Op) : Bool := decide (8712 ≤ o.unit % 16384) && decide (o.unit % 16384 < 8720)
/-- The trace code of a write (R273). -/
def Op.writeCode (o : Op) : BitVec 4 := if o.ofPort then 6 else 1

/-- A refusal or a report without effect. -/
def Act.refuse (b : Block) (l : Bool) (o : Op) (code : BitVec 4) (bits : BitVec 16) : Act :=
  { Act.only b (some (postReply bits)) with notes := noteOf o code (b.pw l) bits }

/-- A write (R202) of `n` bytes at `off`. -/
def Block.write (b : Block) (l : Bool) (o : Op) (code : BitVec 4) (off : Nat) (n : Nat) (data : Payload) (q : Bool) : Act :=
  let g := Handle.gen o.h
  let ahead := q && g == b.gen + 1
  if b.poisoned && (g == b.gen || ahead) then .refuse b l o code bPoison
  else if ahead && b.full then
    { Act.only { b with st := 3, queued := b.queued ++ [o] } none with queues := true }
  else if g != b.gen then .refuse b l o code bStale
  else if b.full then .refuse b l o code bDwrite
  else if b.mask &&& maskRange off n != 0 then .refuse b l o code bDwrite
  else
    let r := ({ b with payload := Payload.put b.payload off n data, mask := b.mask ||| maskRange off n, lastWrite := some o } : Block).afterBytes
    { Act.only r.1 (some (postReply r.2.2.2)) with woken := r.2.1, sealed := r.2.2.1, notes := noteOf o code (b.pw l) r.2.2.2 }

/-- A queued write, applied after a clear (R207). -/
def Block.applyQueued (a : Act) (l : Bool) (w : Op) : Act :=
  match w.kind with
  | .write off n data _ =>
    let r := a.b.write l w 5 off.toNat n data false
    let bits : BitVec 16 := match r.reply with | some (.report x _) => x | _ => 0
    { a with b := r.b, woken := a.woken ++ r.woken, late := a.late ++ [(w, bits, causeOf bits)], notes := a.notes ++ r.notes }
  | _ => a

/-- The clear step of R207, with the answer `r`; poison ends (R368). -/
def Block.clearStep (b : Block) (l : Bool) (r : Reply) : Act :=
  let c : Block := { b with st := 0, gen := b.gen + 1, x := false, mask := 0, arrivals := 0, qrem := 0, poisoned := false,
                            queued := [], lastWrite := none }
  b.queued.foldl (fun a w => Block.applyQueued a l w) { Act.only c (some r) with cleared := true }

/-- The seal tests of R203. -/
def Block.sealOp (b : Block) (l : Bool) (o : Op) (x : Bool) : Act :=
  let g := Handle.gen o.h
  if b.poisoned && g == b.gen then .refuse b l o 2 bPoison
  else if g != b.gen then .refuse b l o 2 bStale
  else if b.full then .refuse b l o 2 bDwrite
  else
    let r := b.sealStep x
    { Act.only r.1 (some (postReply 0)) with woken := r.2, sealed := true }

/-- One arrival at the block's generation (R205): the block, the wakes, whether it sealed, and the report. -/
def Block.arrive (b : Block) : Block × List (Stub × Option (BitVec 5)) × Bool × BitVec 16 :=
  if b.arrivals = 0xFFFF#16 then (b, [], false, bArmover)
  else
    let c := { b with arrivals := b.arrivals + 1 }
    if b.full then (c, [], false, if b.mode = 1 then bArmover else 0)
    else if b.mode = 1 && c.arrivals == b.acount then
      let q := c.sealStep false
      (q.1, q.2, true, 0)
    else (c, [], false, 0)

/-- ACNT and JOIN (R205, R260): the status with its ticket. -/
def Block.arrivalOp (b : Block) (l : Bool) (o : Op) : Act :=
  if Handle.gen o.h != b.gen then { Act.only b (some (.status 3 0)) with notes := noteOf o 3 (b.pw l) bStale }
  else if b.poisoned then Act.only b (some .poison)
  else
    let r := b.arrive
    { Act.only r.1 (some (.status (if r.2.2.2 = 0 then 0 else 2) b.arrivals)) with
      woken := r.2.1, sealed := r.2.2.1, notes := noteOf o 3 (b.pw l) r.2.2.2 }

/-! ### Combining (R248) -/

/-- Bits of an element of an accumulation. -/
def accBits (fmt : BitVec 4) : Nat :=
  match fmt.toNat with
  | 3 => 8
  | 4 => 8
  | 5 => 16
  | 6 => 32
  | 8 => 32
  | _ => 16
/-- The floating format of an element, if it is one. -/
def accFloat (fmt : BitVec 4) : Option FloatFmt :=
  match fmt.toNat with
  | 8 => some fmtF32
  | 9 => some fmtF16
  | 10 => some fmtB16
  | _ => none
/-- Is an integer element below another: unsigned for N8 alone? -/
def accBelow (fmt : BitVec 4) (a b : Nat) : Bool :=
  if fmt = 4 then decide (a < b)
  else (BitVec.ofNat (accBits fmt) a).slt (BitVec.ofNat (accBits fmt) b)
/-- Element `e` combined with operand `x` (R248). -/
def combineElem (fmt : BitVec 4) (rule : BitVec 2) (e x : Nat) : Nat :=
  match rule.toNat, accFloat fmt with
  | 0, some f => (roundTo f rne ((f.decode e).add rne (f.decode x))).1
  | 0, none => (e + x) % 2 ^ accBits fmt
  | 1, some f => (minMax f true e x).1
  | 1, none => if accBelow fmt e x then x else e
  | 2, some f => (minMax f false e x).1
  | 2, none => if accBelow fmt x e then x else e
  | _, _ => e ||| x
/-- The first `k` elements of a range at byte `off`: combined where the mask is set, taken from `new` elsewhere. -/
def combineRange (fmt : BitVec 4) (rule : BitVec 2) (mask old new off k : Nat) : Nat :=
  match k with
  | 0 => 0
  | k + 1 =>
    let w := accBits fmt
    let x := (new >>> (k * w)) % 2 ^ w
    let e := (old >>> (8 * off + k * w)) % 2 ^ w
    let v := if mask.testBit ((off + k * w / 8) / 8) then combineElem fmt rule e x else x
    (v <<< (k * w)) ||| combineRange fmt rule mask old new off k
/-- The payload after an accumulation of `n` bytes at `off`. -/
def combineInto (p : Payload) (mask : BitVec 512) (fmt : BitVec 4) (rule : BitVec 2) (off n : Nat) (data : Payload) : Payload :=
  Payload.put p off n (BitVec.ofNat 32768 (combineRange fmt rule mask.toNat p.toNat data.toNat off (8 * n / accBits fmt)))

/-- ACC and ACCT (R248), with the arrival of `.c`. -/
def Block.accumOp (b : Block) (l : Bool) (o : Op) (off n : Nat) (fmt : BitVec 4) (rule : BitVec 2) (arr : Bool) (data : Payload) : Act :=
  if Handle.gen o.h != b.gen then .refuse b l o 4 bStale
  else if b.poisoned then .refuse b l o 4 bPoison
  else if b.full then
    let r := if arr then b.arrive else (b, [], false, 0)
    let bits := bDwrite ||| r.2.2.2
    { Act.only r.1 (some (.report bits 14)) with notes := noteOf o 4 (b.pw l) bits }
  else
    let c : Block := { b with payload := combineInto b.payload b.mask fmt rule off n data, mask := b.mask ||| maskRange off n,
                              lastWrite := some o }
    let r := c.afterBytes
    let t := if arr then r.1.arrive else (r.1, [], false, 0)
    let bits := r.2.2.2 ||| t.2.2.2
    { Act.only t.1 (some (postReply bits)) with
      woken := r.2.1 ++ t.2.1, sealed := r.2.2.1 || t.2.2.1, combined := true, notes := noteOf o 4 (b.pw l) bits }

/-! ### Arming, releasing, clearing, probing, watching, reading -/

/-- ARM (R206) with its arm word; a poisoned block answers FULL to every arm word in range (R368). -/
def Block.armOp (b : Block) (o : Op) (w : Word) : Act :=
  let count := w.extractLsb' 0 16
  let mode := w.extractLsb' 16 2
  let quota := w.extractLsb' 24 8
  let c := if mode = 0 then b.written else b.arrivals.toNat
  if w.extractLsb' 18 6 != 0 || w.extractLsb' 32 32 != 0
      || (mode == 0 && (count.toNat % 8 != 0 || decide (count.toNat < 8) || decide (4096 < count.toNat)))
      || (mode == 1 && count == 0) || (mode.getLsbD 1 && count != 0) then Act.only b (some (.status 5 0))
  else if Handle.gen o.h != b.gen then Act.only b (some (.status 3 0))
  else if b.poisoned then Act.only b (some (.status 4 0))
  else if mode = 3 then Act.only { b with qarmed := quota, qrem := if b.full then quota else b.qrem } (some (.status 0 0))
  else if b.full then Act.only b (some (.status 4 0))
  else if !mode.getLsbD 1 && decide (count.toNat < c) then Act.only b (some (.status 2 0))
  else
    let d : Block := { b with mode := mode, acount := count, qarmed := quota }
    if !mode.getLsbD 1 && count.toNat == c then
      let r := d.sealStep false
      { Act.only r.1 (some (.status 0 0)) with woken := r.2, sealed := true }
    else Act.only d (some (.status 0 0))

/-- One quota unit is used up (R208): the block, and whether it reports QUOTA. -/
def Block.consume (b : Block) (l : Bool) (r : Reply) : Act × Bool :=
  if b.qrem = 0 then (Act.only b (some r), true)
  else if b.qrem = 1 then (b.clearStep l r, false)
  else (Act.only { b with qrem := b.qrem - 1 } (some r), false)

/-- REL (R208, R368). -/
def Block.releaseOp (b : Block) (l : Bool) (o : Op) : Act :=
  if Handle.gen o.h != b.gen then Act.only b (some (postReply bStale))
  else if !b.full then Act.only b (some (postReply bQuota))
  else if b.poisoned then Act.only b (some (postReply bPoison))
  else
    let r := b.consume l (postReply 0)
    if r.2 then Act.only b (some (postReply bQuota)) else r.1

/-- CLR and CLRX (R209). -/
def Block.clearOp (b : Block) (l : Bool) (o : Op) (x : Bool) : Act :=
  if Handle.gen o.h != b.gen then Act.only b (some (.status 3 0))
  else if b.st = 2 then
    if x then
      let a := ({ b with stubs := b.stubs.filter fun y => !y.isReader } : Block).clearStep l (.status 0 0)
      { a with woken := ((b.stubs.filter Stub.isReader).map fun y => (y, some 12#5)) ++ a.woken }
    else Act.only b (some (.status 1 0))
  else b.clearStep l (.status 0 0)

/-- DISCARD at the presence state (R238); the frame is the caller's. -/
def Block.discardOp (b : Block) (l : Bool) (o : Op) : Act :=
  if Handle.gen o.h != b.gen then Act.only b (some (.status 3 0))
  else if b.st = 2 then Act.only b (some (.status 1 0))
  else b.clearStep l (.status 0 0)

/-- The word of PROBE (R216). -/
def Block.probeWord (b : Block) (l : Bool) : Word :=
  b.qrem ++ b.qarmed ++ b.mode ++ 0#1 ++ BitVec.ofNat 13 (if b.full then 0 else b.written) ++ b.arrivals ++ b.pw l

/-- A watcher registration (R51); poison loses it (R368). -/
def Block.watchOp (b : Block) (o : Op) (die : BitVec 3) (node : BitVec 32) : Act :=
  let g := Handle.gen o.h
  let from_ := match o.asker with | .remote m _ _ => some m | _ => none
  let x := Stub.watcher die node g o.h from_
  if b.full && g == b.gen then
    if b.poisoned then { Act.only b (some (postReply 0)) with lost := [x] }
    else { Act.only b (some (postReply 0)) with woken := [(x, none)] }
  else { Act.only { b with stubs := b.stubs ++ [x] } (some (postReply 0)) with parks := true }

/-- What a consuming read reports to its batch: QUOTA (R208), or POISON where it is refused (R368). -/
def Block.readBits (b : Block) (o : Op) : BitVec 16 :=
  if Handle.gen o.h == b.gen && b.full then (if b.poisoned then bPoison else if b.qrem == 0 then bQuota else 0) else 0


/-- A read or WAIT (R204, R208, R215); a host's READ never parks (R46). -/
def Block.readOp (b : Block) (l : Bool) (o : Op) (consume : Bool) : Act :=
  let g := Handle.gen o.h
  if g != b.gen then Act.only b (some .stale)
  else if !b.full && o.ofPort then Act.only b (some .stale)
  else if !b.full then
    { Act.only { b with st := 2, stubs := b.stubs ++ [.reader o.asker g o.h] } none with parks := true }
  else if b.poisoned then Act.only b (some .poison)
  else
    let r := Reply.data b.payload (b.pw l) (if consume then b.readBits o else 0)
    if consume then (b.consume l r).1 else Act.only b (some r)

/-- An operation on a block whose effective state is `b`; `l` is its L bit. -/
def Block.act (b : Block) (l : Bool) (o : Op) : Act :=
  match o.kind with
  | .read c => b.readOp l o c
  | .wait => b.readOp l o false
  | .write off n data q => b.write l o o.writeCode off.toNat n data q
  | .seal x => b.sealOp l o x
  | .arrival => b.arrivalOp l o
  | .accum off n fmt rule arr data => b.accumOp l o off.toNat n fmt rule arr data
  | .arm w => b.armOp o w
  | .release => b.releaseOp l o
  | .clear x => b.clearOp l o x
  | .discard => b.discardOp l o
  | .probe => Act.only b (some (.probe (b.probeWord l)))
  | .watcher d n => b.watchOp o d n

/-- Poisoning (R368): FULL at its generation; readers resume with POISON, queued writes are refused, watchers are lost, those of
other generations too that stood in lost log entries (`entries`, R256, R367). -/
def Block.poison (b : Block) (destroyed : Bool) (entries : List Stub) : Act :=
  let gone : Stub → Bool := fun y => y.fires b.gen || entries.contains y
  let c : Block := { b with st := 1, poisoned := true, mask := 0, queued := [], stubs := b.stubs.filter fun y => !gone y,
                            lastWrite := none }
  let d : Block := if destroyed then { c with mode := 0, acount := 4096, qarmed := 0, qrem := 0 } else c
  { Act.only d none with
    woken := (b.stubs.filter Stub.isReader).map fun y => (y, some 17#5)
    late := b.queued.map fun w => (w, bPoison, 17#5)
    lost := b.stubs.filter fun y => !y.isReader && gone y }

end Sys2Proof.Machine
end

