-- ==== Sys2Proof/Machine/Tongs.lean ====
section
/-!
DEFINITION. The Tongs' bookkeeping (R179 to R182): the operands of a command, what their replies decide, and the withdrawal of
a command.
-/
namespace Sys2Proof.Machine

/-- Take an operation off its unit's list of unacknowledged ones (R255). -/
def State.unack (s : State) (u : Nat) (seq : Word) : State :=
  { s with units := Maps.put s.units u ((Maps.getD s.units u []).filter fun o => o.seq != seq) }

/-- Does the asker of an operation still wait for it: its unit holds it unacknowledged and has not abandoned it (R322)? -/
def State.awaited (s : State) (o : Op) : Bool := (Maps.getD s.units o.unit []).any fun q => q.seq == o.seq && q.asker == o.asker

/-- The reads of strand `r`, its own or its command's, are abandoned: their units hold them until their outcomes come, for nobody
(R181, R322). -/
def State.abandon (s : State) (r : Nat) : State :=
  { s with units := Maps.map s.units fun _ (l : List Op) => l.map fun o =>
      match o.asker with
      | .strand q => if q = r then { o with asker := .nobody } else o
      | .tongs q _ => if q = r then { o with asker := .nobody } else o
      | _ => o }

/-- The operand handles of a block-reading command, in the order the Tongs request them (R179). -/
def tongsHandles (st : Strand) (i : Instr) : List Word :=
  match i with
  | .mma o => [st.reg o.ra, st.reg o.rb]
  | .mmai o => [st.reg o.ra, st.reg o.rb]
  | .mmas o => [st.reg o.ra, st.reg o.rb, st.reg o.rc, st.reg o.re]
  | .tld o => [st.reg o.ra]
  | _ => []

/-- The block a handle names, without its offset. -/
def Handle.block (h : Word) : Word := h.extractLsb' 12 52 ++ 0#12

/-- Is an operand pinned? -/
def Pin.isData (p : Pin) : Bool :=
  match p with
  | .data _ => true
  | _ => false
/-- The payload of a pinned operand. -/
def Pin.payload (p : Pin) : Payload :=
  match p with
  | .data d => d
  | _ => 0

/-- A command leaves its queue from wherever it stands, with its pins and its requests (R181). -/
def State.withdraw (s : State) (r : Nat) : State :=
  match s.strand r with
  | none => s
  | some st =>
    let k := st.home
    let c := s.core k
    ((s.setCore k { c with cmdq := c.cmdq.filter (· != r) }).abandon r).setStrand r { st with wait := .run }

/-- The first operand, in order, whose reply is not data, once every operand before it has come (R181). -/
def firstBad (l : List (Word × Pin)) : Option (Word × Pin) :=
  match l with
  | [] => none
  | (h, p) :: q =>
    match p with
    | .data _ => firstBad q
    | .waiting => none
    | _ => some (h, p)

/-- What the replies so far decide (R181, R368). -/
def State.decideTongs (s : State) (r : Nat) : State :=
  match s.strand r with
  | none => s
  | some st =>
    match st.wait with
    | .command i false pins _ =>
      match firstBad ((tongsHandles st i).zip pins) with
      | none => s
      | some (h, p) =>
        let s1 := s.withdraw r
        match p with
        | .anchor => s1.raise r 10#5 h
        | .fault => s1.toFaultQueue r h (.perm permR)
        | .stale => s1.raise r 8#5 h
        | .poison => s1.raise r 17#5 h
        | .parked pl g => s1.updStrand r fun st => { st with wait := .parked pl g }
        | .woken (some k) => s1.raise r k h
        | _ => s1
    | _ => s

/-- The reply of operand `i`, which every operand of the same block shares. -/
def State.pinReply (s : State) (r i : Nat) (x : Pin) : State :=
  match s.strand r with
  | none => s
  | some st =>
    match st.wait with
    | .command c false pins d =>
      let hs := tongsHandles st c
      let b := Handle.block (hs.getD i 0)
      let pins' := (hs.zip pins).map fun q => if Handle.block q.1 == b then x else q.2
      (s.setStrand r { st with wait := .command c false pins' d }).decideTongs r
    | _ => s

end Sys2Proof.Machine
end

