-- ==== Sys2Proof/Machine/Home.lean ====
section
/-!
DEFINITION. The home of a block: HBM metadata, residence and eviction, pending-operation logs, the dedupe windows, and the
arrival of operations (R198, R199, R222 to R226, R244 to R256).
-/
namespace Sys2Proof.Machine

/-! ### Blocks in HBM (R198, R199) -/

/-- The 16 metadata bits of line `n` of a block; an unlisted line 34 to 37 stands at its mapping value (R196). -/
def State.lineMeta (s : State) (blk n : Nat) : BitVec 16 := Maps.getD s.hbmMeta (blk * 64 + n) (if n = 35 then 0x1000#16 else 0#16)
/-- Write them. -/
def State.setLineMeta (s : State) (blk n : Nat) (v : BitVec 16) : State :=
  { s with hbmMeta := if v = (if n = 35 then 0x1000#16 else 0#16) then Maps.del s.hbmMeta (blk * 64 + n)
                      else Maps.put s.hbmMeta (blk * 64 + n) v }
/-- The written mask from lines 2 to `n + 1`. -/
def State.maskMeta (s : State) (blk n : Nat) : Nat :=
  match n with
  | 0 => 0
  | n + 1 => ((s.lineMeta blk (2 + n)).toNat <<< (16 * n)) ||| s.maskMeta blk n
/-- Is a line uncorrectable (R366)? -/
def State.badLine (s : State) (blk n : Nat) : Bool := s.badLines.contains (blk * 64 + n)

/-- The 64 metadata bits of line `n` of a block (R10): the 16 held, below the 48 check bits of the line's code over its data and
them. -/
def State.lineMetadata (s : State) (blk n : Nat) : Word :=
  Config.checkBits (BitVec.ofNat 512 (Mem.num s.hbm (blk * 4096 + 64 * n) 64)) (s.lineMeta blk n) ++ s.lineMeta blk n

/-- The home slice of a block (R223). -/
def State.sliceOf (s : State) (blk : Nat) : BitVec 9 :=
  let k := BitVec.ofNat 5 (blk / 2 ^ 24)
  homeCluster (s.driver k) (k.extractLsb' 0 2) (BitVec.ofNat 24 blk)
/-- The presence word that the slice's presence cache holds of a block (R12, R197). -/
def State.cachedPw (s : State) (blk : Nat) : Option (BitVec 16) := Maps.get (s.cluster (s.sliceOf blk)).pcache blk
/-- The presence word as the home reads it: from the presence cache, else from HBM (R197, R198, R368). -/
def State.storedPw (s : State) (blk : Nat) : BitVec 16 :=
  match s.cachedPw blk with
  | some v => v
  | none => if !s.badLine blk 0 then s.lineMeta blk 0 else if !s.badLine blk 1 then s.lineMeta blk 1 else 0
/-- A slice's presence cache takes the word of a block that is not resident; of 16,384 entries the one of the lowest number gives
way, which HBM holds as it stands (R12, R197; log entry 80). -/
def Cluster.cachePw (c : Cluster) (blk : Nat) (v : BitVec 16) : Cluster :=
  let t := if c.pcache.length < 16384 then c.pcache else (Maps.del c.pcache blk).drop 1
  { c with pcache := Maps.put t blk v }

/-- The state of a non-resident block as HBM holds it, without payload and stubs. -/
def State.hbmState (s : State) (blk : Nat) : Block :=
  let pw := s.storedPw blk
  let q := s.lineMeta blk 37
  { Block.mapped with
    st := if s.poison.contains blk then 1 else pw.extractLsb' 14 2, gen := pw.extractLsb' 2 12, x := pw.getLsbD 0
    mode := (s.lineMeta blk 34).extractLsb' 0 2, acount := s.lineMeta blk 35, arrivals := s.lineMeta blk 36
    qarmed := q.extractLsb' 0 8, qrem := q.extractLsb' 8 8, mask := BitVec.ofNat 512 (s.maskMeta blk 32)
    poisoned := s.poison.contains blk, lastWrite := Maps.get s.lastWr blk }

/-- Does line `n` hold bytes of the block's value (R199)? -/
def Block.lineUsed (b : Block) (n : Nat) : Bool := b.full || b.mask.extractLsb' (8 * n) 8 != 0

/-- Has a logged clear left the bytes in HBM dead (R250, R251)? -/
def Log.clears (l : Log) : Bool := l.entries.any fun e => match e with | .clear _ => true | _ => false

/-- Does making a block resident need line `n` (R198, R199, R251)? The lines that hold bytes of the value, and the state: all of it
without a log, and of PW one of its two copies; with a log, whose descriptor holds the state, the mask that the walk starts from. After a
logged clear nothing in HBM counts any longer. -/
def State.needsLine (s : State) (cl : BitVec 9) (blk n : Nat) : Bool :=
  let old := s.hbmState blk
  match Maps.get (s.cluster cl).logs blk with
  | some l => !l.clears && (old.lineUsed n || (!old.full && decide (2 ≤ n) && decide (n ≤ 33)))
  | none => old.lineUsed n || (decide (2 ≤ n) && decide (n ≤ 37)) || (decide (n < 2) && s.badLine blk 0 && s.badLine blk 1)
/-- Is a line that making the block resident needs uncorrectable (R368)? -/
def State.unreadable (s : State) (cl : BitVec 9) (blk : Nat) : Bool :=
  (List.range 64).any fun n => s.badLine blk n && s.needsLine cl blk n

/-- The seal mode, armed count, arrivals and quota of a block that is read from HBM, each as far as its own line still holds it: what an
uncorrectable line 34 to 37 has destroyed takes the mapping default (R196, R198, R368). -/
def State.keptItems (s : State) (blk : Nat) (b : Block) : Block :=
  { b with mode := if s.badLine blk 34 then 0 else b.mode, acount := if s.badLine blk 35 then 4096 else b.acount
           arrivals := if s.badLine blk 36 then 0 else b.arrivals
           qarmed := if s.badLine blk 37 then 0 else b.qarmed, qrem := if s.badLine blk 37 then 0 else b.qrem }

/-- Write lines `0` to `n - 1` of the payload that are used. -/
def writeLines (m : Memory) (blk : Nat) (b : Block) (bs : List Byte) (n : Nat) : Memory :=
  match n with
  | 0 => m
  | n + 1 =>
    let m' := writeLines m blk b bs n
    if b.lineUsed n then Mem.setBytes m' (blk * 4096 + 64 * n) ((bs.drop (64 * n)).take 64) else m'


/-- Write the state of R198, in HBM and in the presence cache. -/
def State.writeState (s : State) (blk : Nat) (b : Block) (l : Bool) : State :=
  let s0 := s.activate blk
  let s1 := (s0.setLineMeta blk 0 (b.pw l)).setLineMeta blk 1 (b.pw l)
  let m : BitVec 512 := if b.full then 0 else b.mask
  let s2 := (List.range 32).foldl (fun t k => t.setLineMeta blk (2 + k) (m.extractLsb' (16 * k) 16)) s1
  let s3 := ((s2.setLineMeta blk 34 (b.mode.zeroExtend 16)).setLineMeta blk 35 b.acount).setLineMeta blk 36 b.arrivals
  let cl := s.sliceOf blk
  let s4 := (s3.setLineMeta blk 37 (b.qrem ++ b.qarmed)).setCluster cl ((s3.cluster cl).cachePw blk (b.pw l))
  { s4 with poison := if b.poisoned then (s4.poison.filter (· != blk)) ++ [blk] else s4.poison.filter (· != blk)
            badLines := s4.badLines.filter fun a => decide (a / 64 ≠ blk) || (!b.lineUsed (a % 64) && decide (37 < a % 64))
            lastWr := match b.lastWrite with | none => Maps.del s4.lastWr blk | some o => Maps.put s4.lastWr blk o }

/-- Write a block back: the lines that hold its value, and its state (R198, R199, R224). A poisoned block has only the check
pattern of R368. -/
def State.writeBack (s : State) (blk : Nat) (b : Block) (l : Bool) : State :=
  let s1 := if b.poisoned then s else { s with hbm := writeLines s.hbm blk b (Payload.toBytes b.payload) 64 }
  s1.writeState blk b l

/-- A descriptor stands: L alone is set, in PW, in its copy and in the presence cache (R247), which is an access of the row (R377). The
rest of the state in HBM is that of the last write-back, to which its mask belongs (R198, R251). -/
def State.setL (s : State) (cl : BitVec 9) (blk : Nat) : State :=
  let pw := s.storedPw blk ||| 2#16
  let s1 := ((s.activate blk).setLineMeta blk 0 pw).setLineMeta blk 1 pw
  s1.setCluster cl ((s1.cluster cl).cachePw blk pw)

/-- The payload of a block in HBM. -/
def State.hbmPayload (s : State) (blk : Nat) : Payload := Payload.ofBytes (Mem.bytes s.hbm (blk * 4096) 4096)

/-! ### Logs (R245 to R251) -/

/-- Kind of a stub's entry (R246). -/
def Stub.kind (x : Stub) : BitVec 4 :=
  match x with
  | .reader (.remote _ _ _) _ _ => 4
  | .reader _ _ _ => 3
  | .watcher _ _ _ _ _ => 5
/-- The generation a stub belongs to. -/
def Stub.gen (x : Stub) : BitVec 12 :=
  match x with
  | .reader _ g _ => g
  | .watcher _ _ g _ _ => g
/-- Bytes of an entry with its header (R246). -/
def LogEntry.bytes (e : LogEntry) : Nat :=
  match e with
  | .acc _ _ _ _ _ => 160
  | .acct _ _ _ _ => 4608
  | .stubs _ _ l => 32 + 32 * ((l.length + 1) / 2)
  | .clear _ => 32
  | .seal _ => 32
/-- LOGBYTES. -/
def Log.bytes (l : Log) : Nat := (l.entries.map LogEntry.bytes).sum
/-- The stubs that a log holds. -/
def Log.stubs (l : Log) : List Stub :=
  l.entries.flatMap fun e => match e with | .stubs _ _ l => l | _ => []
/-- Crucible occupancy: descriptors and entries. -/
def Cluster.crucible (c : Cluster) : Nat := (c.logs.map fun p => 96 + p.2.bytes).sum

/-- Append a stub, merging it into the last entry (R249). -/
def appendStub (es : List LogEntry) (x : Stub) : List LogEntry :=
  match es.reverse with
  | .stubs k g l :: r => if k == x.kind && g == x.gen && decide (l.length < 16) then r.reverse ++ [.stubs k g (l ++ [x])]
                         else es ++ [.stubs x.kind x.gen [x]]
  | _ => es ++ [.stubs x.kind x.gen [x]]

/-- Append an accumulation, merging it into the last entry (R249). -/
def appendAccum (es : List LogEntry) (g : BitVec 12) (off : BitVec 12) (n : Nat) (fmt : BitVec 4) (rule : BitVec 2) (data : Payload) :
    List LogEntry :=
  if n = 128 then
    match es.reverse with
    | .acc g' f' r' o' d :: r =>
      if g' == g && f' == fmt && r' == rule && o' == off then
        let e := (combineInto (d.zeroExtend 32768) (BitVec.allOnes 512) fmt rule 0 128 data).extractLsb' 0 1024
        r.reverse ++ [.acc g fmt rule off e]
      else es ++ [.acc g fmt rule off (data.extractLsb' 0 1024)]
    | _ => es ++ [.acc g fmt rule off (data.extractLsb' 0 1024)]
  else
    match es.reverse with
    | .acct g' f' r' d :: r =>
      if g' == g && f' == fmt && r' == rule then r.reverse ++ [.acct g fmt rule (combineInto d (BitVec.allOnes 512) fmt rule 0 4096 data)]
      else es ++ [.acct g fmt rule data]
    | _ => es ++ [.acct g fmt rule data]

/-- Drop the stubs that are gone, and stub entries left empty. -/
def keepStubs (es : List LogEntry) (keep : List Stub) : List LogEntry :=
  (es.map fun e => match e with | .stubs k g l => .stubs k g (l.filter keep.contains) | e => e).filter LogEntry.held

/-- Entries that a clear removes (R250). -/
def LogEntry.ofOldValue (e : LogEntry) : Bool :=
  match e with
  | .acc _ _ _ _ _ => true
  | .acct _ _ _ _ => true
  | .seal _ => true
  | _ => false

/-- The write that a merge which fails reports to, kept past a logged seal until the log is applied (R199). -/
def Log.lastWrite (l : Log) (o : Op) (a : Act) : Option Op :=
  if a.sealed then (if a.combined then some o else l.desc.lastWrite) else a.b.lastWrite

/-- The log after an operation was appended (R247 to R250). -/
def Log.append (l : Log) (o : Op) (a : Act) : Log :=
  let g := l.desc.gen
  let e1 := if a.cleared then (l.entries.filter fun e => !e.ofOldValue) ++ [.clear g] else l.entries
  let e2 := if a.combined then
      match o.kind with
      | .accum off n fmt rule _ data => appendAccum e1 g off n fmt rule data
      | _ => e1
    else e1
  let e3 := if a.sealed then e2 ++ [.seal g] else e2
  let e4 := keepStubs e3 a.b.stubs
  let e5 := if a.parks then (match a.b.stubs.getLast? with | some x => appendStub e4 x | none => e4) else e4
  { l with entries := e5, desc := { a.b with stubs := [], payload := 0, queued := [], lastWrite := l.lastWrite o a } }

/-- One entry applied to a payload with its running mask (R251). -/
def LogEntry.apply (e : LogEntry) (p : Payload × BitVec 512) : Payload × BitVec 512 :=
  match e with
  | .acc _ fmt rule off d => (combineInto p.1 p.2 fmt rule off.toNat 128 (d.zeroExtend 32768), p.2 ||| maskRange off.toNat 128)
  | .acct _ fmt rule d => (combineInto p.1 p.2 fmt rule 0 4096 d, BitVec.allOnes 512)
  | .seal _ => (zeroUnwritten p.1 p.2, 0)
  | .clear _ => (p.1, 0)
  | .stubs _ _ _ => p

/-- The effective state of a block that is not resident (R197, R245), with the stubs of its log, and its L bit. -/
def State.effective (s : State) (cl : BitVec 9) (blk : Nat) : Block × Bool :=
  match Maps.get (s.cluster cl).logs blk with
  | some l => ({ l.desc with stubs := l.stubs }, true)
  | none => (s.hbmState blk, false)

/-- A block as it becomes resident: payload from HBM, its log applied (R199, R251). -/
def State.resident (s : State) (cl : BitVec 9) (blk : Nat) : Block :=
  let p := s.hbmPayload blk
  match Maps.get (s.cluster cl).logs blk with
  | some l =>
    let r := l.entries.foldl (fun p e => e.apply p) (p, (s.hbmState blk).mask)
    { l.desc with stubs := l.stubs, payload := r.1, lastWrite := if l.desc.full then none else l.desc.lastWrite }
  | none => { s.hbmState blk with payload := p }

/-! ### The store's L2 partition (R221, R224) -/

/-- Blocks that the L2 partition holds; a partition move steers new ones outside the moving region (R243). -/
def Cluster.capacity (c : Cluster) : Nat :=
  match c.moving with
  | none => 32 * c.l2units.toNat
  | some (u, _) => 32 * min u.toNat c.l2units.toNat

/-- The least recently used entry among those accepted. -/
def leastUsed {α : Type} (m : FMap α) (used : α → Nat) (ok : Nat → α → Bool) : Option Nat :=
  (m.foldl (fun best p => if ok p.1 p.2 then
      match best with
      | none => some (p.1, used p.2)
      | some q => if used p.2 < q.2 then some (p.1, used p.2) else best
    else best) (none : Option (Nat × Nat))).map Prod.fst

/-- Has the Tongs of some core pinned this block (R179, R224)? -/
def State.pinned (s : State) (cl : BitVec 9) (blk : Nat) : Bool :=
  s.strands.any fun p =>
    match p.2.wait with
    | .command i _ pins _ =>
      ((tongsHandles p.2 i).zip pins).any fun q =>
        q.2.isData && (match s.xlate (coreCluster p.2.home) false q.1 0#4 with | .ok pl => pl == .dom cl blk | _ => false)
    | _ => false

/-- The log that an eviction leaves: none without stubs. -/
def evictionLog (b : Block) (now : Nat) : Option Log :=
  if b.stubs.isEmpty then none
  else some { desc := { b with stubs := [], payload := 0 }, entries := b.stubs.foldl appendStub [], born := now }

/-- May the slice evict this block (R224, R244)? -/
def State.evictable (s : State) (cl : BitVec 9) (blk : Nat) (x : Resident) : Bool :=
  x.b.queued.isEmpty && (Maps.get (s.cluster cl).fills blk).isNone && !s.pinned cl blk &&
    (match evictionLog x.b 0 with
     | none => true
     | some l => decide ((s.cluster cl).crucible + 96 + l.bytes ≤ 58982))

/-- Evict a resident block (R224): write it back, its stubs become log entries. -/
def State.evict (s : State) (cl : BitVec 9) (blk : Nat) (x : Resident) : State :=
  let log := evictionLog x.b s.tick
  let s1 := s.writeBack blk x.b log.isSome
  let c := s1.cluster cl
  s1.setCluster cl { c with res := Maps.del c.res blk, logs := match log with | none => c.logs | some l => Maps.put c.logs blk l }

/-- Room for one more home block: free, or a copy dropped, or a home block evicted (R224). -/
def State.makeRoom (s : State) (cl : BitVec 9) : Option State :=
  let c := s.cluster cl
  if c.res.length + c.copies.length < c.capacity then some s
  else match leastUsed c.copies Copy.used (fun _ _ => true) with
    | some k => some (s.setCluster cl { c with copies := Maps.del c.copies k })
    | none =>
      match leastUsed c.res Resident.used (fun k x => s.evictable cl k x) with
      | none => none
      | some k => (Maps.get c.res k).map fun x => s.evict cl k x

/-- Start making a block resident; `ms` wait for it (R252). -/
def State.startFill (s : State) (cl : BitVec 9) (blk : Nat) (ms : List Nat) : State :=
  let c := s.cluster cl
  if (Maps.get c.res blk).isSome then s
  else match Maps.get c.fills blk with
    | some l => s.setCluster cl { c with fills := Maps.put c.fills blk (l ++ ms.filter fun m => !l.contains m) }
    | none => s.setCluster cl { c with fills := Maps.put c.fills blk ms }

/-- A fetch that the Crucible forces is counted (R252, R328). -/
def State.forceFill (s : State) (cl : BitVec 9) (blk : Nat) (ms : List Nat) : State :=
  let c := s.cluster cl
  (s.setCluster cl (if (Maps.get c.fills blk).isSome then c else { c with perf7 := c.perf7 + 1 })).startFill cl blk ms

/-- Make a block resident: where a log stands the fetch is a forced one (R244, R252). -/
def State.fetch (s : State) (cl : BitVec 9) (blk : Nat) (ms : List Nat) : State :=
  if (Maps.get (s.cluster cl).logs blk).isSome then s.forceFill cl blk ms else s.startFill cl blk ms

/-! ### Copies (R225, R226) -/

/-- Key of a remote-data copy: VBN and generation. -/
def copyKey (h : Word) : Nat := (Handle.vbn h).toNat * 4096 + (Handle.gen h).toNat
/-- The physical block number that a handle translates to (R223). -/
def State.physOf (s : State) (h : Word) : BitVec 24 :=
  match s.walk (Handle.vbn h) with
  | none => 0
  | some (e, big) =>
    let idx := if big then (Handle.vbn h).toNat % 2 ^ 18 else (Handle.vbn h).toNat % 512
    BitVec.ofNat 24 ((Pte.frame e).toNat * 512 + idx)
/-- The copy slice of die `d` for a handle (R225). -/
def State.copySlice (s : State) (d : BitVec 3) (h : Word) : BitVec 9 :=
  let p := s.physOf h
  d ++ (p.extractLsb' 0 6 ^^^ p.extractLsb' 6 6 ^^^ p.extractLsb' 12 6 ^^^ p.extractLsb' 18 6)
/-- Is the block homed on die `d`? -/
def Place.onDie (p : Place) (d : BitVec 3) : Bool :=
  match p with
  | .dom c _ => clusterDie c == d
  | .pad c _ => clusterDie c == d
  | .off _ => false
/-- The copy that serves a data read from cluster `c` (R226), its use noted. -/
def State.copyFor (s : State) (c : BitVec 9) (h : Word) (p : Place) : Option (Payload × State) :=
  let at_ : BitVec 9 → Option (Payload × State) := fun k =>
    let cl := s.cluster k
    (Maps.get cl.copies (copyKey h)).map fun x =>
      let d := s.die (clusterDie c)
      (x.data, (s.setCluster k { cl with copies := Maps.put cl.copies (copyKey h) { x with used := s.tick } }).setDie (clusterDie c)
        { d with perf6 := d.perf6 + 1 })
  if Handle.space h != 0#3 then none
  else match at_ c with
    | some r => some r
    | none => if p.onDie (clusterDie c) then none else at_ (s.copySlice (clusterDie c) h)
/-- Place a copy in cluster `k`: free room, or the room of the least recently used copy (R225). -/
def State.placeCopy (s : State) (k : BitVec 9) (h : Word) (d : Payload) : State :=
  let c := s.cluster k
  let x : Copy := { data := d, used := s.tick }
  if (Maps.get c.copies (copyKey h)).isSome || decide (c.res.length + c.copies.length < c.capacity) then
    s.setCluster k { c with copies := Maps.put c.copies (copyKey h) x }
  else match leastUsed c.copies Copy.used (fun _ _ => true) with
    | none => s
    | some o => s.setCluster k { c with copies := Maps.put (Maps.del c.copies o) (copyKey h) x }

/-! ### Outcomes on their way (R201, R255, R266, R273) -/

/-- The source a trace entry names (R273): module, die, cluster, unit. The cluster of a proxy, and die and cluster of an Ethernet port,
which stands on a hearth die, are 0 (log entry 67). -/
def State.unitSource (s : State) (u : Nat) : BitVec 8 × BitVec 3 × BitVec 6 × BitVec 5 :=
  let m : BitVec 8 := if u < 16384 then s.modNo else BitVec.ofNat 8 (u / 16384 - 1)
  let v := u % 16384
  if v < 8192 then (m, BitVec.ofNat 3 (v / 1024), BitVec.ofNat 6 (v / 16), BitVec.ofNat 5 (v % 16))
  else if v < 8704 then (m, BitVec.ofNat 3 ((v - 8192) / 64), BitVec.ofNat 6 (v - 8192), 16)
  else if v < 8712 then (m, BitVec.ofNat 3 (v - 8704), 0, 17)
  else if v < 8720 then (m, 0, 0, BitVec.ofNat 5 (18 + (v - 8712)))
  else (m, BitVec.ofNat 3 (v - 8720), 0, 20)

/-- An entry takes its place in the ring by the arrival of its operation (R273). -/
def traceInsert (t : List (Nat × BitVec 256)) (k : Nat) (e : BitVec 256) : List (Nat × BitVec 256) :=
  match t with
  | [] => [(k, e)]
  | (a, f) :: r => if k < a then (k, e) :: (a, f) :: r else (a, f) :: traceInsert r k e

/-- Write a trace entry in a slice's ring (R273): the cycle and the place are those of the operation's arrival. -/
def State.trace (s : State) (cl : BitVec 9) (n : TraceNote) : State :=
  let c := s.cluster cl
  let u := s.unitSource n.o.unit
  let e : BitVec 256 := n.o.came.elim (s.die (clusterDie cl)).cycle Came.cycle ++ n.o.ordinal
    ++ 0#3 ++ u.2.2.2 ++ 0#2 ++ u.2.2.1 ++ 0#5 ++ u.2.1 ++ u.1 ++ n.o.node ++ n.pw ++ 0#8 ++ n.bit ++ n.code ++ n.o.h
  let t := traceInsert c.trace (n.o.came.elim s.tick Came.tick) e
  s.setCluster cl (if t.length ≤ 256 then { c with trace := t } else { c with trace := t.drop 1, traceOvf := c.traceOvf + 1 })

/-- The wake of one stub (R201, R209, R233, R302, R368). -/
def State.wakeStub (s : State) (p : Place) (x : Stub) (cause : Option (BitVec 5)) : State :=
  match x with
  | .reader (.strand r) _ h => s.send (.wake r p cause h)
  | .reader (.tongs r _) _ h => s.send (.wake r p cause h)
  | .reader (.copySource cl cmd seg) _ _ => s.send (.wakeEngine cl cmd seg cause)
  | .reader (.remote m c r) _ h => s.routed m (match cause with | none => .wake c r h | some k => .abort c r h k)
  | .reader _ _ _ => s
  | .watcher d n _ _ none => s.send (.fire d n)
  | .watcher _ n _ _ (some m) => s.routed m (.fire n)

/-- The instance of node instance `n` ends, reporting that node (R256, R319, R368). -/
def State.endNode (s : State) (n : BitVec 32) (cause : BitVec 5) (v : Word) : State :=
  match s.node n with
  | none => s
  | some nd =>
    s.endInstance nd.inst { idx := BitVec.ofNat 16 nd.idx, node := n, cause := cause.zeroExtend 8, tpc := 0, tval := v }

/-- A watcher lost to poison ends its instance, on the module where that runs (R256, R368). -/
def State.loseWatcher (s : State) (x : Stub) : State :=
  match x with
  | .watcher _ n _ h none => s.endNode n 17 h
  | .watcher _ n _ h (some m) => s.routed m (.lost 0 n 17 h)
  | _ => s

/-- Record an outcome in the dedupe window of its unit: the last 1,024 (R255). -/
def State.record (s : State) (cl : BitVec 9) (o : Op) (r : Reply) : State :=
  let c := s.cluster cl
  let w := Maps.getD c.windows o.unit { seen := [], released := false }
  let l := w.seen ++ [(o.seq, r)]
  s.setCluster cl { c with windows := Maps.put c.windows o.unit { seen := l.drop (l.length - 1024), released := false } }

/-- Send an answer to where it was asked. -/
def State.answer (s : State) (o : Op) (r : Reply) : State :=
  match o.asker with
  | .remote m _ _ => s.routed m (.reply (o.unit % 16384) o.seq r)
  | _ => s.send (.reply o r)

/-- Did a copy engine, of this or another module, send the operation? -/
def Op.ofEngine (o : Op) : Bool := decide (8192 ≤ o.unit % 16384) && decide (o.unit % 16384 < 8704)
/-- Did a core send it? -/
def Op.ofCore (o : Op) : Bool := decide (o.unit % 16384 < 8192)

/-- Does the home's summary count the operation: a posted operation or a consuming read of a strand's batch, here or on another
module (R208, R265, R266)? Engines answer for their commands themselves. -/
def Op.counted (o : Op) : Bool :=
  match o.asker, o.kind with
  | .batch, _ => true
  | .channel _ _, _ => true
  | .strand _, .read c => c
  | .remote _ _ _, .read c => c && o.ofCore
  | .remote _ _ _, .watcher _ _ => false
  | .remote _ _ _, _ => o.ofCore
  | _, _ => false

/-- The home's summary takes the outcome of an operation that it counts. -/
def State.tallyOp (s : State) (o : Op) (bits : BitVec 16) (cause : BitVec 5) : State :=
  if o.counted then s.tally (homeOf o.place) o.tracker o.batch (Sum.one o.ordinal.toNat 0 bits cause o.h) else s

/-- A strand parks at a block (R93): its slot is freed unless anchored. -/
def State.park (s : State) (r : Nat) (p : Place) (h : Word) : State :=
  match s.strand r with
  | none => s
  | some st =>
    match st.wait with
    | .reply _ _ _ => (s.setStrand r { st with wait := .parked p h }).vacate r
    | .send _ _ => (s.setStrand r { st with wait := .parked p h }).vacate r
    | _ => s

/-- The park of a strand is counted at the cluster that homes the block; a copy engine's source does not park its strand (R233,
R328). -/
def State.countPark (s : State) (cl : BitVec 9) (o : Op) : State :=
  match o.kind with
  | .watcher _ _ => s
  | _ =>
    if o.ofEngine then s
    else
      let c := s.cluster cl
      s.setCluster cl { c with perf4 := c.perf4 + 1 }

/-- Whoever asked learns that the read waits at its home; a reader that has abandoned it does not (R322). -/
def State.parkAsker (s : State) (o : Op) : State :=
  match o.asker with
  | .strand r => if s.awaited o then (s.unack o.unit o.seq).park r o.place o.h else s.unack o.unit o.seq
  | .tongs r i => if s.awaited o then (s.unack o.unit o.seq).pinReply r i (.parked o.place o.h) else s.unack o.unit o.seq
  | .remote _ _ _ => s.answer o (.report 0 0)
  | _ => s.unack o.unit o.seq

/-- Entries of a slice's deferral table in use: a queued STV takes five (R200). -/
def Block.tableUse (b : Block) : Nat :=
  b.stubs.length + (b.queued.map fun o => match o.kind with | .write _ n _ _ => if n = 128 then 5 else 1 | _ => 1).sum
/-- The same for the slice. -/
def Cluster.tableUse (c : Cluster) : Nat := (c.res.map fun p => p.2.b.tableUse).sum + (c.pads.map fun p => p.2.tableUse).sum
/-- A stub needs room in the table or its overflow area: 8,192 entries and 4 MiB of 32 bytes (R200). -/
def Cluster.tableRoom (c : Cluster) (before after : Block) : Bool :=
  decide (c.tableUse + after.tableUse - before.tableUse ≤ 8192 + 131072)

/-- The word of R370 for a slice, the syndrome left open. -/
def State.sliceError (s : State) (cl : BitVec 9) : Word :=
  (Config.free 2 s.tick).extractLsb' 0 32 ++ 0#9 ++ 0#6 ++ cl.extractLsb' 0 6 ++ clusterDie cl ++ 4#8

/-- A stub that finds table and overflow full is a machine check to the Keep, and ends the instance of the strand `who`, or of the node
instance `n`, that made it, on its module (R200, R319, R332). -/
def State.stubLost (s : State) (cl : BitVec 9) (who : Asker) (n : BitVec 32) : State :=
  let v := s.sliceError cl
  let s1 := s.tellKeep 3#8 cl.toNat
  match who with
  | .strand r => s1.endOwner r 19 v
  | .tongs r _ => s1.endOwner r 19 v
  | .copySource c id _ => s1.endNode ((Maps.get (s1.cluster c).eng.active id).elim n fun x => (x.reqs.head?).elim n CopyReq.node) 19 v
  | .remote m _ r => s1.routed m (.lost r n 19 v)
  | _ => s1.endNode n 19 v
/-- An operation whose stub finds both full. -/
def State.overflow (s : State) (cl : BitVec 9) (o : Op) : State :=
  s.stubLost cl o.asker (match o.kind with | .watcher _ n => n | _ => o.node)
/-- A stub of an applied log that finds both full. -/
def State.stubOverflow (s : State) (cl : BitVec 9) (x : Stub) : State :=
  match x with
  | .reader who _ _ => s.stubLost cl who 0
  | .watcher _ n _ _ none => s.stubLost cl .nobody n
  | .watcher _ n _ _ (some m) => s.stubLost cl (.remote m 0 0) n
/-- Room in a slice's table and overflow area for stubs of a block that is not resident yet. -/
def Cluster.stubRoom (c : Cluster) : Nat := 8192 + 131072 - c.tableUse

/-- Outcomes of queued writes, wakes, lost watchers and trace entries of an operation. -/
def State.spread (s : State) (cl : BitVec 9) (p : Place) (a : Act) : State :=
  let s1 := a.notes.foldl (fun t n => t.trace cl n) s
  let s2 := a.woken.foldl (fun t w => t.wakeStub p w.1 w.2) s1
  let s3 := a.late.foldl (fun t w => t.tallyOp w.1 w.2.1 w.2.2) s2
  a.lost.foldl (fun t x => t.loseWatcher x) s3

/-- The bits that a read reports to its batch. -/
def State.readTally (s : State) (b : Block) (o : Op) : State :=
  match o.kind with
  | .read true => s.tallyOp o (b.readBits o) (causeOf (b.readBits o))
  | _ => s

/-- An operation has taken effect: everything but the block itself. -/
def State.settle (s : State) (cl : BitVec 9) (p : Place) (o : Op) (before : Block) (a : Act) : State :=
  let s1 := (s.spread cl p a).readTally before o
  match a.reply with
  | some r =>
    let s2 := (s1.record cl o r).answer o r
    match r with
    | .report bits cause => s2.tallyOp o bits cause
    | _ => s2
  | none =>
    let s2 := s1.record cl o (.report 0 0)
    if a.parks then (s2.countPark cl o).parkAsker o else s2.answer o (.report 0 0)

/-! ### Poison of a block (R256, R367, R368) -/

/-- A space-0 block is poisoned where it stands, `b` being its state as far as the home still holds it and `gone` the stubs lost with
their entries. Of a block that is not resident the stubs that stay are log entries again. -/
def State.poisonBlock (s : State) (cl : BitVec 9) (blk : Nat) (b : Block) (destroyed : Bool) (gone : List Stub) : State :=
  if b.poisoned then s
  else
    let a := b.poison destroyed gone
    let c := s.cluster cl
    let log := evictionLog a.b s.tick
    let s1 := match Maps.get c.res blk with
      | some x => (s.setCluster cl { c with res := Maps.put c.res blk { x with b := a.b, dirty := true } }).writeState blk a.b false
      | none => (s.setCluster cl { c with logs := match log with | none => Maps.del c.logs blk | some l => Maps.put c.logs blk l }).writeState blk a.b log.isSome
    s1.spread cl (.dom cl blk) a

/-- Does neither line give the presence word of a block that is not resident, and nothing else hold it (R198)? -/
def State.lostPw (s : State) (cl : BitVec 9) (blk : Nat) : Bool :=
  s.badLine blk 0 && s.badLine blk 1 && (s.cachedPw blk).isNone && (Maps.get (s.cluster cl).logs blk).isNone
/-- The home reads the presence word of a block that is not resident: from HBM, which is an access of its row (R377), unless the presence
cache or a descriptor holds it (R197). -/
def State.readPw (s : State) (cl : BitVec 9) (blk : Nat) : State :=
  if (s.cachedPw blk).isNone && (Maps.get (s.cluster cl).logs blk).isNone then s.activate blk else s
/-- A block of which neither line gives it is poisoned, at generation 0, before an operation takes effect at it (R198, R368). -/
def State.checkPw (s : State) (cl : BitVec 9) (blk : Nat) : State :=
  if s.lostPw cl blk then (s.readPw cl blk).poisonBlock cl blk (s.hbmState blk) false [] else s.readPw cl blk

/-! ### Arrival at the home -/

/-- The operation with the moment of its arrival, from its first coming on (R273). -/
def State.stamp (s : State) (cl : BitVec 9) (b : Block) (l : Bool) (o : Op) : Op :=
  if o.came.isSome then o else { o with came := some { tick := s.tick, cycle := (s.die (clusterDie cl)).cycle, pw := b.pw l } }
/-- A write that may be queued carries the moment of its arrival. -/
def State.stampQueued (s : State) (cl : BitVec 9) (b : Block) (o : Op) : Op :=
  match o.kind with
  | .write _ _ _ true => s.stamp cl b false o
  | _ => o
/-- A message waits at its home for the block (R252). -/
def State.hold (s : State) (m : Nat) (cl : BitVec 9) (blk : Nat) (o : Op) : State :=
  let e := s.effective cl blk
  { s with net := Maps.put s.net m (.op (s.stamp cl e.1 e.2 o)) }.fetch cl blk [m]

/-- DISCARD frees the frame without write-back (R238): unless the new generation holds bytes; watchers become log entries,
and where the Crucible has no room for them the block keeps its frame, EMPTY at its new generation (log entry 96). -/
def State.freeFrame (s : State) (cl : BitVec 9) (blk : Nat) (b : Block) : Option State :=
  let log := evictionLog b s.tick
  let fits := match log with | none => true | some l => decide ((s.cluster cl).crucible + 96 + l.bytes ≤ 58982)
  if b.mask == 0 && !b.full && fits then
    let s2 := s.writeState blk b log.isSome
    let c := s2.cluster cl
    some (s2.setCluster cl { c with res := Maps.del c.res blk, logs := match log with | none => c.logs | some l => Maps.put c.logs blk l })
  else none

/-- An operation at a resident block (R197, R202 to R209, R238). -/
def State.applyResident (s : State) (cl : BitVec 9) (blk : Nat) (x : Resident) (o1 : Op) : State :=
  let o := s.stampQueued cl x.b o1
  let a := x.b.act false o
  if (a.parks || a.queues) && !(s.cluster cl).tableRoom x.b a.b then s.overflow cl o
  else
    let s1 :=
      match (if o.kind == .discard && a.cleared then s.freeFrame cl blk a.b else none) with
      | some t => t
      | none =>
        let c := s.cluster cl
        s.setCluster cl { c with res := Maps.put c.res blk { b := a.b, used := s.tick, dirty := x.dirty || { a.b with stubs := [] } != { x.b with stubs := [] } } }
    s1.settle cl (.dom cl blk) o x.b a

/-- An operation that finds no block here: the slot it named has left the scratchpad, or its handle has no translation (R222, R229,
R243). It has no effect; what reports reports XLATE, and who waits learns the same. -/
def State.noBlock (s : State) (o : Op) : State :=
  let s1 := match o.kind with
    | .read _ => s.tallyOp o 0 0
    | _ => s.tallyOp o bXlate 18
  s1.answer o (.report bXlate 18)

/-- An operation at a scratchpad block (R222). -/
def State.applyPad (s : State) (cl : BitVec 9) (slot : BitVec 9) (o1 : Op) : State :=
  let c := s.cluster cl
  let b := Maps.getD c.pads slot.toNat Block.mapped
  let o := s.stampQueued cl b o1
  let a := b.act false o
  if c.padSlots ≤ slot.toNat then s.noBlock o
  else if (a.parks || a.queues) && !c.tableRoom b a.b then s.overflow cl o
  else (s.setCluster cl { c with pads := Maps.put c.pads slot.toNat a.b }).settle cl (.pad cl slot) o b a

/-- May the operation be taken in while its block is not resident (R244)? A copy source and a host access make it resident. -/
def Op.loggable (o : Op) (b : Block) : Bool :=
  match o.kind with
  | .accum _ _ _ _ _ _ => true
  | .arrival => true
  | .read c => !c && !b.full && !o.ofEngine && !o.ofPort
  | .wait => !b.full
  | .watcher _ _ => true
  | .clear x => !x
  | .discard => true
  | .arm _ => true
  | .probe => true
  | _ => false

/-- Was the operation taken in, so that a descriptor stands (R245, R247)? -/
def Act.taken (a : Act) (b : Block) : Bool :=
  a.parks || a.cleared || a.sealed || a.combined || a.b != b || (match a.reply with | some (.status 0 _) => true | _ => false)

/-- Forced fetches (R252): past 58,982 bytes the blocks with the largest logs, the oldest first. -/
def State.relieve (s : State) (fuel : Nat) (cl : BitVec 9) : State :=
  match fuel with
  | 0 => s
  | fuel + 1 =>
    let c := s.cluster cl
    let rest := c.logs.filter fun p => (Maps.get c.fills p.1).isNone
    let used := (rest.map fun p => 96 + p.2.bytes).sum
    if used ≤ 58982 then s
    else match rest.foldl (fun (best : Option (Nat × Log)) p =>
        match best with
        | none => some p
        | some q => if q.2.bytes < p.2.bytes || (q.2.bytes == p.2.bytes && decide (p.2.born < q.2.born)) then some p else best) none with
      | none => s
      | some p => (s.forceFill cl p.1 []).relieve fuel cl

/-- An operation at a block that is not resident: answered, logged, or made to wait for the block (R244, R247, R252). A poisoned
block is never logged (R368), but what leaves it as it is, a check among it, is answered without its payload (R197). -/
def State.applyLogged (s : State) (m : Nat) (cl : BitVec 9) (blk : Nat) (o : Op) : State :=
  let e := s.effective cl blk
  let a := e.1.act e.2 o
  if (e.1.poisoned && a.taken e.1) || !(o.loggable e.1 || e.1.poisoned) then
    s.hold m cl blk o
  else
    let s0 := s.take m
    if !a.taken e.1 then s0.settle cl (.dom cl blk) o e.1 a
    else
      let c := s.cluster cl
      let old : Log := Maps.getD c.logs blk { desc := { e.1 with stubs := [] }, entries := [], born := s.tick }
      let new := old.append o a
      if 65536 < c.crucible - (if e.2 then 96 + old.bytes else 0) + 96 + new.bytes then
        { s with net := Maps.put s.net m (.op (s.stamp cl e.1 e.2 o)) }.forceFill cl blk [m]
      else
        let s1 := (s0.setCluster cl { c with logs := Maps.put c.logs blk new }).setL cl blk
        let s2 := s1.settle cl (.dom cl blk) o e.1 a
        let s3 := if 2048 < new.bytes then s2.forceFill cl blk [] else s2
        s3.relieve (s3.cluster cl).logs.length cl

/-- The recorded outcome of a repeated operation (R255). -/
def State.seen (s : State) (cl : BitVec 9) (o : Op) : Option Reply :=
  match Maps.get (s.cluster cl).windows o.unit with
  | none => none
  | some w => (w.seen.find? fun p => p.1 == o.seq).map Prod.snd

/-- An operation reaches its home. -/
def State.arriveAt (s : State) (m : Nat) (cl : BitVec 9) (o : Op) : State :=
  match s.seen cl o with
  | some r => (s.take m).answer o r
  | none =>
    match o.place with
    | .off _ => s
    | .pad _ slot => (s.take m).applyPad cl slot o
    | .dom _ blk =>
      let c := s.cluster cl
      if (Maps.get c.fills blk).isSome then s.hold m cl blk o
      else match Maps.get c.res blk with
        | some x => (s.take m).applyResident cl blk x o
        | none => (s.checkPw cl blk).applyLogged m cl blk o

/-- The event in which message `m`, an operation of the wanted kind, reaches its home. -/
def State.homeEvent (s : State) (m : Nat) (want : OpKind → Bool) : State :=
  match Maps.get s.net m with
  | some (.op o) =>
    if want o.kind then
      match o.place with
      | .dom c _ => (s.rouse (clusterDie c)).arriveAt m c o
      | .pad c _ => (s.rouse (clusterDie c)).arriveAt m c o
      | .off _ => s
    else s
  | _ => s

/-- A waiting operation is served when its block is resident (R252). -/
def State.serveWaiting (s : State) (cl : BitVec 9) (m : Nat) : State :=
  match Maps.get s.net m with
  | some (.op o) => s.arriveAt m cl o
  | _ => s

/-- A POISON report beyond an operation's own outcome: a bit without a count (R199). A copy engine's write reports it where its
command is counted. -/
def State.tallyMerge (s : State) (w : Op) : State :=
  let x := { Sum.one w.ordinal.toNat 0 bPoison 17 w.h with count := 0 }
  match w.asker with
  | .copyDest cl _ _ _ => s.tally (homeEngine cl) w.tracker w.batch x
  | .remote m cl _ =>
    if w.ofEngine then s.routed m (.late cl (w.tracker / 512) w.batch w.ordinal bPoison 17 w.h)
    else s.tally (homeOf w.place) w.tracker w.batch x
  | _ => if w.counted then s.tally (homeOf w.place) w.tracker w.batch x else s

/-- A merge that meets an uncorrectable line poisons the block (R199): POISON goes to the batch of the write `first` that caused
it, otherwise of the write that last added to the mask, as `b` knows it. R199 says so of a merge that a read or a seal causes; of one
that neither causes, as a PREF, a forced fetch or a scrub does, the same is the model's choice (log entry 101). A block whose value stands
whole in HBM has no merge. -/
def State.mergeFailed (s : State) (whole : Bool) (b : Block) (first : Option Op) : State :=
  if whole then s
  else match first, b.lastWrite with
    | some w, _ => s.tallyMerge w
    | none, some w => s.tallyMerge w
    | none, none => s

end Sys2Proof.Machine
end

