-- ==== Sys2Proof/Machine/HomeEvents.lean ====
section
/-!
DEFINITION. The events at a home slice: operations arriving, fills, the dedupe windows, retransmission (R202 to R209, R222,
R238, R248, R252, R255).
-/
namespace Sys2Proof.Machine

/-- HOME_READ (R204, R215). -/
def execHomeRead (m : Nat) (s : State) : Host.Outcome State Fault Refusal :=
  .next (s.homeEvent m fun k => match k with | .read _ => true | .wait => true | _ => false)
/-- HOME_WRITE (R202). -/
def execHomeWrite (m : Nat) (s : State) : Host.Outcome State Fault Refusal :=
  .next (s.homeEvent m fun k => match k with | .write _ _ _ _ => true | _ => false)
/-- HOME_SEAL (R203). -/
def execHomeSeal (m : Nat) (s : State) : Host.Outcome State Fault Refusal :=
  .next (s.homeEvent m fun k => match k with | .seal _ => true | _ => false)
/-- HOME_ARRIVAL (R205). -/
def execHomeArrival (m : Nat) (s : State) : Host.Outcome State Fault Refusal :=
  .next (s.homeEvent m fun k => match k with | .arrival => true | _ => false)
/-- HOME_ACCUMULATE (R248). -/
def execHomeAccumulate (m : Nat) (s : State) : Host.Outcome State Fault Refusal :=
  .next (s.homeEvent m fun k => match k with | .accum _ _ _ _ _ _ => true | _ => false)
/-- HOME_ARM (R206). -/
def execHomeArm (m : Nat) (s : State) : Host.Outcome State Fault Refusal :=
  .next (s.homeEvent m fun k => match k with | .arm _ => true | _ => false)
/-- HOME_RELEASE (R208). -/
def execHomeRelease (m : Nat) (s : State) : Host.Outcome State Fault Refusal :=
  .next (s.homeEvent m fun k => match k with | .release => true | _ => false)
/-- HOME_CLEAR (R209). -/
def execHomeClear (m : Nat) (s : State) : Host.Outcome State Fault Refusal :=
  .next (s.homeEvent m fun k => match k with | .clear _ => true | _ => false)
/-- HOME_DISCARD (R238). -/
def execHomeDiscard (m : Nat) (s : State) : Host.Outcome State Fault Refusal :=
  .next (s.homeEvent m fun k => match k with | .discard => true | _ => false)
/-- HOME_PROBE (R216, R217). -/
def execHomeProbe (m : Nat) (s : State) : Host.Outcome State Fault Refusal :=
  .next (s.homeEvent m fun k => match k with | .probe => true | _ => false)
/-- WATCHER_REGISTER (R50, R51). -/
def execWatcherRegister (m : Nat) (s : State) : Host.Outcome State Fault Refusal :=
  .next (s.homeEvent m fun k => match k with | .watcher _ _ => true | _ => false)

/-- A resident block is poisoned as its fill ends (R199, R368): the error is logged (R371), the state written with what `kept` leaves of
it, and the report made of the merge into `before` that `first` caused, unless HBM held the value `whole`. -/
def State.poisonFilled (s : State) (cl : BitVec 9) (blk : Nat) (whole : Bool) (before : Block) (kept : Block → Block) (first : Option Op) :
    State :=
  match Maps.get (s.cluster cl).res blk with
  | none => s
  | some x =>
    let a := (kept x.b).poison false []
    let c := s.cluster cl
    let s1 := (s.setCluster cl { c with res := Maps.put c.res blk { x with b := a.b, dirty := true } }).writeState blk a.b false
    ((s1.lineError blk 2).mergeFailed whole before first).spread cl (.dom cl blk) a

/-- The write that last added to the mask of a block that is not resident (R199). -/
def State.lastAdded (s : State) (cl : BitVec 9) (blk : Nat) : Option Op :=
  match Maps.get (s.cluster cl).logs blk with
  | some l => l.desc.lastWrite
  | none => (s.hbmState blk).lastWrite

/-- The write that waits first for a fill, if a write does: it applies before the payload is read, and the merge is its own (R199). -/
def State.firstWrite (s : State) (ms : List Nat) : Option (Nat × Op) :=
  match ms with
  | [] => none
  | m :: _ =>
    match Maps.get s.net m with
    | some (.op o) => (match o.kind with | .write _ _ _ _ => some (m, o) | _ => none)
    | _ => none

/-- The home answers a PREF that asked for a copy (R237): the block is placed in the cluster it names if it is FULL at the handle's
generation, on this module, where the cluster's die leaves its idle state for it (R363), or on the one that asked. -/
def State.answerPref (s : State) (b : Block) (h : Word) (frm : Option (BitVec 8)) (target : BitVec 9) : State :=
  if b.st == 1 && b.gen == Handle.gen h && !b.poisoned then
    match frm with
    | none => if s.inService target then (s.rouse (clusterDie target)).placeCopy target h b.payload else s
    | some m => s.routed m (.copy h target b.payload)
  else s

/-- The copies that PREFs asked for while the block was not resident. -/
def State.answerPrefs (s : State) (cl : BitVec 9) (blk : Nat) : State :=
  let c := s.cluster cl
  match Maps.get c.res blk with
  | none => s
  | some x =>
    (c.prefs.filter fun p => p.1 == blk).foldl (fun t p => t.answerPref x.b p.2.1 p.2.2.1 p.2.2.2)
      (s.setCluster cl { c with prefs := c.prefs.filter fun p => p.1 != blk })

/-- BLOCK_FILL (R199, R222, R237, R251, R252): the block becomes resident, its log applied, its stubs in the deferral table as far as
there is room (R200); then the operations that waited take effect in their order of arrival. A line that cannot be read poisons the block,
after a write that came first has applied. -/
def execBlockFill (cl : BitVec 9) (blk : Nat) (s : State) : Host.Outcome State Fault Refusal :=
  match Maps.get (s.cluster cl).fills blk with
  | none => .next s
  | some ms =>
    match s.makeRoom cl with
    | none => .next s
    | some s1 =>
      let old := s1.hbmState blk
      let logged := (Maps.get (s1.cluster cl).logs blk).isSome
      let bad := !old.poisoned && s1.unreadable cl blk
      let kept : Block → Block := if logged then id else s1.keptItems blk
      let r := s1.resident cl blk
      let c := s1.cluster cl
      let b := { r with stubs := r.stubs.take c.stubRoom }
      let s2 := (s1.activate blk).setCluster cl
        { c with res := Maps.put c.res blk { b := b, used := s1.tick, dirty := logged }, logs := Maps.del c.logs blk
                 fills := Maps.del c.fills blk, pcache := Maps.del c.pcache blk }
      let s3 := if bad then
          match s2.firstWrite ms with
          | some (m, w) => (s2.serveWaiting cl m).poisonFilled cl blk old.full r kept (some w)
          | none => s2.poisonFilled cl blk old.full { r with lastWrite := s1.lastAdded cl blk } kept none
        else s2
      let s4 := (r.stubs.drop c.stubRoom).foldl (fun t x => t.stubOverflow cl x) (s3.answerPrefs cl blk)
      .next (ms.foldl (fun t m => t.serveWaiting cl m) s4)

/-- A slice takes the release of unit `u` (R255). -/
def State.releaseWindow (s : State) (cl : BitVec 9) (u : Nat) : State :=
  let c := s.cluster cl
  match Maps.get c.windows u with
  | none => s
  | some w => s.setCluster cl { c with windows := Maps.put c.windows u { w with released := true } }

/-- DEDUPE_RELEASE (R255): a unit without unacknowledged operations towards a home, a slice or another module, sends it its
release. -/
def execDedupeRelease (home u : Nat) (s : State) : Host.Outcome State Fault Refusal :=
  if 16384 ≤ u || s.unackedAt u home != 0 then .next s
  else if home < 512 then .next (s.releaseWindow (BitVec.ofNat 9 home) u)
  else if 2048 ≤ home && decide (home < 2304) then .next (s.routed (BitVec.ofNat 8 home) (.release u))
  else .next s

/-- Is a copy of an operation of unit `u` for slice `cl` under way? -/
def State.copyUnderWay (s : State) (cl : BitVec 9) (u : Nat) : Bool :=
  s.net.any fun p => match p.2 with | .op o => o.unit == u && homeOf o.place == cl.toNat | _ => false

/-- DEDUPE_WINDOW_EXPIRY (R255): a released window is dropped once no copy of an operation of its unit is under way. -/
def execDedupeWindowExpiry (cl : BitVec 9) (u : Nat) (s : State) : Host.Outcome State Fault Refusal :=
  let c := s.cluster cl
  match Maps.get c.windows u with
  | none => .next s
  | some w =>
    if w.released && !s.copyUnderWay cl u then .next (s.setCluster cl { c with windows := Maps.del c.windows u }) else .next s

/-- OPERATION_RETRANSMIT (R255): another copy of an unacknowledged operation under its sequence number; a SEND's write is in its
Lantern's hands (R304). -/
def execOperationRetransmit (u seq : Nat) (s : State) : Host.Outcome State Fault Refusal :=
  match (Maps.getD s.units u []).find? fun o => o.seq.toNat == seq with
  | none => .next s
  | some o =>
    match o.place with
    | .off _ => (match o.asker with | .circuit _ => .next s | _ => .next (s.forward o))
    | _ => .next (s.send (.op o))

end Sys2Proof.Machine
end

