-- ==== Sys2Proof/WellFormed.lean ====
section
/-!
DEFINITION. Which instructions are legal: the register classes of R80, the limits of R85 and, for every extended-only
member, which fields it uses (R162, R183, R212, R236, R257, R305). A field that a member does not use is zero (R79).
-/
namespace Sys2Proof

/-- The class an operand field requires (R80): `zero` for an unused field, `vec` for vectors, tiles and descriptors. -/
inductive Cls where
  | zero | any | g | p | vec
  deriving DecidableEq, Repr

/-- Does field value `v` lie in the class (R80)? -/
def Cls.ok (c : Cls) (v : BitVec 4) : Bool :=
  match c with
  | .zero => v == 0#4
  | .any => true
  | .g => decide (v.toNat < 8)
  | .p => decide (8 ≤ v.toNat)
  | .vec => decide (v.toNat < 8)

/-- Integer element types, codes 0x1 to 0x6 (R81). -/
def Fmt.isInt (f : BitVec 4) : Bool := decide (1 ≤ f.toNat) && decide (f.toNat ≤ 6)

/-- Float element types, codes 0x8 to 0xB (R81, R162). -/
def Fmt.isFloat (f : BitVec 4) : Bool := decide (8 ≤ f.toNat) && decide (f.toNat ≤ 11)

/-- How a member takes the RM field (R85, R162, R183). -/
inductive RmUse where
  | none | round | roundFloat
  deriving DecidableEq, Repr

/-- A rounding field holds 0 or 4 to 7; 1 to 3 are reserved (R76). -/
def rmLegal (rm : BitVec 3) : Bool := rm == 0#3 || decide (4 ≤ rm.toNat)

/-- The fields an extended-only member uses; what it leaves out must be zero (R79). -/
structure XSpec where
  rd : Cls := .zero
  ra : Cls := .zero
  rb : Cls := .zero
  rc : Cls := .zero
  re : Cls := .zero
  /-- Bit `n` set: FMT code `n` is accepted. -/
  fmts : BitVec 16 := 1#16
  rm : RmUse := .none
  mods : BitVec 2 := 0#2
  /-- The MOD flag is `.s`, taken on integer formats alone. -/
  sInt : Bool := false
  lme : Bool := false
  bx : Bool := false
  /-- A block operand with the offset imm12 of AM 0. -/
  mem : Bool := false
  /-- Bit `n` set: addressing mode `n` is accepted. -/
  ams : BitVec 4 := 1#4
  bit : Bool := false

/-- The rules of R79 and R85 for the fields of an extended-only member, IMM6 apart. -/
def XOp.fits (o : XOp) (s : XSpec) : Bool :=
  s.rd.ok o.rd && s.ra.ok o.ra && s.rb.ok o.rb && s.rc.ok o.rc
    && (if o.am == 1#2 then Cls.g.ok o.re else s.re.ok o.re)
    && (o.imm12 == 0#12 || (s.mem && o.am == 0#2))
    && s.ams.getLsbD o.am.toNat
    && s.fmts.getLsbD o.fmt.toNat
    && (o.fd == 0#3 || o.fmt == 11#4)
    && (match s.rm with
        | .none => o.rm == 0#3
        | .round => rmLegal o.rm
        | .roundFloat => o.rm == 0#3 || (rmLegal o.rm && Fmt.isFloat o.fmt))
    && (o.mod == 0#2 || (o.mod &&& s.mods == o.mod && (!s.sInt || Fmt.isInt o.fmt)))
    && (if o.lme then s.lme else o.lmr == 0#3)
    && o.scope == 0#3
    && (if o.bx then s.bx else o.bn == 0#2)
    && (s.bit || o.bit == 0#6)

/-- A base form carries no guard (R83). -/
def Form.ok (f : Form) : Bool := f.ext || f.gd.isNone

/-- The window layout of R78: relative bits only for the fields used, IDX only with a relative bit, RM only on the
members that round. -/
def WForm.ok (f : WForm) (rounds d a b c : Bool) : Bool :=
  (f.ext || (f.gd.isNone && f.rm == 0#3 && !f.rd && !f.ra && !f.rb && !f.rc))
    && (if rounds then rmLegal f.rm else f.rm == 0#3)
    && (d || !f.rd) && (a || !f.ra) && (b || !f.rb) && (c || !f.rc)
    && (f.idx == 0#3 || f.rd || f.ra || f.rb || f.rc)

/-- Which fields each extended-only member uses. -/
def Instr.xspec (i : Instr) : XSpec :=
  match i with
  | .ld _ => { rd := .any, ra := .p, fmts := 0xF#16, mods := 2#2, mem := true, ams := 7#4 }
  | .ldv _ => { rd := .vec, ra := .p, fmts := 0xF7E#16, mods := 2#2, mem := true, ams := 7#4 }
  | .wld _ => { ra := .p, mods := 2#2, mem := true, bit := true, ams := 7#4 }
  | .st _ => { rd := .any, ra := .p, fmts := 0x8#16, mods := 1#2, bx := true, mem := true, ams := 7#4 }
  | .stv _ => { rd := .vec, ra := .p, mods := 1#2, bx := true, mem := true, ams := 7#4 }
  | .wait _ => { rd := .any, ra := .p, mem := true, ams := 3#4 }
  | .probe _ => { rd := .any, ra := .p, mem := true, bit := true, ams := 3#4 }
  | .seal _ => { ra := .p, bx := true, mem := true, ams := 3#4 }
  | .seale _ => { ra := .p, bx := true, mem := true, ams := 3#4 }
  | .arm _ => { rd := .g, ra := .p, rb := .g, mem := true, ams := 3#4 }
  | .clr _ => { rd := .g, ra := .p, mem := true, ams := 3#4 }
  | .clrx _ => { rd := .g, ra := .p, mem := true, ams := 3#4 }
  | .rel _ => { ra := .p, mem := true, ams := 3#4 }
  | .fill _ => { ra := .p, rb := .any, bx := true, mem := true, ams := 7#4 }
  | .fillLiteral _ _ => { ra := .p, bx := true, mem := true, ams := 7#4 }
  | .genr _ => { rd := .any, ra := .p, mem := true, ams := 3#4 }
  | .acc _ => { rd := .vec, ra := .p, fmts := 0x778#16, mods := 1#2, bx := true, mem := true, ams := 7#4 }
  | .acct _ => { rd := .vec, ra := .p, fmts := 0x140#16, mods := 1#2, bx := true, mem := true, ams := 5#4 }
  | .acnt _ => { rd := .g, ra := .p, mem := true, ams := 3#4 }
  | .pref _ => { ra := .p, rb := .any, mem := true, ams := 3#4 }
  | .discard _ => { rd := .g, ra := .p, mem := true, ams := 3#4 }
  | .migr _ => { ra := .p, mem := true, ams := 3#4 }
  | .cpy _ => { rd := .g, ra := .p, rb := .p, bx := true, mem := true, ams := 3#4 }
  | .cpys _ => { rd := .g, ra := .p, rb := .p, rc := .g, bx := true, mem := true, ams := 3#4 }
  | .cpyx _ => { ra := .p, rb := .p, fmts := 0x638#16, bx := true, mem := true, ams := 3#4 }
  | .cpyh _ => { rd := .g, ra := .p, rb := .g, bx := true, mem := true, ams := 3#4 }
  | .hadd _ => { rd := .g, ra := .g, rb := .g }
  | .hcas _ => { rd := .g, ra := .g, rb := .g, rc := .g }
  | .vadd _ => { rd := .vec, ra := .vec, rb := .vec, fmts := 0xF7E#16, rm := .roundFloat, mods := 1#2, sInt := true, lme := true }
  | .vsub _ => { rd := .vec, ra := .vec, rb := .vec, fmts := 0xF7E#16, rm := .roundFloat, mods := 1#2, sInt := true, lme := true }
  | .vmul _ => { rd := .vec, ra := .vec, rb := .vec, fmts := 0xF7E#16, rm := .roundFloat, mods := 1#2, sInt := true, lme := true }
  | .vfma _ => { rd := .vec, ra := .vec, rb := .vec, rc := .vec, fmts := 0xF7E#16, rm := .roundFloat, mods := 1#2, sInt := true, lme := true }
  | .vfms _ => { rd := .vec, ra := .vec, rb := .vec, rc := .vec, fmts := 0xF7E#16, rm := .roundFloat, mods := 1#2, sInt := true, lme := true }
  | .vmin _ => { rd := .vec, ra := .vec, rb := .vec, fmts := 0xF7E#16, lme := true }
  | .vmax _ => { rd := .vec, ra := .vec, rb := .vec, fmts := 0xF7E#16, lme := true }
  | .vabs _ => { rd := .vec, ra := .vec, fmts := 0xF7E#16, mods := 1#2, sInt := true, lme := true }
  | .vneg _ => { rd := .vec, ra := .vec, fmts := 0xF6A#16, mods := 1#2, sInt := true, lme := true }
  | .vand _ => { rd := .vec, ra := .vec, rb := .vec, fmts := 0xF7E#16, lme := true }
  | .vor _ => { rd := .vec, ra := .vec, rb := .vec, fmts := 0xF7E#16, lme := true }
  | .vxor _ => { rd := .vec, ra := .vec, rb := .vec, fmts := 0xF7E#16, lme := true }
  | .vshl _ => { rd := .vec, ra := .vec, rb := .vec, fmts := 0x7E#16, lme := true }
  | .vshr _ => { rd := .vec, ra := .vec, rb := .vec, fmts := 0x7E#16, lme := true }
  | .vsra _ => { rd := .vec, ra := .vec, rb := .vec, fmts := 0x7E#16, lme := true }
  | .vcvt _ => { rd := .vec, ra := .vec, fmts := 0xF7E#16, rm := .roundFloat, lme := true }
  | .vscl _ => { rd := .vec, ra := .vec, rb := .vec, fmts := 0xF00#16, rm := .roundFloat, lme := true }
  | .vrcp _ => { rd := .vec, ra := .vec, fmts := 0x700#16, rm := .roundFloat, lme := true }
  | .vrsq _ => { rd := .vec, ra := .vec, fmts := 0x700#16, rm := .roundFloat, lme := true }
  | .vexp2 _ => { rd := .vec, ra := .vec, fmts := 0x700#16, rm := .roundFloat, lme := true }
  | .vlog2 _ => { rd := .vec, ra := .vec, fmts := 0x700#16, rm := .roundFloat, lme := true }
  | .vtanh _ => { rd := .vec, ra := .vec, fmts := 0x700#16, rm := .roundFloat, lme := true }
  | .vred _ => { rd := .vec, ra := .vec, fmts := 0xF7E#16, rm := .roundFloat, mods := 1#2, sInt := true, lme := true }
  | .vcmp _ => { rd := .g, ra := .vec, rb := .vec, fmts := 0x760#16, lme := true }
  | .vsel _ => { rd := .vec, ra := .vec, rb := .vec, re := .g, fmts := 0xF7E#16, lme := true }
  | .vperm _ => { rd := .vec, ra := .vec, rb := .vec, fmts := 0xF7E#16, lme := true }
  | .vbcast _ => { rd := .vec, ra := .g, fmts := 0xF7E#16, lme := true }
  | .vbcastLiteral _ _ => { rd := .vec, fmts := 0xF7E#16, lme := true }
  | .vins _ => { rd := .vec, ra := .g, rb := .g, fmts := 0xF7E#16, lme := true }
  | .vext _ => { rd := .g, ra := .vec, rb := .g, fmts := 0xF7E#16 }
  | .viota _ => { rd := .vec, ra := .g, fmts := 0x7E#16, lme := true }
  | .vzero _ => { rd := .vec, fmts := 0xF7F#16, lme := true }
  | .vtag _ => { rd := .vec, ra := .vec, fmts := 0xF7E#16 }
  | .vsettToDescriptor _ => { rd := .vec, ra := .g }
  | .vsettFromDescriptor _ => { rd := .g, ra := .vec }
  | .vpack _ => { rd := .vec, ra := .vec, rb := .vec, fmts := 0x7E#16, lme := true }
  | .vunpk _ => { rd := .vec, ra := .vec, fmts := 0x7E#16, lme := true }
  | .tacq _ => { rd := .vec, fmts := 0x140#16 }
  | .trel _ => { rd := .vec }
  | .tzero _ => { rd := .vec }
  | .tld _ => { rd := .vec, ra := .p, ams := 5#4 }
  | .tst _ => { rd := .vec, ra := .p, fmts := 0xF7E#16, rm := .roundFloat, bx := true, ams := 5#4 }
  | .taddr _ => { rd := .vec, ra := .vec, fmts := 0x140#16, rm := .round }
  | .taddc _ => { rd := .vec, ra := .vec, fmts := 0x140#16, rm := .round }
  | .tscl _ => { rd := .vec, ra := .vec, fmts := 0x100#16, rm := .round }
  | .tmaxr _ => { rd := .vec, ra := .vec, fmts := 0x140#16 }
  | .tsumr _ => { rd := .vec, ra := .vec, fmts := 0x140#16, rm := .round, mods := 1#2, sInt := true }
  | .texpr _ => { rd := .vec, ra := .vec, fmts := 0x100#16, rm := .round }
  | .trdv _ => { rd := .vec, ra := .vec, rb := .g, fmts := 0x140#16 }
  | .twrv _ => { rd := .vec, ra := .vec, rb := .g, fmts := 0x140#16 }
  | .mma _ => { rd := .vec, ra := .p, rb := .p, fmts := 0xE00#16, ams := 5#4 }
  | .mmas _ => { rd := .vec, ra := .p, rb := .p, rc := .p, re := .p, fmts := 0x800#16, ams := 5#4 }
  | .mmai _ => { rd := .vec, ra := .p, rb := .p, fmts := 0x1E#16, ams := 5#4 }
  | .topk _ => { rd := .vec, ra := .vec, rb := .g }
  | .topkm _ => { rd := .vec, ra := .vec }
  | .send _ => { rd := .g, ra := .p, rb := .p, bx := true }
  | .chmk _ => { rd := .g, ra := .g, rb := .g }
  | .rcir _ => { rd := .g, ra := .g, rb := .g }
  | .tgenr _ => { rd := .g }
  | _ => { }

/-- Is the instruction legal (R85)? An event has no encoding; its arguments are checked where it takes effect. -/
def WellFormed (i : Instr) : Bool :=
  match i with
  | .add f _ _ _ => f.ok
  | .sub f _ _ _ => f.ok
  | .mul f _ _ _ => f.ok
  | .mulh f _ _ _ => f.ok
  | .mulhu f _ _ _ => f.ok
  | .div f _ _ _ => f.ok
  | .divu f _ _ _ => f.ok
  | .rem f _ _ _ => f.ok
  | .remu f _ _ _ => f.ok
  | .and f _ _ _ => f.ok
  | .or f _ _ _ => f.ok
  | .xor f _ _ _ => f.ok
  | .andn f _ _ _ => f.ok
  | .shl f _ _ _ => f.ok
  | .shr f _ _ _ => f.ok
  | .sra f _ _ _ => f.ok
  | .ror f _ _ _ => f.ok
  | .min f _ _ _ => f.ok
  | .max f _ _ _ => f.ok
  | .minu f _ _ _ => f.ok
  | .maxu f _ _ _ => f.ok
  | .clz f _ _ => f.ok
  | .ctz f _ _ => f.ok
  | .popc f _ _ => f.ok
  | .brev f _ _ => f.ok
  | .abs f _ _ => f.ok
  | .sext f _ _ _ => f.ok
  | .zext f _ _ _ => f.ok
  | .mov f _ _ => f.ok
  | .addi f _ _ _ => f.ok
  | .andi f _ _ _ => f.ok
  | .ori f _ _ _ => f.ok
  | .xori f _ _ _ => f.ok
  | .addiLiteral f _ _ _ => f.ok
  | .andiLiteral f _ _ _ => f.ok
  | .oriLiteral f _ _ _ => f.ok
  | .xoriLiteral f _ _ _ => f.ok
  | .shli f _ _ _ => f.ok
  | .shri f _ _ _ => f.ok
  | .srai f _ _ _ => f.ok
  | .rori f _ _ _ => f.ok
  | .movi f _ _ => f.ok
  | .movhi f _ _ => f.ok
  | .ldk f _ _ => f.ok
  | .bfx f _ _ pos len1 => f.ok && decide (pos.toNat + len1.toNat < 64)
  | .bfxu f _ _ pos len1 => f.ok && decide (pos.toNat + len1.toNat < 64)
  | .bfi f _ _ pos len1 => f.ok && decide (pos.toNat + len1.toNat < 64)
  | .ceq f _ _ _ _ => f.ok
  | .cne f _ _ _ _ => f.ok
  | .clt f _ _ _ _ => f.ok
  | .cltu f _ _ _ _ => f.ok
  | .cle f _ _ _ _ => f.ok
  | .cleu f _ _ _ _ => f.ok
  | .ceqi f _ _ _ _ => f.ok
  | .clti f _ _ _ _ => f.ok
  | .ceqiLiteral f _ _ _ _ => f.ok
  | .cltiLiteral f _ _ _ _ => f.ok
  | .bset f _ _ _ => f.ok
  | .bclr f _ _ _ => f.ok
  | .binv f _ _ _ => f.ok
  | .bmov f _ _ _ _ => f.ok
  | .sel f _ _ _ _ => f.ok
  | .pmk f rd ra rb => f.ok && Cls.p.ok rd && Cls.g.ok ra && Cls.g.ok rb
  | .padd f rd ra rb => f.ok && Cls.p.ok rd && Cls.p.ok ra && Cls.g.ok rb
  | .pidx f rd ra rb => f.ok && Cls.p.ok rd && Cls.p.ok ra && Cls.g.ok rb
  | .psub f rd ra rb => f.ok && Cls.g.ok rd && Cls.p.ok ra && Cls.p.ok rb
  | .pgen f rd ra rb => f.ok && Cls.p.ok rd && Cls.p.ok ra && Cls.g.ok rb
  | .pinc f rd ra => f.ok && Cls.p.ok rd && Cls.p.ok ra
  | .pfld f rd ra sel => f.ok && Cls.g.ok rd && Cls.p.ok ra && decide (sel.toNat < 8)
  | .pblk f rd ra => f.ok && Cls.p.ok rd && Cls.p.ok ra
  | .paddi f rd ra _ => f.ok && Cls.p.ok rd && Cls.p.ok ra
  | .j f _ => f.ok
  | .jal f _ => f.ok
  | .jr f _ => f.ok
  | .jalr f _ _ => f.ok
  | .bbs f _ _ _ => f.ok
  | .bbc f _ _ _ => f.ok
  | .bz f _ _ => f.ok
  | .bnz f _ _ => f.ok
  | .dbnz f _ _ => f.ok
  | .nop f => f.ok
  | .fadd f _ _ _ => f.ok true true true true false
  | .fsub f _ _ _ => f.ok true true true true false
  | .fmul f _ _ _ => f.ok true true true true false
  | .fdiv f _ _ _ => f.ok true true true true false
  | .fsqrt f _ _ => f.ok true true true false false
  | .fmin f _ _ _ => f.ok false true true true false
  | .fmax f _ _ _ => f.ok false true true true false
  | .fabs f _ _ => f.ok false true true false false
  | .fneg f _ _ => f.ok false true true false false
  | .ffma f _ _ _ _ => f.ok true true true true true && f.ext
  | .ffms f _ _ _ _ => f.ok true true true true true && f.ext
  | .fclt f _ _ _ _ => f.ok false false true true false && f.ext
  | .fcle f _ _ _ _ => f.ok false false true true false && f.ext
  | .fceq f _ _ _ _ => f.ok false false true true false && f.ext
  | .wget f _ _ => f.ok false false true false false
  | .wput f _ _ => f.ok false true false false false
  | .wmov f _ _ => f.ok false true true false false
  | .fcvti f _ _ => f.ok true true true false false
  | .fcvtf f _ _ => f.ok true true true false false
  | .ldl f _ _ _ _ => f.ok
  | .ldlu f sz _ _ _ => f.ok && sz != 3#2
  | .stl f _ _ _ _ => f.ok
  | .wldl f _ _ _ => f.ok false true false false false
  | .wstl f _ _ _ => f.ok false true false false false
  | .ld o => o.fits (Instr.xspec (.ld o)) && (o.imm6 == 0#6)
  | .ldv o => o.fits (Instr.xspec (.ldv o)) && (o.imm6 == 0#6)
  | .wld o => o.fits (Instr.xspec (.wld o)) && (true)
  | .st o => o.fits (Instr.xspec (.st o)) && (o.imm6 == 0#6)
  | .stv o => o.fits (Instr.xspec (.stv o)) && (o.imm6 == 0#6)
  | .fill o => o.fits (Instr.xspec (.fill o)) && (decide (o.imm6.toNat < 32))
  | .fillLiteral o lit => o.fits (Instr.xspec (.fillLiteral o lit)) && (decide (o.imm6.toNat < 32))
  | .wait o => o.fits (Instr.xspec (.wait o)) && (o.imm6 == 1#6 || (o.imm6 == 0#6 && o.rd == 0#4))
  | .probe o => o.fits (Instr.xspec (.probe o)) && (o.imm6 == 1#6 || (o.imm6 == 0#6 && o.bit == 0#6))
  | .seal o => o.fits (Instr.xspec (.seal o)) && (o.imm6 == 0#6)
  | .seale o => o.fits (Instr.xspec (.seale o)) && (o.imm6 == 0#6)
  | .arm o => o.fits (Instr.xspec (.arm o)) && (o.imm6 == 0#6)
  | .clr o => o.fits (Instr.xspec (.clr o)) && (o.imm6 == 0#6)
  | .clrx o => o.fits (Instr.xspec (.clrx o)) && (o.imm6 == 0#6)
  | .rel o => o.fits (Instr.xspec (.rel o)) && (o.imm6 == 0#6)
  | .genr o => o.fits (Instr.xspec (.genr o)) && (o.imm6 == 0#6)
  | .acc o => o.fits (Instr.xspec (.acc o)) && (decide (o.imm6.toNat < 3) || (o.imm6 == 3#6 && Fmt.isInt o.fmt))
  | .acct o => o.fits (Instr.xspec (.acct o)) && (decide (o.imm6.toNat < 3) || (o.imm6 == 3#6 && Fmt.isInt o.fmt))
  | .acnt o => o.fits (Instr.xspec (.acnt o)) && (o.imm6 == 0#6)
  | .pref o => o.fits (Instr.xspec (.pref o)) && ((o.imm6 == 1#6 && Cls.g.ok o.rb) || (o.imm6 == 0#6 && o.rb == 0#4))
  | .discard o => o.fits (Instr.xspec (.discard o)) && (o.imm6 == 0#6)
  | .migr o => o.fits (Instr.xspec (.migr o)) && (o.imm6 == 0#6)
  | .cpy o => o.fits (Instr.xspec (.cpy o)) && (o.imm6 == 0#6)
  | .cpys o => o.fits (Instr.xspec (.cpys o)) && (o.imm6 == 0#6)
  | .cpyx o => o.fits (Instr.xspec (.cpyx o)) && (o.imm6 == 0#6)
  | .cpyh o => o.fits (Instr.xspec (.cpyh o)) && (o.imm6 == 0#6)
  | .hadd o => o.fits (Instr.xspec (.hadd o)) && (decide (o.imm6.toNat < 16))
  | .hcas o => o.fits (Instr.xspec (.hcas o)) && (decide (o.imm6.toNat < 16))
  | .vadd o => o.fits (Instr.xspec (.vadd o)) && (o.imm6 == 0#6)
  | .vsub o => o.fits (Instr.xspec (.vsub o)) && (o.imm6 == 0#6)
  | .vmul o => o.fits (Instr.xspec (.vmul o)) && (o.imm6 == 0#6)
  | .vfma o => o.fits (Instr.xspec (.vfma o)) && (o.imm6 == 0#6)
  | .vfms o => o.fits (Instr.xspec (.vfms o)) && (o.imm6 == 0#6)
  | .vmin o => o.fits (Instr.xspec (.vmin o)) && (o.imm6 == 0#6)
  | .vmax o => o.fits (Instr.xspec (.vmax o)) && (o.imm6 == 0#6)
  | .vabs o => o.fits (Instr.xspec (.vabs o)) && (o.imm6 == 0#6)
  | .vneg o => o.fits (Instr.xspec (.vneg o)) && (o.imm6 == 0#6)
  | .vand o => o.fits (Instr.xspec (.vand o)) && (o.imm6 == 0#6)
  | .vor o => o.fits (Instr.xspec (.vor o)) && (o.imm6 == 0#6)
  | .vxor o => o.fits (Instr.xspec (.vxor o)) && (o.imm6 == 0#6)
  | .vshl o => o.fits (Instr.xspec (.vshl o)) && (o.imm6 == 0#6)
  | .vshr o => o.fits (Instr.xspec (.vshr o)) && (o.imm6 == 0#6)
  | .vsra o => o.fits (Instr.xspec (.vsra o)) && (o.imm6 == 0#6)
  | .vcvt o => o.fits (Instr.xspec (.vcvt o)) && (decide (o.imm6.toNat < 8))
  | .vscl o => o.fits (Instr.xspec (.vscl o)) && (o.imm6.extractLsb' 0 2 != 3#2 && o.imm6.extractLsb' 2 3 == 0#3)
  | .vrcp o => o.fits (Instr.xspec (.vrcp o)) && (o.imm6 == 0#6)
  | .vrsq o => o.fits (Instr.xspec (.vrsq o)) && (o.imm6 == 0#6)
  | .vexp2 o => o.fits (Instr.xspec (.vexp2 o)) && (o.imm6 == 0#6)
  | .vlog2 o => o.fits (Instr.xspec (.vlog2 o)) && (o.imm6 == 0#6)
  | .vtanh o => o.fits (Instr.xspec (.vtanh o)) && (o.imm6 == 0#6)
  | .vred o => o.fits (Instr.xspec (.vred o)) && (decide (o.imm6.toNat < 3) || (o.imm6 == 3#6 && Fmt.isInt o.fmt)) && (o.mod == 0#2 || o.imm6 == 0#6)
  | .vcmp o => o.fits (Instr.xspec (.vcmp o)) && (decide (o.imm6.toNat < 6) || (o.imm6 == 6#6 && Fmt.isFloat o.fmt))
  | .vsel o => o.fits (Instr.xspec (.vsel o)) && (o.imm6 == 0#6)
  | .vperm o => o.fits (Instr.xspec (.vperm o)) && (o.imm6 == 0#6)
  | .vbcast o => o.fits (Instr.xspec (.vbcast o)) && (o.imm6 == 0#6)
  | .vbcastLiteral o lit => o.fits (Instr.xspec (.vbcastLiteral o lit)) && (o.imm6 == 0#6)
  | .vins o => o.fits (Instr.xspec (.vins o)) && (o.imm6 == 0#6)
  | .vext o => o.fits (Instr.xspec (.vext o)) && (o.imm6 == 0#6)
  | .viota o => o.fits (Instr.xspec (.viota o)) && (o.imm6 == 0#6)
  | .vzero o => o.fits (Instr.xspec (.vzero o)) && (o.imm6 == 0#6 && !(o.fmt == 0#4 && o.lme))
  | .vtag o => o.fits (Instr.xspec (.vtag o)) && (o.imm6 == 0#6)
  | .vsettToDescriptor o => o.fits (Instr.xspec (.vsettToDescriptor o)) && (o.imm6 == 0#6)
  | .vsettFromDescriptor o => o.fits (Instr.xspec (.vsettFromDescriptor o)) && (o.imm6 == 1#6)
  | .vpack o => o.fits (Instr.xspec (.vpack o)) && (o.imm6 == 0#6)
  | .vunpk o => o.fits (Instr.xspec (.vunpk o)) && (decide (o.imm6.toNat < 2))
  | .tacq o => o.fits (Instr.xspec (.tacq o)) && (o.imm6 == 0#6)
  | .trel o => o.fits (Instr.xspec (.trel o)) && (o.imm6 == 0#6)
  | .tzero o => o.fits (Instr.xspec (.tzero o)) && (decide (o.imm6.toNat < 3))
  | .tld o => o.fits (Instr.xspec (.tld o)) && (o.imm6 == 0#6)
  | .tst o => o.fits (Instr.xspec (.tst o)) && (o.imm6 == 0#6)
  | .taddr o => o.fits (Instr.xspec (.taddr o)) && (o.imm6 == 0#6)
  | .taddc o => o.fits (Instr.xspec (.taddc o)) && (o.imm6 == 0#6)
  | .tscl o => o.fits (Instr.xspec (.tscl o)) && (decide (o.imm6.toNat < 2))
  | .tmaxr o => o.fits (Instr.xspec (.tmaxr o)) && (o.imm6 == 0#6)
  | .tsumr o => o.fits (Instr.xspec (.tsumr o)) && (o.imm6 == 0#6)
  | .texpr o => o.fits (Instr.xspec (.texpr o)) && (o.imm6 == 0#6)
  | .trdv o => o.fits (Instr.xspec (.trdv o)) && (decide (o.imm6.toNat < 2))
  | .twrv o => o.fits (Instr.xspec (.twrv o)) && (decide (o.imm6.toNat < 2))
  | .mma o => o.fits (Instr.xspec (.mma o)) && (if o.fmt == 11#4 then decide (o.imm6.toNat < 8) else o.imm6 == 0#6)
  | .mmas o => o.fits (Instr.xspec (.mmas o)) && (decide (o.imm6.toNat < 8))
  | .mmai o => o.fits (Instr.xspec (.mmai o)) && (o.imm6 == 0#6 || (if o.fmt.toNat < 3 then o.imm6 == 1#6 || o.imm6 == 2#6 else o.imm6 == 3#6 || o.imm6 == 4#6))
  | .topk o => o.fits (Instr.xspec (.topk o)) && (decide (o.imm6.toNat < 32))
  | .topkm o => o.fits (Instr.xspec (.topkm o)) && (decide (o.imm6.toNat < 32))
  | .fence f scope => f.ok && decide (scope.toNat < 5)
  | .bsel f _ => f.ok
  | .bclose f rd _ _ => f.ok && Cls.g.ok rd
  | .fork f _ win => f.ok && decide (win.toNat < 5)
  | .join f ra => f.ok && Cls.p.ok ra
  | .yield f => f.ok
  | .spawn f rd ra _ => f.ok && Cls.g.ok rd && Cls.g.ok ra
  | .endStrand f => f.ok
  | .send o => o.fits (Instr.xspec (.send o)) && (o.imm6 == 0#6)
  | .chmk o => o.fits (Instr.xspec (.chmk o)) && (o.imm6 == 0#6)
  | .rcir o => o.fits (Instr.xspec (.rcir o)) && (o.imm6 == 0#6)
  | .tgenr o => o.fits (Instr.xspec (.tgenr o)) && (o.imm6 == 0#6)
  | .trap f _ => f.ok
  | .rett f _ => f.ok
  | .rdsr f _ sr => f.ok && decide (sr.toNat < 14)
  | .wrsr f _ sr => f.ok && (decide (sr.toNat < 6) || sr == 13#8)
  | .wrsrPartition f _ => f.ok
  | .xbset f _ => f.ok
  | .ovld f _ => f.ok
  | .tlbi f _ _ => f.ok
  | .idle f rd => f.ok && Cls.g.ok rd
  | .saverec f rd ra rb => f.ok && Cls.g.ok rd && Cls.p.ok ra && Cls.g.ok rb
  | .loadrec f rd ra rb => f.ok && Cls.g.ok rd && Cls.p.ok ra && Cls.g.ok rb
  | .mapb f rd ra rb => f.ok && Cls.g.ok rd && Cls.g.ok ra && Cls.g.ok rb
  | .perf f rd ra => f.ok && Cls.g.ok rd && Cls.g.ok ra
  | .illegalEncoding _ _ => true
  | .overlayFetch => true
  | .powerGood _ => true
  | .coldReset => true
  | .supplyFault => true
  | .supplyRestored => true
  | .bellowsPeriod _ _ => true
  | .openSession _ _ _ _ => true
  | .confirm _ _ _ => true
  | .confirmTimeout _ => true
  | .close => true
  | .uhpSegment _ _ => true
  | .ack _ _ => true
  | .uhpRetransmit _ _ => true
  | .uhpUnknownType => true
  | .imageLoad => true
  | .imageUnload => true
  | .graphInstall => true
  | .graphRemove => true
  | .blockMap _ => true
  | .blockUnmap => true
  | .region _ => true
  | .qp _ _ _ => true
  | .qpDestroy => true
  | .run _ _ => true
  | .quench => true
  | .latency => true
  | .quote => true
  | .resetWrite => true
  | .planloadWrite => true
  | .hostkeyWrite => true
  | .registerWrite => true
  | .roceWrite _ _ => true
  | .roceWriteImm _ _ _ => true
  | .roceRead _ _ => true
  | .roceUnsupportedOp _ => true
  | .roceUnknownQp _ => true
  | .roceWriteAck _ => true
  | .watcherRegister _ => true
  | .watcherWake _ => true
  | .belfryDispatchRound _ _ => true
  | .belfryHandover _ _ _ => true
  | .dispatcherAccept _ => true
  | .dispatcherPlace _ _ => true
  | .imageSwitchDone _ => true
  | .dequePop _ _ => true
  | .stealAttempt _ _ _ => true
  | .wakeDeliver _ => true
  | .homeRead _ => true
  | .homeWrite _ => true
  | .homeSeal _ => true
  | .homeArrival _ => true
  | .homeAccumulate _ => true
  | .homeArm _ => true
  | .homeRelease _ => true
  | .homeClear _ => true
  | .homeDiscard _ => true
  | .homeProbe _ => true
  | .blockFill _ _ => true
  | .dedupeRelease _ _ => true
  | .dedupeWindowExpiry _ _ => true
  | .operationRetransmit _ _ => true
  | .batchSync _ => true
  | .batchCloseRebroadcast _ => true
  | .closeReply _ => true
  | .readReply _ => true
  | .statusReply _ => true
  | .recordStoreReply _ => true
  | .dividerResult _ => true
  | .vectorDispatch _ => true
  | .matrixDispatch _ => true
  | .vectorResult _ => true
  | .matrixResult _ => true
  | .acctPost _ => true
  | .tongsOperandReply _ => true
  | .copyCommandStart _ => true
  | .copySourceReply _ => true
  | .proxyRequest _ _ => true
  | .proxyReply _ _ _ _ => true
  | .proxyRetry _ _ _ => true
  | .spawnService _ _ => true
  | .faultQueueService _ => true
  | .preemptWaitExpiry _ => true
  | .timeSliceExpiry _ => true
  | .quenchDone => true
  | .quenchResume => true
  | .doneSealOutcome _ => true
  | .luDiscardStatus _ => true
  | .idleStateEntry _ => true
  | .idleStateExit _ => true
  | .routedForward _ => true
  | .routedAck _ => true
  | .routedResend _ => true
  | .flitReplay _ => true
  | .sendAccept _ => true
  | .sendDeliver _ _ _ _ _ _ => true
  | .rcirGather _ _ _ _ _ => true
  | .drain _ _ => true
  | .lanternDrained => true
  | .drained _ => true
  | .configured _ _ => true
  | .upcStatus _ _ => true
  | .upcRetransmit _ => true
  | .planeFallback _ => true
  | .lanternRelock _ _ => true
  | .fibreRelockTimeout _ => true
  | .locked _ => true
  | .go _ => true
  | .abort => true
  | .errorReport _ => true
  | .selfTestStart _ => true
  | .selfTestComplete _ _ => true
  | .hbmScrub _ _ _ => true
  | .rfmAlert _ _ => true
  | .dieFailure _ => true
  | .walkComplete _ => true
  | .operationAck _ => true
  | .ovldCopyComplete _ => true
  | .leaderPlanRequest _ => true
  | .leaderPlanReply _ _ => true
  | .leaderUnreachableTimeout => true

end Sys2Proof
end

