-- ==== Sys2Proof/Decode.lean ====
section
/-!
DEFINITION. The decoder and the encoder (R72 to R81, R87 to R89). The decoder reads the fields of the words, and takes
the instruction only when it is well formed and encodes to those very words: so every field that the spec requires to be
zero is checked in one place (R79, R85). What is not taken is an illegal encoding.
-/
namespace Sys2Proof

/-- The field of width `n` whose lowest bit is `lo`. -/
def fld (w : BitVec 32) (lo n : Nat) : BitVec n := w.extractLsb' lo n

/-- Word 0 (R75, R76): length, major and the 24 bits of the format. -/
def Enc.word0 (len : BitVec 2) (maj : BitVec 6) (b : BitVec 24) : BitVec 32 := len ++ maj ++ b

/-- Format RR (R75). -/
def Enc.rr (rd ra rb : BitVec 4) (fn : BitVec 12) : BitVec 24 := rd ++ ra ++ rb ++ fn
/-- Format RU (R75). -/
def Enc.ru (rd ra : BitVec 4) (op param : BitVec 6) : BitVec 24 := rd ++ ra ++ 0#4 ++ op ++ param
/-- Format I12 (R75). -/
def Enc.i12 (rd ra : BitVec 4) (imm : BitVec 12) (fn : BitVec 4) : BitVec 24 := rd ++ ra ++ imm ++ fn
/-- Format BF (R75). -/
def Enc.bf (rd ra : BitVec 4) (pos len1 : BitVec 6) (fn : BitVec 4) : BitVec 24 := rd ++ ra ++ pos ++ len1 ++ fn
/-- Format CR (R75). -/
def Enc.cr (rd ra rb : BitVec 4) (fn bit : BitVec 6) : BitVec 24 := rd ++ ra ++ rb ++ fn ++ bit
/-- Format CI (R75). -/
def Enc.ci (rd ra : BitVec 4) (imm : BitVec 8) (fn : BitVec 2) (bit : BitVec 6) : BitVec 24 := rd ++ ra ++ imm ++ fn ++ bit
/-- Format LS (R75). -/
def Enc.ls (rd ra : BitVec 4) (imm : BitVec 12) (op sz : BitVec 2) : BitVec 24 := rd ++ ra ++ imm ++ op ++ sz
/-- Format SY (R75). -/
def Enc.sy (rd ra rb fn : BitVec 4) (param : BitVec 8) : BitVec 24 := rd ++ ra ++ rb ++ fn ++ param
/-- Format WR (R75). -/
def Enc.wr (wd wa wb fn : BitVec 6) : BitVec 24 := wd ++ wa ++ wb ++ fn
/-- Format WM (R75). -/
def Enc.wm (wx : BitVec 6) (ga : BitVec 4) (wy : BitVec 6) (fn : BitVec 2) : BitVec 24 := wx ++ ga ++ wy ++ 0#6 ++ fn
/-- Format WL (R75). -/
def Enc.wl (wd : BitVec 6) (ga : BitVec 4) (imm : BitVec 12) (fn : BitVec 2) : BitVec 24 := wd ++ ga ++ imm ++ fn

/-- The guard bits 23:12 of word 1 (R76). -/
def Enc.guard (g : Option Guard) : BitVec 12 :=
  match g with
  | none => 0#12
  | some g => 1#1 ++ BitVec.ofBool g.sense ++ g.reg ++ g.bit

/-- Word 1 (R76). -/
def Enc.word1 (sub : BitVec 8) (g : Option Guard) (fmt : BitVec 4) (fd rm : BitVec 3) (mod : BitVec 2) : BitVec 32 :=
  sub ++ Enc.guard g ++ fmt ++ fd ++ rm ++ mod

/-- The words of an instruction that has a base form (R75, R109, R268). -/
def Enc.base (f : Form) (maj : BitVec 6) (b : BitVec 24) : List (BitVec 32) :=
  if f.ext then [Enc.word0 2#2 maj b, Enc.word1 0#8 f.gd 0#4 0#3 0#3 0#2, 0#32] else [Enc.word0 0#2 maj b]

/-- The two words of a literal, low word first (R72). -/
def Enc.literal (v : Word) : List (BitVec 32) := [v.extractLsb' 0 32, v.extractLsb' 32 32]

/-- The words of a literal form, lengths 01 and 11 (R72, R73). -/
def Enc.lit (f : Form) (maj : BitVec 6) (b : BitVec 24) (v : Word) : List (BitVec 32) :=
  if f.ext then [Enc.word0 3#2 maj b, Enc.word1 0#8 f.gd 0#4 0#3 0#3 0#2, 0#32] ++ Enc.literal v
  else [Enc.word0 1#2 maj b] ++ Enc.literal v

/-- Word 2 in the window layout (R78). -/
def Enc.word2w (f : WForm) (wc : BitVec 6) (gd : BitVec 4) (bit : BitVec 6) : BitVec 32 :=
  BitVec.ofBool f.rd ++ BitVec.ofBool f.ra ++ BitVec.ofBool f.rb ++ BitVec.ofBool f.rc ++ 0#1 ++ f.idx ++ wc ++ gd ++ bit ++ 0#8

/-- The words of an instruction on window fields (R78, R109). -/
def Enc.win (f : WForm) (maj : BitVec 6) (b : BitVec 24) (sub : BitVec 8) (wc : BitVec 6) (gd : BitVec 4) (bit : BitVec 6) :
    List (BitVec 32) :=
  if f.ext then [Enc.word0 2#2 maj b, Enc.word1 sub f.gd 0#4 0#3 f.rm 0#2, Enc.word2w f wc gd bit] else [Enc.word0 0#2 maj b]

/-- Word 2 in the general layout (R77). -/
def Enc.word2 (o : XOp) : BitVec 32 :=
  o.rc ++ o.re ++ BitVec.ofBool o.lme ++ o.lmr ++ o.scope ++ BitVec.ofBool o.bx ++ o.bn ++ o.am ++ o.bit ++ o.imm6

/-- The words of an extended-only member (R76, R77); `len` is 2, or 3 before a literal. -/
def Enc.x (o : XOp) (len : BitVec 2) (maj : BitVec 6) (sub : BitVec 8) : List (BitVec 32) :=
  [Enc.word0 len maj (o.rd ++ o.ra ++ o.rb ++ o.imm12), Enc.word1 sub o.gd o.fmt o.fd o.rm o.mod, Enc.word2 o]

/-- The words of an instruction, in order (R72). An event has none. -/
def encode (i : Instr) : List (BitVec 32) :=
  match i with
  | .add f rd ra rb => Enc.base f 0x01#6 (Enc.rr rd ra rb 0x000#12)
  | .sub f rd ra rb => Enc.base f 0x01#6 (Enc.rr rd ra rb 0x001#12)
  | .mul f rd ra rb => Enc.base f 0x01#6 (Enc.rr rd ra rb 0x002#12)
  | .mulh f rd ra rb => Enc.base f 0x01#6 (Enc.rr rd ra rb 0x003#12)
  | .mulhu f rd ra rb => Enc.base f 0x01#6 (Enc.rr rd ra rb 0x004#12)
  | .div f rd ra rb => Enc.base f 0x01#6 (Enc.rr rd ra rb 0x005#12)
  | .divu f rd ra rb => Enc.base f 0x01#6 (Enc.rr rd ra rb 0x006#12)
  | .rem f rd ra rb => Enc.base f 0x01#6 (Enc.rr rd ra rb 0x007#12)
  | .remu f rd ra rb => Enc.base f 0x01#6 (Enc.rr rd ra rb 0x008#12)
  | .and f rd ra rb => Enc.base f 0x01#6 (Enc.rr rd ra rb 0x010#12)
  | .or f rd ra rb => Enc.base f 0x01#6 (Enc.rr rd ra rb 0x011#12)
  | .xor f rd ra rb => Enc.base f 0x01#6 (Enc.rr rd ra rb 0x012#12)
  | .andn f rd ra rb => Enc.base f 0x01#6 (Enc.rr rd ra rb 0x013#12)
  | .shl f rd ra rb => Enc.base f 0x01#6 (Enc.rr rd ra rb 0x020#12)
  | .shr f rd ra rb => Enc.base f 0x01#6 (Enc.rr rd ra rb 0x021#12)
  | .sra f rd ra rb => Enc.base f 0x01#6 (Enc.rr rd ra rb 0x022#12)
  | .ror f rd ra rb => Enc.base f 0x01#6 (Enc.rr rd ra rb 0x023#12)
  | .min f rd ra rb => Enc.base f 0x01#6 (Enc.rr rd ra rb 0x030#12)
  | .max f rd ra rb => Enc.base f 0x01#6 (Enc.rr rd ra rb 0x031#12)
  | .minu f rd ra rb => Enc.base f 0x01#6 (Enc.rr rd ra rb 0x032#12)
  | .maxu f rd ra rb => Enc.base f 0x01#6 (Enc.rr rd ra rb 0x033#12)
  | .clz f rd ra => Enc.base f 0x02#6 (Enc.ru rd ra 0#6 0#6)
  | .ctz f rd ra => Enc.base f 0x02#6 (Enc.ru rd ra 1#6 0#6)
  | .popc f rd ra => Enc.base f 0x02#6 (Enc.ru rd ra 2#6 0#6)
  | .brev f rd ra => Enc.base f 0x02#6 (Enc.ru rd ra 3#6 0#6)
  | .abs f rd ra => Enc.base f 0x02#6 (Enc.ru rd ra 4#6 0#6)
  | .sext f rd ra w1 => Enc.base f 0x02#6 (Enc.ru rd ra 5#6 w1)
  | .zext f rd ra w1 => Enc.base f 0x02#6 (Enc.ru rd ra 6#6 w1)
  | .mov f rd ra => Enc.base f 0x02#6 (Enc.ru rd ra 7#6 0#6)
  | .addi f rd ra imm => Enc.base f 0x03#6 (Enc.i12 rd ra imm 0#4)
  | .andi f rd ra imm => Enc.base f 0x04#6 (Enc.i12 rd ra imm 0#4)
  | .ori f rd ra imm => Enc.base f 0x05#6 (Enc.i12 rd ra imm 0#4)
  | .xori f rd ra imm => Enc.base f 0x06#6 (Enc.i12 rd ra imm 0#4)
  | .addiLiteral f rd ra lit => Enc.lit f 0x03#6 (Enc.i12 rd ra 0#12 0#4) lit
  | .andiLiteral f rd ra lit => Enc.lit f 0x04#6 (Enc.i12 rd ra 0#12 0#4) lit
  | .oriLiteral f rd ra lit => Enc.lit f 0x05#6 (Enc.i12 rd ra 0#12 0#4) lit
  | .xoriLiteral f rd ra lit => Enc.lit f 0x06#6 (Enc.i12 rd ra 0#12 0#4) lit
  | .shli f rd ra n => Enc.base f 0x07#6 (Enc.i12 rd ra (n.zeroExtend 12) 0#4)
  | .shri f rd ra n => Enc.base f 0x07#6 (Enc.i12 rd ra (n.zeroExtend 12) 1#4)
  | .srai f rd ra n => Enc.base f 0x07#6 (Enc.i12 rd ra (n.zeroExtend 12) 2#4)
  | .rori f rd ra n => Enc.base f 0x07#6 (Enc.i12 rd ra (n.zeroExtend 12) 3#4)
  | .movi f rd imm => Enc.base f 0x08#6 (rd ++ imm)
  | .movhi f rd imm => Enc.base f 0x09#6 (rd ++ imm)
  | .ldk f rd lit => Enc.lit f 0x0A#6 (rd ++ 0#20) lit
  | .bfx f rd ra pos len1 => Enc.base f 0x0B#6 (Enc.bf rd ra pos len1 0#4)
  | .bfxu f rd ra pos len1 => Enc.base f 0x0B#6 (Enc.bf rd ra pos len1 1#4)
  | .bfi f rd ra pos len1 => Enc.base f 0x0B#6 (Enc.bf rd ra pos len1 2#4)
  | .ceq f rd ra rb bit => Enc.base f 0x0C#6 (Enc.cr rd ra rb 0#6 bit)
  | .cne f rd ra rb bit => Enc.base f 0x0C#6 (Enc.cr rd ra rb 1#6 bit)
  | .clt f rd ra rb bit => Enc.base f 0x0C#6 (Enc.cr rd ra rb 2#6 bit)
  | .cltu f rd ra rb bit => Enc.base f 0x0C#6 (Enc.cr rd ra rb 3#6 bit)
  | .cle f rd ra rb bit => Enc.base f 0x0C#6 (Enc.cr rd ra rb 4#6 bit)
  | .cleu f rd ra rb bit => Enc.base f 0x0C#6 (Enc.cr rd ra rb 5#6 bit)
  | .ceqi f rd ra imm bit => Enc.base f 0x0D#6 (Enc.ci rd ra imm 0#2 bit)
  | .clti f rd ra imm bit => Enc.base f 0x0D#6 (Enc.ci rd ra imm 1#2 bit)
  | .ceqiLiteral f rd ra bit lit => Enc.lit f 0x0D#6 (Enc.ci rd ra 0#8 0#2 bit) lit
  | .cltiLiteral f rd ra bit lit => Enc.lit f 0x0D#6 (Enc.ci rd ra 0#8 1#2 bit) lit
  | .bset f rd ra bit => Enc.base f 0x0E#6 (Enc.cr rd ra 0#4 0#6 bit)
  | .bclr f rd ra bit => Enc.base f 0x0E#6 (Enc.cr rd ra 0#4 1#6 bit)
  | .binv f rd ra bit => Enc.base f 0x0E#6 (Enc.cr rd ra 0#4 2#6 bit)
  | .bmov f rd ra rb bit => Enc.base f 0x0E#6 (Enc.cr rd ra rb 3#6 bit)
  | .sel f rd ra rb bit => Enc.base f 0x0E#6 (Enc.cr rd ra rb 4#6 bit)
  | .pmk f rd ra rb => Enc.base f 0x10#6 (Enc.rr rd ra rb 0#12)
  | .padd f rd ra rb => Enc.base f 0x10#6 (Enc.rr rd ra rb 1#12)
  | .pidx f rd ra rb => Enc.base f 0x10#6 (Enc.rr rd ra rb 2#12)
  | .psub f rd ra rb => Enc.base f 0x10#6 (Enc.rr rd ra rb 3#12)
  | .pgen f rd ra rb => Enc.base f 0x10#6 (Enc.rr rd ra rb 4#12)
  | .pinc f rd ra => Enc.base f 0x10#6 (Enc.rr rd ra 0#4 5#12)
  | .pfld f rd ra sel => Enc.base f 0x10#6 (Enc.rr rd ra sel 6#12)
  | .pblk f rd ra => Enc.base f 0x10#6 (Enc.rr rd ra 0#4 7#12)
  | .paddi f rd ra imm => Enc.base f 0x11#6 (Enc.i12 rd ra imm 0#4)
  | .j f disp => Enc.base f 0x14#6 (disp)
  | .jal f disp => Enc.base f 0x15#6 (disp)
  | .jr f ra => Enc.base f 0x16#6 (Enc.rr 0#4 ra 0#4 0#12)
  | .jalr f rd ra => Enc.base f 0x16#6 (Enc.rr rd ra 0#4 1#12)
  | .bbs f ra bit disp => Enc.base f 0x17#6 (ra ++ bit ++ disp)
  | .bbc f ra bit disp => Enc.base f 0x18#6 (ra ++ bit ++ disp)
  | .bz f ra disp => Enc.base f 0x19#6 (ra ++ disp)
  | .bnz f ra disp => Enc.base f 0x1A#6 (ra ++ disp)
  | .dbnz f ra disp => Enc.base f 0x1B#6 (ra ++ disp)
  | .nop f => Enc.base f 0x1C#6 (0#24)
  | .fadd f wd wa wb => Enc.win f 0x20#6 (Enc.wr wd wa wb 0#6) 0#8 0#6 0#4 0#6
  | .fsub f wd wa wb => Enc.win f 0x20#6 (Enc.wr wd wa wb 1#6) 0#8 0#6 0#4 0#6
  | .fmul f wd wa wb => Enc.win f 0x20#6 (Enc.wr wd wa wb 2#6) 0#8 0#6 0#4 0#6
  | .fdiv f wd wa wb => Enc.win f 0x20#6 (Enc.wr wd wa wb 3#6) 0#8 0#6 0#4 0#6
  | .fsqrt f wd wa => Enc.win f 0x20#6 (Enc.wr wd wa 0#6 4#6) 0#8 0#6 0#4 0#6
  | .fmin f wd wa wb => Enc.win f 0x20#6 (Enc.wr wd wa wb 5#6) 0#8 0#6 0#4 0#6
  | .fmax f wd wa wb => Enc.win f 0x20#6 (Enc.wr wd wa wb 6#6) 0#8 0#6 0#4 0#6
  | .fabs f wd wa => Enc.win f 0x20#6 (Enc.wr wd wa 0#6 7#6) 0#8 0#6 0#4 0#6
  | .fneg f wd wa => Enc.win f 0x20#6 (Enc.wr wd wa 0#6 8#6) 0#8 0#6 0#4 0#6
  | .ffma f wd wa wb wc => Enc.win f 0x20#6 (Enc.wr wd wa wb 0#6) 1#8 wc 0#4 0#6
  | .ffms f wd wa wb wc => Enc.win f 0x20#6 (Enc.wr wd wa wb 0#6) 2#8 wc 0#4 0#6
  | .fclt f wa wb gd bit => Enc.win f 0x20#6 (Enc.wr 0#6 wa wb 0#6) 3#8 0#6 gd bit
  | .fcle f wa wb gd bit => Enc.win f 0x20#6 (Enc.wr 0#6 wa wb 0#6) 4#8 0#6 gd bit
  | .fceq f wa wb gd bit => Enc.win f 0x20#6 (Enc.wr 0#6 wa wb 0#6) 5#8 0#6 gd bit
  | .wget f ga wx => Enc.win f 0x21#6 (Enc.wm wx ga 0#6 0#2) 0#8 0#6 0#4 0#6
  | .wput f wx ga => Enc.win f 0x21#6 (Enc.wm wx ga 0#6 1#2) 0#8 0#6 0#4 0#6
  | .wmov f wx wy => Enc.win f 0x21#6 (Enc.wm wx 0#4 wy 2#2) 0#8 0#6 0#4 0#6
  | .fcvti f wd wa => Enc.win f 0x22#6 (Enc.wr wd wa 0#6 0#6) 0#8 0#6 0#4 0#6
  | .fcvtf f wd wa => Enc.win f 0x22#6 (Enc.wr wd wa 0#6 1#6) 0#8 0#6 0#4 0#6
  | .ldl f sz rd ra imm => Enc.base f 0x23#6 (Enc.ls rd ra imm 0#2 sz)
  | .ldlu f sz rd ra imm => Enc.base f 0x23#6 (Enc.ls rd ra imm 1#2 sz)
  | .stl f sz rd ra imm => Enc.base f 0x23#6 (Enc.ls rd ra imm 2#2 sz)
  | .wldl f wd ga imm => Enc.win f 0x24#6 (Enc.wl wd ga imm 0#2) 0#8 0#6 0#4 0#6
  | .wstl f wd ga imm => Enc.win f 0x24#6 (Enc.wl wd ga imm 1#2) 0#8 0#6 0#4 0#6
  | .ld o => Enc.x o 2#2 0x28#6 1#8
  | .ldv o => Enc.x o 2#2 0x28#6 2#8
  | .wld o => Enc.x o 2#2 0x28#6 3#8
  | .st o => Enc.x o 2#2 0x29#6 1#8
  | .stv o => Enc.x o 2#2 0x29#6 2#8
  | .fill o => Enc.x o 2#2 0x2A#6 9#8
  | .fillLiteral o lit => Enc.x o 3#2 0x2A#6 9#8 ++ Enc.literal lit
  | .wait o => Enc.x o 2#2 0x2A#6 1#8
  | .probe o => Enc.x o 2#2 0x2A#6 2#8
  | .seal o => Enc.x o 2#2 0x2A#6 3#8
  | .seale o => Enc.x o 2#2 0x2A#6 4#8
  | .arm o => Enc.x o 2#2 0x2A#6 5#8
  | .clr o => Enc.x o 2#2 0x2A#6 6#8
  | .clrx o => Enc.x o 2#2 0x2A#6 7#8
  | .rel o => Enc.x o 2#2 0x2A#6 8#8
  | .genr o => Enc.x o 2#2 0x2A#6 10#8
  | .acc o => Enc.x o 2#2 0x2B#6 1#8
  | .acct o => Enc.x o 2#2 0x2B#6 2#8
  | .acnt o => Enc.x o 2#2 0x2B#6 3#8
  | .pref o => Enc.x o 2#2 0x2C#6 1#8
  | .discard o => Enc.x o 2#2 0x2C#6 2#8
  | .migr o => Enc.x o 2#2 0x2C#6 3#8
  | .cpy o => Enc.x o 2#2 0x2D#6 1#8
  | .cpys o => Enc.x o 2#2 0x2D#6 2#8
  | .cpyx o => Enc.x o 2#2 0x2D#6 3#8
  | .cpyh o => Enc.x o 2#2 0x2D#6 4#8
  | .hadd o => Enc.x o 2#2 0x2E#6 1#8
  | .hcas o => Enc.x o 2#2 0x2E#6 2#8
  | .vadd o => Enc.x o 2#2 0x30#6 1#8
  | .vsub o => Enc.x o 2#2 0x30#6 2#8
  | .vmul o => Enc.x o 2#2 0x30#6 3#8
  | .vfma o => Enc.x o 2#2 0x30#6 4#8
  | .vfms o => Enc.x o 2#2 0x30#6 5#8
  | .vmin o => Enc.x o 2#2 0x30#6 6#8
  | .vmax o => Enc.x o 2#2 0x30#6 7#8
  | .vabs o => Enc.x o 2#2 0x30#6 8#8
  | .vneg o => Enc.x o 2#2 0x30#6 9#8
  | .vand o => Enc.x o 2#2 0x31#6 1#8
  | .vor o => Enc.x o 2#2 0x31#6 2#8
  | .vxor o => Enc.x o 2#2 0x31#6 3#8
  | .vshl o => Enc.x o 2#2 0x31#6 4#8
  | .vshr o => Enc.x o 2#2 0x31#6 5#8
  | .vsra o => Enc.x o 2#2 0x31#6 6#8
  | .vcvt o => Enc.x o 2#2 0x32#6 1#8
  | .vscl o => Enc.x o 2#2 0x32#6 2#8
  | .vrcp o => Enc.x o 2#2 0x32#6 3#8
  | .vrsq o => Enc.x o 2#2 0x32#6 4#8
  | .vexp2 o => Enc.x o 2#2 0x32#6 5#8
  | .vlog2 o => Enc.x o 2#2 0x32#6 6#8
  | .vtanh o => Enc.x o 2#2 0x32#6 7#8
  | .vred o => Enc.x o 2#2 0x32#6 8#8
  | .vcmp o => Enc.x o 2#2 0x33#6 1#8
  | .vsel o => Enc.x o 2#2 0x33#6 2#8
  | .vperm o => Enc.x o 2#2 0x33#6 3#8
  | .vbcast o => Enc.x o 2#2 0x33#6 4#8
  | .vbcastLiteral o lit => Enc.x o 3#2 0x33#6 4#8 ++ Enc.literal lit
  | .vins o => Enc.x o 2#2 0x33#6 5#8
  | .vext o => Enc.x o 2#2 0x33#6 6#8
  | .viota o => Enc.x o 2#2 0x33#6 7#8
  | .vzero o => Enc.x o 2#2 0x33#6 8#8
  | .vtag o => Enc.x o 2#2 0x33#6 9#8
  | .vsettToDescriptor o => Enc.x o 2#2 0x33#6 10#8
  | .vsettFromDescriptor o => Enc.x o 2#2 0x33#6 10#8
  | .vpack o => Enc.x o 2#2 0x33#6 11#8
  | .vunpk o => Enc.x o 2#2 0x33#6 12#8
  | .tacq o => Enc.x o 2#2 0x38#6 1#8
  | .trel o => Enc.x o 2#2 0x38#6 2#8
  | .tzero o => Enc.x o 2#2 0x38#6 3#8
  | .tld o => Enc.x o 2#2 0x38#6 4#8
  | .tst o => Enc.x o 2#2 0x38#6 5#8
  | .taddr o => Enc.x o 2#2 0x38#6 6#8
  | .taddc o => Enc.x o 2#2 0x38#6 7#8
  | .tscl o => Enc.x o 2#2 0x38#6 8#8
  | .tmaxr o => Enc.x o 2#2 0x38#6 9#8
  | .tsumr o => Enc.x o 2#2 0x38#6 10#8
  | .texpr o => Enc.x o 2#2 0x38#6 11#8
  | .trdv o => Enc.x o 2#2 0x38#6 12#8
  | .twrv o => Enc.x o 2#2 0x38#6 13#8
  | .mma o => Enc.x o 2#2 0x39#6 1#8
  | .mmas o => Enc.x o 2#2 0x39#6 2#8
  | .mmai o => Enc.x o 2#2 0x39#6 3#8
  | .topk o => Enc.x o 2#2 0x3A#6 1#8
  | .topkm o => Enc.x o 2#2 0x3A#6 2#8
  | .fence f scope => Enc.base f 0x3C#6 (Enc.sy 0#4 0#4 0#4 0#4 (scope.zeroExtend 8))
  | .bsel f b => Enc.base f 0x3C#6 (Enc.sy 0#4 0#4 0#4 1#4 (b.zeroExtend 8))
  | .bclose f rd b q => Enc.base f 0x3C#6 (Enc.sy rd 0#4 0#4 2#4 (0#5 ++ BitVec.ofBool q ++ b))
  | .fork f ra win => Enc.base f 0x3D#6 (Enc.sy 0#4 ra 0#4 0#4 (win.zeroExtend 8))
  | .join f ra => Enc.base f 0x3D#6 (Enc.sy 0#4 ra 0#4 1#4 0#8)
  | .yield f => Enc.base f 0x3D#6 (Enc.sy 0#4 0#4 0#4 2#4 0#8)
  | .spawn f rd ra rb => Enc.base f 0x3D#6 (Enc.sy rd ra rb 3#4 0#8)
  | .endStrand f => Enc.base f 0x3D#6 (Enc.sy 0#4 0#4 0#4 4#4 0#8)
  | .send o => Enc.x o 2#2 0x3E#6 1#8
  | .chmk o => Enc.x o 2#2 0x3E#6 2#8
  | .rcir o => Enc.x o 2#2 0x3E#6 3#8
  | .tgenr o => Enc.x o 2#2 0x3E#6 4#8
  | .trap f code => Enc.base f 0x3F#6 (Enc.sy 0#4 0#4 0#4 0#4 code)
  | .rett f skip => Enc.base f 0x3F#6 (Enc.sy 0#4 0#4 0#4 1#4 (0#7 ++ BitVec.ofBool skip))
  | .rdsr f rd sr => Enc.base f 0x3F#6 (Enc.sy rd 0#4 0#4 2#4 sr)
  | .wrsr f ra sr => Enc.base f 0x3F#6 (Enc.sy 0#4 ra 0#4 3#4 sr)
  | .wrsrPartition f ra => Enc.base f 0x3F#6 (Enc.sy 0#4 ra 0#4 3#4 12#8)
  | .xbset f ra => Enc.base f 0x3F#6 (Enc.sy 0#4 ra 0#4 4#4 0#8)
  | .ovld f ra => Enc.base f 0x3F#6 (Enc.sy 0#4 ra 0#4 5#4 0#8)
  | .tlbi f ra all => Enc.base f 0x3F#6 (Enc.sy 0#4 ra 0#4 6#4 (0#7 ++ BitVec.ofBool all))
  | .idle f rd => Enc.base f 0x3F#6 (Enc.sy rd 0#4 0#4 7#4 0#8)
  | .saverec f rd ra rb => Enc.base f 0x3F#6 (Enc.sy rd ra rb 8#4 0#8)
  | .loadrec f rd ra rb => Enc.base f 0x3F#6 (Enc.sy rd ra rb 9#4 0#8)
  | .mapb f rd ra rb => Enc.base f 0x3F#6 (Enc.sy rd ra rb 10#4 0#8)
  | .perf f rd ra => Enc.base f 0x3F#6 (Enc.sy rd ra 0#4 11#4 0#8)
  | .illegalEncoding _ _ => []
  | .overlayFetch => []
  | .powerGood _ => []
  | .coldReset => []
  | .supplyFault => []
  | .supplyRestored => []
  | .bellowsPeriod _ _ => []
  | .openSession _ _ _ _ => []
  | .confirm _ _ _ => []
  | .confirmTimeout _ => []
  | .close => []
  | .uhpSegment _ _ => []
  | .ack _ _ => []
  | .uhpRetransmit _ _ => []
  | .uhpUnknownType => []
  | .imageLoad => []
  | .imageUnload => []
  | .graphInstall => []
  | .graphRemove => []
  | .blockMap _ => []
  | .blockUnmap => []
  | .region _ => []
  | .qp _ _ _ => []
  | .qpDestroy => []
  | .run _ _ => []
  | .quench => []
  | .latency => []
  | .quote => []
  | .resetWrite => []
  | .planloadWrite => []
  | .hostkeyWrite => []
  | .registerWrite => []
  | .roceWrite _ _ => []
  | .roceWriteImm _ _ _ => []
  | .roceRead _ _ => []
  | .roceUnsupportedOp _ => []
  | .roceUnknownQp _ => []
  | .roceWriteAck _ => []
  | .watcherRegister _ => []
  | .watcherWake _ => []
  | .belfryDispatchRound _ _ => []
  | .belfryHandover _ _ _ => []
  | .dispatcherAccept _ => []
  | .dispatcherPlace _ _ => []
  | .imageSwitchDone _ => []
  | .dequePop _ _ => []
  | .stealAttempt _ _ _ => []
  | .wakeDeliver _ => []
  | .homeRead _ => []
  | .homeWrite _ => []
  | .homeSeal _ => []
  | .homeArrival _ => []
  | .homeAccumulate _ => []
  | .homeArm _ => []
  | .homeRelease _ => []
  | .homeClear _ => []
  | .homeDiscard _ => []
  | .homeProbe _ => []
  | .blockFill _ _ => []
  | .dedupeRelease _ _ => []
  | .dedupeWindowExpiry _ _ => []
  | .operationRetransmit _ _ => []
  | .batchSync _ => []
  | .batchCloseRebroadcast _ => []
  | .closeReply _ => []
  | .readReply _ => []
  | .statusReply _ => []
  | .recordStoreReply _ => []
  | .dividerResult _ => []
  | .vectorDispatch _ => []
  | .matrixDispatch _ => []
  | .vectorResult _ => []
  | .matrixResult _ => []
  | .acctPost _ => []
  | .tongsOperandReply _ => []
  | .copyCommandStart _ => []
  | .copySourceReply _ => []
  | .proxyRequest _ _ => []
  | .proxyReply _ _ _ _ => []
  | .proxyRetry _ _ _ => []
  | .spawnService _ _ => []
  | .faultQueueService _ => []
  | .preemptWaitExpiry _ => []
  | .timeSliceExpiry _ => []
  | .quenchDone => []
  | .quenchResume => []
  | .doneSealOutcome _ => []
  | .luDiscardStatus _ => []
  | .idleStateEntry _ => []
  | .idleStateExit _ => []
  | .routedForward _ => []
  | .routedAck _ => []
  | .routedResend _ => []
  | .flitReplay _ => []
  | .sendAccept _ => []
  | .sendDeliver _ _ _ _ _ _ => []
  | .rcirGather _ _ _ _ _ => []
  | .drain _ _ => []
  | .lanternDrained => []
  | .drained _ => []
  | .configured _ _ => []
  | .upcStatus _ _ => []
  | .upcRetransmit _ => []
  | .planeFallback _ => []
  | .lanternRelock _ _ => []
  | .fibreRelockTimeout _ => []
  | .locked _ => []
  | .go _ => []
  | .abort => []
  | .errorReport _ => []
  | .selfTestStart _ => []
  | .selfTestComplete _ _ => []
  | .hbmScrub _ _ _ => []
  | .rfmAlert _ _ => []
  | .dieFailure _ => []
  | .walkComplete _ => []
  | .operationAck _ => []
  | .ovldCopyComplete _ => []
  | .leaderPlanRequest _ => []
  | .leaderPlanReply _ _ => []
  | .leaderUnreachableTimeout => []

/-- The guard that word 1 holds (R76, R83). -/
def Dec.guard (w1 : BitVec 32) : Option Guard :=
  if w1.getLsbD 23 then some { sense := w1.getLsbD 22, reg := fld w1 18 4, bit := fld w1 12 6 } else none

/-- The fields of an extended-only member (R76, R77). -/
def Dec.xop (w0 w1 w2 : BitVec 32) : XOp :=
  { rd := fld w0 20 4, ra := fld w0 16 4, rb := fld w0 12 4, imm12 := fld w0 0 12, gd := Dec.guard w1, fmt := fld w1 8 4,
    fd := fld w1 5 3, rm := fld w1 2 3, mod := fld w1 0 2, rc := fld w2 28 4, re := fld w2 24 4, lme := w2.getLsbD 23,
    lmr := fld w2 20 3, scope := fld w2 17 3, bx := w2.getLsbD 16, bn := fld w2 14 2, am := fld w2 12 2, bit := fld w2 6 6,
    imm6 := fld w2 0 6 }

/-- The form of an instruction on window fields (R78). -/
def Dec.wform (w1 w2 : BitVec 32) : WForm :=
  { ext := true, gd := Dec.guard w1, rm := fld w1 2 3, rd := w2.getLsbD 31, ra := w2.getLsbD 30, rb := w2.getLsbD 29,
    rc := w2.getLsbD 28, idx := fld w2 24 3 }

/-- The base form on window fields. -/
def Dec.wbase : WForm := { ext := false, gd := none, rm := 0#3, rd := false, ra := false, rb := false, rc := false, idx := 0#3 }

/-- The instruction a word 0 names by its major and function fields (R87, R88), in the given form. -/
def Dec.base (f : Form) (w : BitVec 32) : Option Instr :=
  let rd := fld w 20 4
  let ra := fld w 16 4
  let rb := fld w 12 4
  match (fld w 24 6).toNat with
  | 0x01 =>
    match (fld w 0 12).toNat with
    | 0 => some (.add f rd ra rb)
    | 1 => some (.sub f rd ra rb)
    | 2 => some (.mul f rd ra rb)
    | 3 => some (.mulh f rd ra rb)
    | 4 => some (.mulhu f rd ra rb)
    | 5 => some (.div f rd ra rb)
    | 6 => some (.divu f rd ra rb)
    | 7 => some (.rem f rd ra rb)
    | 8 => some (.remu f rd ra rb)
    | 0x10 => some (.and f rd ra rb)
    | 0x11 => some (.or f rd ra rb)
    | 0x12 => some (.xor f rd ra rb)
    | 0x13 => some (.andn f rd ra rb)
    | 0x20 => some (.shl f rd ra rb)
    | 0x21 => some (.shr f rd ra rb)
    | 0x22 => some (.sra f rd ra rb)
    | 0x23 => some (.ror f rd ra rb)
    | 0x30 => some (.min f rd ra rb)
    | 0x31 => some (.max f rd ra rb)
    | 0x32 => some (.minu f rd ra rb)
    | 0x33 => some (.maxu f rd ra rb)
    | _ => none
  | 0x02 =>
    match (fld w 6 6).toNat with
    | 0 => some (.clz f rd ra)
    | 1 => some (.ctz f rd ra)
    | 2 => some (.popc f rd ra)
    | 3 => some (.brev f rd ra)
    | 4 => some (.abs f rd ra)
    | 5 => some (.sext f rd ra (fld w 0 6))
    | 6 => some (.zext f rd ra (fld w 0 6))
    | 7 => some (.mov f rd ra)
    | _ => none
  | 0x03 => some (.addi f rd ra (fld w 4 12))
  | 0x04 => some (.andi f rd ra (fld w 4 12))
  | 0x05 => some (.ori f rd ra (fld w 4 12))
  | 0x06 => some (.xori f rd ra (fld w 4 12))
  | 0x07 =>
    match (fld w 0 4).toNat with
    | 0 => some (.shli f rd ra (fld w 4 6))
    | 1 => some (.shri f rd ra (fld w 4 6))
    | 2 => some (.srai f rd ra (fld w 4 6))
    | 3 => some (.rori f rd ra (fld w 4 6))
    | _ => none
  | 0x08 => some (.movi f rd (fld w 0 20))
  | 0x09 => some (.movhi f rd (fld w 0 20))
  | 0x0B =>
    match (fld w 0 4).toNat with
    | 0 => some (.bfx f rd ra (fld w 10 6) (fld w 4 6))
    | 1 => some (.bfxu f rd ra (fld w 10 6) (fld w 4 6))
    | 2 => some (.bfi f rd ra (fld w 10 6) (fld w 4 6))
    | _ => none
  | 0x0C =>
    match (fld w 6 6).toNat with
    | 0 => some (.ceq f rd ra rb (fld w 0 6))
    | 1 => some (.cne f rd ra rb (fld w 0 6))
    | 2 => some (.clt f rd ra rb (fld w 0 6))
    | 3 => some (.cltu f rd ra rb (fld w 0 6))
    | 4 => some (.cle f rd ra rb (fld w 0 6))
    | 5 => some (.cleu f rd ra rb (fld w 0 6))
    | _ => none
  | 0x0D =>
    match (fld w 6 2).toNat with
    | 0 => some (.ceqi f rd ra (fld w 8 8) (fld w 0 6))
    | 1 => some (.clti f rd ra (fld w 8 8) (fld w 0 6))
    | _ => none
  | 0x0E =>
    match (fld w 6 6).toNat with
    | 0 => some (.bset f rd ra (fld w 0 6))
    | 1 => some (.bclr f rd ra (fld w 0 6))
    | 2 => some (.binv f rd ra (fld w 0 6))
    | 3 => some (.bmov f rd ra rb (fld w 0 6))
    | 4 => some (.sel f rd ra rb (fld w 0 6))
    | _ => none
  | 0x10 =>
    match (fld w 0 12).toNat with
    | 0 => some (.pmk f rd ra rb)
    | 1 => some (.padd f rd ra rb)
    | 2 => some (.pidx f rd ra rb)
    | 3 => some (.psub f rd ra rb)
    | 4 => some (.pgen f rd ra rb)
    | 5 => some (.pinc f rd ra)
    | 6 => some (.pfld f rd ra rb)
    | 7 => some (.pblk f rd ra)
    | _ => none
  | 0x11 => some (.paddi f rd ra (fld w 4 12))
  | 0x14 => some (.j f (fld w 0 24))
  | 0x15 => some (.jal f (fld w 0 24))
  | 0x16 =>
    match (fld w 0 12).toNat with
    | 0 => some (.jr f ra)
    | 1 => some (.jalr f rd ra)
    | _ => none
  | 0x17 => some (.bbs f rd (fld w 14 6) (fld w 0 14))
  | 0x18 => some (.bbc f rd (fld w 14 6) (fld w 0 14))
  | 0x19 => some (.bz f rd (fld w 0 20))
  | 0x1A => some (.bnz f rd (fld w 0 20))
  | 0x1B => some (.dbnz f rd (fld w 0 20))
  | 0x1C => some (.nop f)
  | 0x23 =>
    match (fld w 2 2).toNat with
    | 0 => some (.ldl f (fld w 0 2) rd ra (fld w 4 12))
    | 1 => some (.ldlu f (fld w 0 2) rd ra (fld w 4 12))
    | 2 => some (.stl f (fld w 0 2) rd ra (fld w 4 12))
    | _ => none
  | 0x3C =>
    match (fld w 8 4).toNat with
    | 0 => some (.fence f (fld w 0 3))
    | 1 => some (.bsel f (fld w 0 2))
    | 2 => some (.bclose f rd (fld w 0 2) (w.getLsbD 2))
    | _ => none
  | 0x3D =>
    match (fld w 8 4).toNat with
    | 0 => some (.fork f ra (fld w 0 3))
    | 1 => some (.join f ra)
    | 2 => some (.yield f)
    | 3 => some (.spawn f rd ra rb)
    | 4 => some (.endStrand f)
    | _ => none
  | 0x3F =>
    match (fld w 8 4).toNat with
    | 0 => some (.trap f (fld w 0 8))
    | 1 => some (.rett f (w.getLsbD 0))
    | 2 => some (.rdsr f rd (fld w 0 8))
    | 3 => some (if fld w 0 8 == 12#8 then .wrsrPartition f ra else .wrsr f ra (fld w 0 8))
    | 4 => some (.xbset f ra)
    | 5 => some (.ovld f ra)
    | 6 => some (.tlbi f ra (w.getLsbD 0))
    | 7 => some (.idle f rd)
    | 8 => some (.saverec f rd ra rb)
    | 9 => some (.loadrec f rd ra rb)
    | 0xa => some (.mapb f rd ra rb)
    | 0xb => some (.perf f rd ra)
    | _ => none
  | _ => none

/-- The window members with SUB 0x00 (R88). -/
def Dec.win (wf : WForm) (w : BitVec 32) : Option Instr :=
  let wd := fld w 18 6
  let wa := fld w 12 6
  let wb := fld w 6 6
  match (fld w 24 6).toNat with
  | 0x20 =>
    match (fld w 0 6).toNat with
    | 0 => some (.fadd wf wd wa wb)
    | 1 => some (.fsub wf wd wa wb)
    | 2 => some (.fmul wf wd wa wb)
    | 3 => some (.fdiv wf wd wa wb)
    | 4 => some (.fsqrt wf wd wa)
    | 5 => some (.fmin wf wd wa wb)
    | 6 => some (.fmax wf wd wa wb)
    | 7 => some (.fabs wf wd wa)
    | 8 => some (.fneg wf wd wa)
    | _ => none
  | 0x21 =>
    match (fld w 0 2).toNat with
    | 0 => some (.wget wf (fld w 14 4) wd)
    | 1 => some (.wput wf wd (fld w 14 4))
    | 2 => some (.wmov wf wd (fld w 8 6))
    | _ => none
  | 0x22 =>
    match (fld w 0 6).toNat with
    | 0 => some (.fcvti wf wd wa)
    | 1 => some (.fcvtf wf wd wa)
    | _ => none
  | 0x24 =>
    match (fld w 0 2).toNat with
    | 0 => some (.wldl wf wd (fld w 14 4) (fld w 2 12))
    | 1 => some (.wstl wf wd (fld w 14 4) (fld w 2 12))
    | _ => none
  | _ => none

/-- The window members with a nonzero SUB (R89). -/
def Dec.winSub (wf : WForm) (w w2 : BitVec 32) (sub : Nat) : Option Instr :=
  let wd := fld w 18 6
  let wa := fld w 12 6
  let wb := fld w 6 6
  if fld w 24 6 == 0x20#6 then
    match sub with
    | 1 => some (.ffma wf wd wa wb (fld w2 18 6))
    | 2 => some (.ffms wf wd wa wb (fld w2 18 6))
    | 3 => some (.fclt wf wa wb (fld w2 14 4) (fld w2 8 6))
    | 4 => some (.fcle wf wa wb (fld w2 14 4) (fld w2 8 6))
    | 5 => some (.fceq wf wa wb (fld w2 14 4) (fld w2 8 6))
    | _ => none
  else none

/-- The literal members of majors 0x03 to 0x06, 0x0A and 0x0D (R73). -/
def Dec.lit (f : Form) (w : BitVec 32) (v : Word) : Option Instr :=
  let rd := fld w 20 4
  let ra := fld w 16 4
  match (fld w 24 6).toNat with
  | 0x03 => some (.addiLiteral f rd ra v)
  | 0x04 => some (.andiLiteral f rd ra v)
  | 0x05 => some (.oriLiteral f rd ra v)
  | 0x06 => some (.xoriLiteral f rd ra v)
  | 0x0A => some (.ldk f rd v)
  | 0x0D => if fld w 6 2 == 0#2 then some (.ceqiLiteral f rd ra (fld w 0 6) v) else some (.cltiLiteral f rd ra (fld w 0 6) v)
  | _ => none

/-- The extended-only members (R89). -/
def Dec.ext (o : XOp) (maj sub : Nat) : Option Instr :=
  match maj with
  | 0x28 =>
    match sub with
    | 1 => some (.ld o)
    | 2 => some (.ldv o)
    | 3 => some (.wld o)
    | _ => none
  | 0x29 =>
    match sub with
    | 1 => some (.st o)
    | 2 => some (.stv o)
    | _ => none
  | 0x2A =>
    match sub with
    | 1 => some (.wait o)
    | 2 => some (.probe o)
    | 3 => some (.seal o)
    | 4 => some (.seale o)
    | 5 => some (.arm o)
    | 6 => some (.clr o)
    | 7 => some (.clrx o)
    | 8 => some (.rel o)
    | 9 => some (.fill o)
    | 10 => some (.genr o)
    | _ => none
  | 0x2B =>
    match sub with
    | 1 => some (.acc o)
    | 2 => some (.acct o)
    | 3 => some (.acnt o)
    | _ => none
  | 0x2C =>
    match sub with
    | 1 => some (.pref o)
    | 2 => some (.discard o)
    | 3 => some (.migr o)
    | _ => none
  | 0x2D =>
    match sub with
    | 1 => some (.cpy o)
    | 2 => some (.cpys o)
    | 3 => some (.cpyx o)
    | 4 => some (.cpyh o)
    | _ => none
  | 0x2E =>
    match sub with
    | 1 => some (.hadd o)
    | 2 => some (.hcas o)
    | _ => none
  | 0x30 =>
    match sub with
    | 1 => some (.vadd o)
    | 2 => some (.vsub o)
    | 3 => some (.vmul o)
    | 4 => some (.vfma o)
    | 5 => some (.vfms o)
    | 6 => some (.vmin o)
    | 7 => some (.vmax o)
    | 8 => some (.vabs o)
    | 9 => some (.vneg o)
    | _ => none
  | 0x31 =>
    match sub with
    | 1 => some (.vand o)
    | 2 => some (.vor o)
    | 3 => some (.vxor o)
    | 4 => some (.vshl o)
    | 5 => some (.vshr o)
    | 6 => some (.vsra o)
    | _ => none
  | 0x32 =>
    match sub with
    | 1 => some (.vcvt o)
    | 2 => some (.vscl o)
    | 3 => some (.vrcp o)
    | 4 => some (.vrsq o)
    | 5 => some (.vexp2 o)
    | 6 => some (.vlog2 o)
    | 7 => some (.vtanh o)
    | 8 => some (.vred o)
    | _ => none
  | 0x33 =>
    match sub with
    | 1 => some (.vcmp o)
    | 2 => some (.vsel o)
    | 3 => some (.vperm o)
    | 4 => some (.vbcast o)
    | 5 => some (.vins o)
    | 6 => some (.vext o)
    | 7 => some (.viota o)
    | 8 => some (.vzero o)
    | 9 => some (.vtag o)
    | 10 => some (if o.imm6 == 0#6 then .vsettToDescriptor o else .vsettFromDescriptor o)
    | 11 => some (.vpack o)
    | 12 => some (.vunpk o)
    | _ => none
  | 0x38 =>
    match sub with
    | 1 => some (.tacq o)
    | 2 => some (.trel o)
    | 3 => some (.tzero o)
    | 4 => some (.tld o)
    | 5 => some (.tst o)
    | 6 => some (.taddr o)
    | 7 => some (.taddc o)
    | 8 => some (.tscl o)
    | 9 => some (.tmaxr o)
    | 10 => some (.tsumr o)
    | 11 => some (.texpr o)
    | 12 => some (.trdv o)
    | 13 => some (.twrv o)
    | _ => none
  | 0x39 =>
    match sub with
    | 1 => some (.mma o)
    | 2 => some (.mmas o)
    | 3 => some (.mmai o)
    | _ => none
  | 0x3A =>
    match sub with
    | 1 => some (.topk o)
    | 2 => some (.topkm o)
    | _ => none
  | 0x3E =>
    match sub with
    | 1 => some (.send o)
    | 2 => some (.chmk o)
    | 3 => some (.rcir o)
    | 4 => some (.tgenr o)
    | _ => none
  | _ => none

/-- Is the major one whose word 0 holds window fields (R75)? -/
def Dec.isWin (maj : BitVec 6) : Bool := maj == 0x20#6 || maj == 0x21#6 || maj == 0x22#6 || maj == 0x24#6

/-- Is the major extended-only (R76, R87)? -/
def Dec.isXo (maj : BitVec 6) : Bool :=
  (decide (0x28 ≤ maj.toNat) && decide (maj.toNat ≤ 0x3A)) || maj == 0x3E#6

/-- The words read as an instruction, before its legality is checked. -/
def Dec.fields (ws : List (BitVec 32)) : Option Instr :=
  match ws with
  | [w0] => if Dec.isWin (fld w0 24 6) then Dec.win Dec.wbase w0 else Dec.base { ext := false, gd := none } w0
  | [w0, w1, w2] =>
    let maj := fld w0 24 6
    let sub := (fld w1 24 8).toNat
    if fld w0 30 2 == 1#2 then Dec.lit { ext := false, gd := none } w0 (w2 ++ w1)
    else if Dec.isXo maj then Dec.ext (Dec.xop w0 w1 w2) maj.toNat sub
    else if Dec.isWin maj then
      if sub == 0 then Dec.win (Dec.wform w1 w2) w0 else Dec.winSub (Dec.wform w1 w2) w0 w2 sub
    else Dec.base { ext := true, gd := Dec.guard w1 } w0
  | [w0, w1, w2, l0, l1] =>
    let v : Word := l1 ++ l0
    match (fld w0 24 6).toNat with
    | 0x2A => some (.fillLiteral (Dec.xop w0 w1 w2) v)
    | 0x33 => some (.vbcastLiteral (Dec.xop w0 w1 w2) v)
    | _ => Dec.lit { ext := true, gd := Dec.guard w1 } w0 v
  | _ => none

/-- The decoder: an instruction is taken when it is well formed and encodes to these words (R79, R85). -/
def decode (ws : List (BitVec 32)) : Option Instr :=
  match Dec.fields ws with
  | none => none
  | some i => if WellFormed i && encode i == ws then some i else none

/-- The length of an instruction in words, from bits 31:30 of its first word (R72). -/
def wordsOf (w0 : BitVec 32) : Nat :=
  match (fld w0 30 2).toNat with
  | 0 => 1
  | 1 => 3
  | 2 => 3
  | _ => 5

/-- The words of the instruction whose bits are `w`, first word lowest; every bit above is 0. -/
def tableWords (w : Nat) : List (BitVec 32) :=
  (List.range (wordsOf (BitVec.ofNat 32 w))).map fun k => BitVec.ofNat 32 (w >>> (32 * k))

/-- Is the row an event: nothing a strand fetches, and not what a fetch can raise (R70, R85)? -/
def Instr.isEvent (i : Instr) : Bool :=
  match i with
  | .illegalEncoding _ _ => false
  | .overlayFetch => false
  | i => (encode i).isEmpty

/-- The instruction the decoder reads from an instruction whose bits are `w`; bits at and above `nbits` are 0. -/
def decodeTableWord (nbits w : Nat) : Option Instr := decode (tableWords (w % 2 ^ nbits))

end Sys2Proof
end

