-- ==== Sys2Proof/Machine/Fetch.lean ====
section
/-!
DEFINITION. What a core's turn fetches (R70 to R74, R101), the passing of time, and the record of a new strand (R64).
-/
namespace Sys2Proof.Machine

/-- The presets of fd0 to fd7 (R139). -/
def fdPresets : Vector (BitVec 32) 8 :=
  #v[0xE3079800#32, 0xEA0F5800#32, 0xD1011800#32, 0xDA031800#32, 0xD3011800#32, 0xDC030800#32, 0x807F8000#32, 0xDB030800#32]

/-- A record with every item at its creation value (R64, R276): registers zero, presets, RNE, b0, tags EMPTY. -/
def Strand.blank : Strand :=
  { regs := Vector.replicate 16 0, fd := fdPresets, pc := 0, image := 0, prio := 0, win := 0, steal := 0, tpc := 0, tcause := 0,
    tval := 0, fflags := 0, rmode := 0, batch := 0, opens := 0, node := 0, window := Vector.replicate 64 0,
    tags := Vector.replicate 8 0, vecs := Vector.replicate 8 0, tiles := Vector.replicate 8 none, tracker := 0, core := 0,
    bound := false, root := false, loaded := [], handing := none, ended := false, loc := .store 0, wait := .run }

/-- The words of a core-private store from a byte address (R69). -/
def fetchWords (m : Memory) (a n : Nat) : List (BitVec 32) := (List.range n).map fun k => BitVec.ofNat 32 (Mem.num m (a + 4 * k) 4)

/-- Does `[a, a + n)` meet the range an overlay copy is writing (R71)? -/
def Overlay.meets (o : Overlay) (a n : Nat) : Bool := decide (a < o.load.toNat + o.body.length) && decide (o.load.toNat < a + n)

/-- What a core's turn does (R101): nothing, or one instruction of the strand in the slot. -/
inductive Turn where
  | unused
  | skip (r : Nat)
  | run (r : Nat) (i : Instr)
  deriving DecidableEq, Repr

/-- The instruction at a pc (R70 to R74, R84, R85): OVERLAY comes before legality; the fetch of a word that an overlay copy
is writing waits. -/
def Core.fetch (c : Core) (pc : BitVec 32) : Option Instr :=
  let a := pc.toNat
  let waits : Nat → Bool := fun n => match c.ovld with | none => false | some o => o.meets a n
  if c.xb.toNat < a + 4 then some .overlayFetch
  else if waits 4 then none
  else
    let w0 := BitVec.ofNat 32 (Mem.num c.store a 4)
    let n := wordsOf w0
    if c.xb.toNat < a + 4 * n then some .overlayFetch
    else if waits (4 * n) then none
    else
      let ws := fetchWords c.store a n
      match decode ws with
      | some i => some i
      | none => some (.illegalEncoding w0 (if w0.getLsbD 31 then ws.getD 1 0#32 else 0#32))

/-- Can the core issue: its die and cluster in service, the supply within its limits, no self-test on it (R15, R372, R375, R376)? -/
def State.canIssue (s : State) (k : BitVec 13) : Bool := s.supplyOk && s.inService (coreCluster k) && !s.fenced k

/-- The turn of core `k` in the phase it stands in (R101); a quench stops its victims before their next issue (R322). -/
def State.turnOf (s : State) (k : BitVec 13) : Turn :=
  let c := s.core k
  match c.slots[c.phase.toNat]'(c.phase.isLt) with
  | none => .unused
  | some r =>
    match s.strand r with
    | none => .unused
    | some st =>
      match st.wait with
      | .run =>
        if s.canIssue k && !s.victim st then
          match c.fetch st.pc with
          | none => .unused
          | some i => .run r i
        else .unused
      | .skip => .skip r
      | _ => .unused

/-- The phase moves on, and the turn is counted (R101, R328). -/
def State.countTurn (s : State) (k : BitVec 13) (issued : Bool) : State :=
  let c := s.core k
  s.setCore k { c with phase := c.phase + 1, perf0 := if issued then c.perf0 + 1 else c.perf0,
                       perf1 := if issued then c.perf1 else c.perf1 + 1 }

/-- Time passes: the step is counted, and the cycle counter of every die, the hearth dies last, advances by an amount the spec
leaves open (R17). -/
def State.advance (s : State) : State :=
  { s with tick := s.tick + 1
           hearth := Vector.ofFn fun i : Fin 2 => s.hearth[i] + BitVec.ofNat 64 (Config.elapsed s.tick (8 + i.val))
           dies := Vector.ofFn fun i : Fin 8 =>
             let d := s.dies[i]
             { d with cycle := d.cycle + BitVec.ofNat 64 (Config.elapsed s.tick i.val),
                      idleTime := if d.idle = 0#2 then d.idleTime else d.idleTime + Config.free 1 s.tick } }

/-- The next move: the schedule's, or the one the part makes (log entry 2). -/
def State.nextMove (s : State) : Move × List Move :=
  match s.schedule with
  | [] => (Config.nextMove s.tick, [])
  | m :: l => (m, l)

/-- The state with one strand in slot 0 of core 0 at pc 0, and the words of an instruction there, as if its image had been
loaded; the next move is that core's turn (log entry 16). -/
def State.withCode (s : State) (ws : List (BitVec 32)) : State :=
  let c := s.core 0#13
  let r := s.fresh
  let code := (ws ++ List.replicate (5 - ws.length) 0#32).flatMap fun w => leBytes 4 w.toNat
  let s1 := s.setCore 0#13 { c with store := Mem.setBytes c.store 0 code, xb := 0x200#32, database := 0x400#32,
                                    slots := c.slots.set 0 (some r), phase := 0#3, ovld := none }
  let s2 := { s1 with fresh := r + 1, schedule := [.turn 0#13] }
  s2.setStrand r { Strand.blank with loc := .slot 0#13 0#3, tracker := r }

end Sys2Proof.Machine
end

