-- ==== Sys2Proof/Machine/Graphs.lean ====
section
/-!
DEFINITION. Node records, range descriptors and the handles they form (R26 to R30), and the retirement of node instances (R355
to R360).
-/
namespace Sys2Proof.Machine

/-! ### Node records -/

/-- A node record as bytes (R26). -/
abbrev NodeRec := List Byte

/-- IMAGE of a node. -/
def NodeRec.image (n : NodeRec) : BitVec 16 := BitVec.ofNat 16 (recField n 0 2)
/-- ENTRY of a node. -/
def NodeRec.entry (n : NodeRec) : Nat := recField n 2 2
/-- CONTROL (R27). -/
def NodeRec.control (n : NodeRec) : BitVec 32 := BitVec.ofNat 32 (recField n 4 4)
/-- PRIO. -/
def NodeRec.prio (n : NodeRec) : BitVec 2 := (NodeRec.control n).extractLsb' 0 2
/-- KIND: a stream node. -/
def NodeRec.stream (n : NodeRec) : Bool := (NodeRec.control n).getLsbD 2
/-- STEAL. -/
def NodeRec.steal (n : NodeRec) : BitVec 3 := (NodeRec.control n).extractLsb' 4 3
/-- WIN. -/
def NodeRec.win (n : NodeRec) : BitVec 3 := (NodeRec.control n).extractLsb' 8 3
/-- TILES. -/
def NodeRec.tiles (n : NodeRec) : Nat := ((NodeRec.control n).extractLsb' 12 4).toNat
/-- AFFV. -/
def NodeRec.affv (n : NodeRec) : BitVec 14 := (NodeRec.control n).extractLsb' 16 14
/-- AFFK. -/
def NodeRec.affk (n : NodeRec) : BitVec 2 := (NodeRec.control n).extractLsb' 30 2
/-- A range descriptor (R28). -/
abbrev RangeDesc := BitVec 64
/-- The DONE descriptor. -/
def NodeRec.done (n : NodeRec) : RangeDesc := BitVec.ofNat 64 (recField n 8 8)
/-- Input range k. -/
def NodeRec.inp (n : NodeRec) (k : Nat) : RangeDesc := BitVec.ofNat 64 (recField n (0x40 + 8 * k) 8)
/-- Output range k. -/
def NodeRec.out (n : NodeRec) (k : Nat) : RangeDesc := BitVec.ofNat 64 (recField n (0x80 + 8 * k) 8)

/-- BOFF. -/
def RangeDesc.boff (d : RangeDesc) : Nat := (d.extractLsb' 40 24).toNat
/-- COUNT. -/
def RangeDesc.count (d : RangeDesc) : Nat := (d.extractLsb' 16 13).toNat
/-- V. -/
def RangeDesc.valid (d : RangeDesc) : Bool := d.getLsbD 5
/-- NW. -/
def RangeDesc.unwatched (d : RangeDesc) : Bool := d.getLsbD 4
/-- LU. -/
def RangeDesc.lastUse (d : RangeDesc) : Bool := d.getLsbD 3
/-- ARG. -/
def RangeDesc.arg (d : RangeDesc) : Nat := (d.extractLsb' 0 3).toNat

/-- The valid inputs, in increasing k. -/
def NodeRec.inputs (n : NodeRec) : List RangeDesc := ((List.range 8).map (NodeRec.inp n)).filter RangeDesc.valid
/-- The valid outputs, in increasing k. -/
def NodeRec.outputs (n : NodeRec) : List RangeDesc := ((List.range 8).map (NodeRec.out n)).filter RangeDesc.valid
/-- All descriptors of a node, each with whether it is an output or DONE. -/
def NodeRec.descs (n : NodeRec) : List (RangeDesc × Bool) :=
  ((List.range 8).map fun k => (NodeRec.inp n k, false)) ++ ((List.range 8).map fun k => (NodeRec.out n k, true)) ++ [(NodeRec.done n, true)]
/-- Every range that a graph's nodes declare, DONE included. -/
def Graph.ranges (g : Graph) : List RangeDesc :=
  g.nodes.flatMap fun n => ((NodeRec.descs n).map Prod.fst).filter RangeDesc.valid
/-- The watched inputs. -/
def NodeRec.watched (n : NodeRec) : List RangeDesc := (NodeRec.inputs n).filter fun d => !RangeDesc.unwatched d

/-- The handle of block `m` of a range (R29). -/
def RangeDesc.handle (d : RangeDesc) (args : Vector Word 8) (m : Nat) : Word :=
  padd49 ((args[RangeDesc.arg d]?.getD nullHandle) &&& ~~~0xFFF#64) (BitVec.ofNat 64 ((RangeDesc.boff d + m) * 4096))
/-- The handles of all blocks of a range. -/
def RangeDesc.handles (d : RangeDesc) (args : Vector Word 8) : List Word :=
  (List.range (RangeDesc.count d)).map (RangeDesc.handle d args)
/-- The missing-input count at instance start (R30). -/
def NodeRec.missing (n : NodeRec) : Nat := ((NodeRec.watched n).map RangeDesc.count).sum

/-- The node record of a node instance. -/
def State.nodeRec (s : State) (nd : Node) : Option (NodeRec × Instance) :=
  match s.inst nd.inst with
  | none => none
  | some i =>
    match Maps.get s.graphs i.graph.toNat with
    | none => none
    | some g => (g.nodes[nd.idx]?).map fun n => (n, i)

/-- The place of a handle for a unit that is no strand (R20, R227, R233): scratchpads of every cluster of the module. -/
def State.placeOf (s : State) (h : Word) (perm : BitVec 4) : Option Place :=
  if Handle.space h == 1#3 then s.padPlace h
  else match s.xlate 0#9 false h perm with
    | .ok p => some p
    | _ => none

/-! ### Retirement (R355 to R360) -/

/-- End an instance for an error at retirement (R357): tpc 0, the DONE handle. -/
def State.retireFault (s : State) (n : BitVec 32) (nd : Node) (cause : BitVec 8) (h : Word) : State :=
  s.endInstance nd.inst { idx := BitVec.ofNat 16 nd.idx, node := n, cause := cause, tpc := 0, tval := h }

/-- Step 4 of R356: the number is freed; the instance may be complete (R360). -/
def State.retired (s : State) (n : BitVec 32) (nd : Node) : State :=
  let s1 := { s with nodes := Maps.del s.nodes n.toNat }
  match s1.inst nd.inst with
  | none => s1
  | some i =>
    let s2 := s1.setInst nd.inst { i with nodes := i.nodes.filter (· != n) }
    s2.checkComplete s2.instances.length nd.inst

/-- The handles of step 3 of R356, in order. -/
def NodeRec.lastUses (r : NodeRec) (args : Vector Word 8) : List Word :=
  ((NodeRec.inputs r).filter RangeDesc.lastUse).flatMap fun d => RangeDesc.handles d args

/-- Step 3 of R356: the next discard of `hs`, which waits while 1,024 operations of the Belfry stand unacknowledged at its home (R255); one
without a translation is passed over (log entry 17). -/
def State.nextDiscard (s : State) (n : BitVec 32) (nd : Node) (hs : List Word) : State :=
  match hs with
  | [] => s.retired n nd
  | h :: r =>
    match s.placeOf h permW with
    | none => s.nextDiscard n nd r
    | some p =>
      if s.roomFor (unitBelfry nd.owner) (homeOf p) 1 then
        (s.setNode n { nd with stage := .discards (r.length + 1) }).sendOp .discard h p (unitBelfry nd.owner) (.belfryLu n) 0 0#2 0 n
      else s.setNode n { nd with stage := .discardDue (r.length + 1) }

/-- Steps 1 and 2 of R356, or step 3 at once when no DONE block is declared; the seal waits as a discard does. -/
def State.retire (s : State) (n : BitVec 32) (nd : Node) : State :=
  let s1 := s.freeReservations [n]
  match s1.nodeRec nd with
  | none => s1.retired n nd
  | some (r, i) =>
    if NodeRec.done r = 0 then s1.nextDiscard n nd (NodeRec.lastUses r i.args)
    else
      let h := RangeDesc.handle (NodeRec.done r) i.args 0
      match s1.placeOf h permW with
      | none => s1.retireFault n nd 18 h
      | some p =>
        if s1.roomFor (unitBelfry nd.owner) (homeOf p) 1 then
          (s1.setNode n { nd with stage := .doneSeal }).sendOp (.seal (NodeRec.stream r)) h p (unitBelfry nd.owner) (.belfryDone n) 0 0#2 0 n
        else s1.setNode n { nd with stage := .sealDue }

/-- A node instance whose seal or discard is due goes on with it. -/
def State.sendDue (s : State) (n : BitVec 32) (nd : Node) : State :=
  match nd.stage with
  | .sealDue => s.retire n nd
  | .discardDue left =>
    match s.nodeRec nd with
    | none => s.retired n nd
    | some (r, i) =>
      let hs := NodeRec.lastUses r i.args
      s.nextDiscard n nd (hs.drop (hs.length - left))
  | _ => s

/-- Send the registrations of watchers (R50, step 3) as far as at most 1,024 operations of a Belfry stand unacknowledged at one home
(R255); the others are left. -/
def State.postWatchers (s : State) (l : List (BitVec 32 × BitVec 3 × Word)) : State × List (BitVec 32 × BitVec 3 × Word) :=
  match l with
  | [] => (s, [])
  | (n, owner, h) :: r =>
    match s.placeOf h permR with
    | none => s.postWatchers r
    | some p =>
      if s.roomFor (unitBelfry owner) (homeOf p) 1 then
        (s.sendOp (.watcher owner n) h p (unitBelfry owner) .nobody 0 0#2 0 n).postWatchers r
      else
        let t := s.postWatchers r
        (t.1, (n, owner, h) :: t.2)

/-- A Belfry sends what it could not send before (R255): registrations of the instance that starts, seals and discards of node instances
that retire. -/
def State.pumpBelfry (s : State) (d : BitVec 3) : State :=
  let s1 := match s.starting with
    | none => s
    | some x => let t := s.postWatchers x.todo; { t.1 with starting := some { x with todo := t.2 } }
  s1.nodes.foldl (fun t p => if p.2.owner = d then t.sendDue (BitVec.ofNat 32 p.1) p.2 else t) s1

/-- The live-strand count drops by one (R355); at zero the node instance retires. -/
def State.strandEnded (s : State) (n : BitVec 32) : State :=
  match s.node n with
  | none => s
  | some nd =>
    let nd' := { nd with live := nd.live - 1 }
    let s1 := s.setNode n nd'
    if nd'.live = 0 then s1.retire n nd' else s1

/-- DONE_SEAL_OUTCOME (R357). -/
def execDoneSealOutcome (m : Nat) (s : State) : Host.Outcome State Fault Refusal :=
  match Maps.get s.net m with
  | some (.reply o r) =>
    match o.asker with
    | .belfryDone n =>
      let s1 := (s.take m).unack o.unit o.seq
      match s1.node n with
      | none => .next s1
      | some nd =>
        if nd.stage = .doneSeal then
          match r with
          | .report bits _ =>
            if bits &&& (bStale ||| bPoison ||| bXlate) != 0 then .next (s1.retireFault n nd ((causeOf bits).zeroExtend 8) o.h)
            else match s1.nodeRec nd with
              | none => .next (s1.retired n nd)
              | some (rc, i) => .next (s1.nextDiscard n nd (NodeRec.lastUses rc i.args))
          | _ => .next s1
        else .next s1
    | _ => .next s
  | _ => .next s

/-- LU_DISCARD_STATUS (R358): a refusal is logged; the next discard follows. -/
def execLuDiscardStatus (m : Nat) (s : State) : Host.Outcome State Fault Refusal :=
  match Maps.get s.net m with
  | some (.reply o r) =>
    match o.asker with
    | .belfryLu n =>
      let s1 := (s.take m).unack o.unit o.seq
      match s1.node n with
      | none => .next s1
      | some nd =>
        let code : BitVec 4 := match r with | .status c _ => c | _ => 0
        let s2 := if code = 1 || code = 3 then
            s1.logEvent 3 (code.zeroExtend 8) (BitVec.ofNat 16 nd.idx) nd.inst o.h n 0 s1.hearthCycle
          else s1
        match nd.stage, s2.nodeRec nd with
        | .discards left, some (rc, i) =>
          let hs := NodeRec.lastUses rc i.args
          .next (s2.nextDiscard n nd (hs.drop (hs.length + 1 - left)))
        | _, _ => .next s2
    | _ => .next s
  | _ => .next s

end Sys2Proof.Machine
end

