-- ==== Sys2Proof/Machine/Store.lean ====
section
/-!
DEFINITION. The core-private store as data: LDL, LDLU, STL, WLDL, WSTL (R68, R127, R128).
-/
namespace Sys2Proof.Machine

/-- Access `[addr, addr + n)` of the core's store (R127): ALIGN, then PRIV below XB or past the store. -/
def State.localAccess (s : State) (r : Nat) (st : Strand) (addr : Word) (n : Nat) (go : Core → State) : State :=
  let c := s.core st.home
  if addr.toNat % n != 0 then s.raise r 3#5 addr
  else if addr.toNat < c.xb.toNat || 0x8000 < addr.toNat + n then s.raise r 1#5 addr
  else go c

/-- The address of a store access (R127). -/
def Strand.localAddr (st : Strand) (ra : BitVec 4) (imm : BitVec 12) : Word := st.reg ra + imm64 imm

/-- Bytes stored in the core's store. -/
def Core.poke (c : Core) (a : Word) (n v : Nat) : Core := { c with store := Mem.setBytes c.store a.toNat (leBytes n v) }
/-- A number loaded from the core's store. -/
def Core.peek (c : Core) (a : Word) (n : Nat) : Nat := Mem.num c.store a.toNat n

/-- LDL (R127). -/
def execLdl (f : Form) (sz : BitVec 2) (rd ra : BitVec 4) (imm : BitVec 12) (s : State) : Host.Outcome State Fault Refusal :=
  s.issue f.gd f.len fun r st =>
    let a := st.localAddr ra imm
    let n := sizeOf2 sz
    s.localAccess r st a n fun c => s.setStrand r ((st.setReg rd ((BitVec.ofNat (8 * n) (c.peek a n)).signExtend 64)).next f.len)
/-- LDLU (R127). -/
def execLdlu (f : Form) (sz : BitVec 2) (rd ra : BitVec 4) (imm : BitVec 12) (s : State) : Host.Outcome State Fault Refusal :=
  s.issue f.gd f.len fun r st =>
    let a := st.localAddr ra imm
    let n := sizeOf2 sz
    s.localAccess r st a n fun c => s.setStrand r ((st.setReg rd (BitVec.ofNat 64 (c.peek a n))).next f.len)
/-- STL (R127). -/
def execStl (f : Form) (sz : BitVec 2) (rd ra : BitVec 4) (imm : BitVec 12) (s : State) : Host.Outcome State Fault Refusal :=
  s.issue f.gd f.len fun r st =>
    let a := st.localAddr ra imm
    let n := sizeOf2 sz
    s.localAccess r st a n fun c => (s.setCore st.home (c.poke a n (st.reg rd).toNat)).setStrand r (st.next f.len)
/-- WLDL (R127). -/
def execWldl (f : WForm) (wd : BitVec 6) (ga : BitVec 4) (imm : BitVec 12) (s : State) : Host.Outcome State Fault Refusal :=
  s.issueW f (fun st => [st.widx f wd f.rd]) fun r st =>
    let a := st.localAddr ga imm
    s.localAccess r st a 4 fun c =>
      s.setStrand r ((st.setW (st.widx f wd f.rd).toNat (BitVec.ofNat 32 (c.peek a 4))).next f.len)
/-- WSTL (R127): RELD qualifies the word it reads. -/
def execWstl (f : WForm) (wd : BitVec 6) (ga : BitVec 4) (imm : BitVec 12) (s : State) : Host.Outcome State Fault Refusal :=
  s.issueW f (fun st => [st.widx f wd f.rd]) fun r st =>
    let a := st.localAddr ga imm
    s.localAccess r st a 4 fun c =>
      (s.setCore st.home (c.poke a 4 (st.w (st.widx f wd f.rd).toNat).toNat)).setStrand r (st.next f.len)

end Sys2Proof.Machine
end

