-- ==== Sys2Proof/Machine/Sync.lean ====
section
/-!
DEFINITION. Ordering, batches, fork and join: FENCE, BSEL, BCLOSE, FORK, JOIN, YIELD, SPAWN, END, and the closes and syncs they
wait for (R265 to R281).
-/
namespace Sys2Proof.Machine

/-! ### Closes and syncs (R266) -/

/-- Is a home inside the scope of a FENCE from cluster `c` (R269)? -/
def inScope (scope : BitVec 3) (c : BitVec 9) (home : Nat) : Bool :=
  match scope.toNat with
  | 0 => home == c.toNat || home == homeEngine c
  | 1 => home == c.toNat || home == homeEngine c
  | 2 => if home < 512 then home / 64 == (clusterDie c).toNat
         else if home < 1024 then (home - 512) / 64 == (clusterDie c).toNat
         else home == homeProxy (clusterDie c)
  | 3 => decide (home < 2048)
  | _ => true

/-- The four batches. -/
def allBatches : List (BitVec 2) := [0#2, 1#2, 2#2, 3#2]

/-- The tracker of a strand. -/
def State.trackerOf (s : State) (st : Strand) : Tracker := Maps.getD s.trackers st.tracker Tracker.zero

/-- Is a close or sync of batch `b` at `home` for strand `r` on its way? -/
def State.closing (s : State) (r home : Nat) (b : BitVec 2) : Bool :=
  s.net.any fun p =>
    match p.2 with
    | .close h _ b' _ _ q => h == home && b' == b && q == r
    | .closeReply h _ b' _ _ q => h == home && b' == b && q == r
    | _ => false

/-- Send a close or sync of a batch to one home, with its count where the home is tracked; to another module it goes as routed
traffic, and stands here until it is answered. -/
def State.askHome (s : State) (r home tracker : Nat) (b : BitVec 2) (count : Option Nat) (take : Bool) : State :=
  let s1 := s.send (.close home tracker b count take r)
  if 2048 ≤ home then s1.routed (BitVec.ofNat 8 home) (.close tracker b count take r) else s1

/-- Send a close or sync of batch `b` to each tracked home that is wanted and not asked yet. -/
def State.askHomes (s : State) (r : Nat) (st : Strand) (b : BitVec 2) (take : Bool) (want : Nat → Bool) : State :=
  ((s.trackerOf st).get b).homes.foldl (fun t p =>
    if want p.1 && !t.closing r p.1 b then t.askHome r p.1 st.tracker b (some p.2) take else t) s

/-- Are answers of homes outstanding for strand `r`? -/
def State.awaits (s : State) (r : Nat) : Bool := s.net.any fun p => p.2.closesFor r

/-- The summaries at homes that a batch does not track, together (R266). -/
def State.untrackedSum (s : State) (t : Nat) (b : BitVec 2) (homes : FMap Nat) : Sum :=
  s.sums.foldl (fun acc p =>
    if p.1 / 4096 == t * 4 + b.toNat && (Maps.get homes (p.1 % 4096)).isNone then acc.merge p.2 else acc) Sum.zero
/-- The same summaries are taken. -/
def State.takeUntracked (s : State) (t : Nat) (b : BitVec 2) (homes : FMap Nat) : State :=
  { s with sums := Maps.filter s.sums fun k _ => !(k / 4096 == t * 4 + b.toNat && (Maps.get homes (k % 4096)).isNone) }

/-- A finished batch: what it collected; its entries are reset and its OPEN bit is cleared (R271). -/
def State.closeBatch (s : State) (r : Nat) (b : BitVec 2) : Sum × State :=
  match s.strand r with
  | none => (Sum.zero, s)
  | some st =>
    let t := s.trackerOf st
    let s1 := { s with trackers := Maps.put s.trackers st.tracker (t.set b BatchSt.zero) }
    ((t.get b).got, s1.setStrand r { st with opens := st.opens &&& ~~~(1#4 <<< b.toNat), wait := .run })

/-- The trap of a closed batch with errors: XLATE goes to the Keep, any other cause to the handler (R271, R281). -/
def State.batchTrap (s : State) (r : Nat) (x : Sum) : State :=
  match x.first with
  | none => s
  | some (_, _, cause, h) => if cause = 18 then s.toFaultQueue r h .never else s.raise r cause h

/-- The strand ends: everything it holds is free, and its node instance counts one strand less (R278, R281). -/
def State.finishEnd (s : State) (r : Nat) : State :=
  match s.strand r with
  | none => s
  | some st => (s.dropStrand r).strandEnded st.node

/-- JOIN's arrival (R278, step 2). -/
def State.joinArrive (s : State) (r : Nat) (st : Strand) (f : Form) (ra : BitVec 4) : State :=
  let h := st.reg ra
  s.access r st h permA fun p =>
    if s.roomFor (unitCore st.home) (homeOf p) 1 then s.request r st .arrival h p (.join f ra) h else s.retry r

/-- What follows the closes of END or JOIN. -/
def State.afterCloses (s : State) (r : Nat) (st : Strand) (i : Instr) : State :=
  match i with
  | .join f ra => s.joinArrive r { st with wait := .run } f ra
  | _ => s.finishEnd r

/-- Close those of the batches `l` that are open, in their order, for END or JOIN, as far as the homes have answered (R281). -/
def State.closeAll (s : State) (l : List (BitVec 2)) (r : Nat) (i : Instr) : State :=
  match s.strand r with
  | none => s
  | some st =>
    match l with
    | [] => s.afterCloses r st i
    | b :: l =>
      if !st.opens.getLsbD b.toNat then s.closeAll l r i
      else
        let s1 := (s.askHomes r st b true fun _ => true).setStrand r { st with wait := .closing i b }
        if s1.awaits r || 0 < ((s1.trackerOf st).get b).untracked then s1
        else
          let c := s1.closeBatch r b
          if c.1.bits != 0 then c.2.batchTrap r c.1 else c.2.closeAll l r i

/-- The end of a BCLOSE (R271). -/
def State.finishBclose (s : State) (r : Nat) (f : Form) (rd : BitVec 4) (b : BitVec 2) (quiet : Bool) : State :=
  let c := s.closeBatch r b
  let s1 := c.2.updStrand r fun st => st.setReg rd (c.1.bits.zeroExtend 64)
  if c.1.bits != 0 && !quiet then s1.batchTrap r c.1 else s1.updStrand r fun st => st.next f.len

/-- Does a FENCE wait for operations whose homes are not tracked? -/
def State.fenceUntracked (s : State) (st : Strand) : Bool :=
  allBatches.any fun b => st.opens.getLsbD b.toNat && decide (0 < ((s.trackerOf st).get b).untracked)

/-- Does a FENCE have an operation in scope to wait for (R269)? -/
def State.fenceWaits (s : State) (st : Strand) (scope : BitVec 3) : Bool :=
  s.fenceUntracked st || allBatches.any fun b =>
    st.opens.getLsbD b.toNat && ((s.trackerOf st).get b).homes.any fun p => inScope scope (coreCluster st.home) p.1

/-- A strand that waits for homes goes on as far as the answers allow. -/
def State.closeProgress (s : State) (r : Nat) : State :=
  match s.strand r with
  | none => s
  | some st =>
    match st.wait with
    | .closing i b =>
      if s.awaits r then s
      else match i with
        | .fence f _ => if s.fenceUntracked st then s else s.setStrand r { st.next f.len with wait := .run }
        | .bclose f rd _ q => if 0 < ((s.trackerOf st).get b).untracked then s else s.finishBclose r f rd b q
        | i => s.closeAll allBatches r i
    | _ => s

/-! ### Instructions -/

/-- FENCE (R269). -/
def execFence (f : Form) (scope : BitVec 3) (s : State) : Host.Outcome State Fault Refusal :=
  s.issue f.gd f.len fun r st =>
    if s.fenceWaits st scope then
      let s1 := allBatches.foldl (fun t b =>
        if st.opens.getLsbD b.toNat then t.askHomes r st b false (inScope scope (coreCluster st.home)) else t) s
      s1.setStrand r { st with wait := .closing (.fence f scope) 0#2 }
    else s.setStrand r (st.next f.len)

/-- BSEL (R270). -/
def execBsel (f : Form) (b : BitVec 2) (s : State) : Host.Outcome State Fault Refusal :=
  s.issueOwn f.gd f.len fun st => { st with batch := b }

/-- BCLOSE (R271). -/
def execBclose (f : Form) (rd : BitVec 4) (b : BitVec 2) (q : Bool) (s : State) : Host.Outcome State Fault Refusal :=
  s.issue f.gd f.len fun r st =>
    if st.opens.getLsbD b.toNat then
      ((s.askHomes r st b true fun _ => true).setStrand r { st with wait := .closing (.bclose f rd b q) b }).closeProgress r
    else s.setStrand r ((st.setReg rd 0).next f.len)

/-- The child of FORK (R276). -/
def Strand.child (st : Strand) (pc : BitVec 32) (win : BitVec 3) (tracker : Nat) : Strand :=
  { Strand.blank with regs := st.regs, fd := st.fd, rmode := st.rmode, image := st.image, node := st.node, prio := st.prio,
                      steal := st.steal, pc := pc, win := win, tracker := tracker, core := st.home, loc := .deque st.home }

/-- FORK (R276, R355): the parent, with its pc past the FORK, leaves the rotation and returns through its dispatcher, its slot
released unless it is anchored (R103; log entry 78). -/
def execFork (f : Form) (ra : BitVec 4) (win : BitVec 3) (s : State) : Host.Outcome State Fault Refusal :=
  s.issue f.gd f.len fun r st =>
    let t := st.reg ra
    let c := s.core st.home
    if t.extractLsb' 0 2 != 0 || t.extractLsb' 32 32 != 0 then s.raise r 3#5 t
    else if 176 ≤ c.deque.length then s.retry r
    else
      let q := s.newTracker (coreCluster st.home)
      let id := q.2.fresh
      let s1 := { q.2 with fresh := id + 1 }
      let s2 := (s1.setStrand id (st.child (t.extractLsb' 0 32) win q.1)).setCore st.home { c with deque := id :: c.deque }
      let s3 := match s2.node st.node with
        | none => s2
        | some nd => s2.setNode st.node { nd with live := nd.live + 1 }
      ((s3.setStrand r (st.next f.len)).vacate r).toDispatcher r (coreCluster st.home)

/-- JOIN (R278): the checks of its pointer, the closes of END, one arrival. -/
def execJoin (f : Form) (ra : BitVec 4) (s : State) : Host.Outcome State Fault Refusal :=
  s.issue f.gd f.len fun r st => s.access r st (st.reg ra) permA fun _ => s.closeAll allBatches r (.join f ra)

/-- YIELD (R279). -/
def execYield (f : Form) (s : State) : Host.Outcome State Fault Refusal :=
  s.issue f.gd f.len fun r st =>
    if st.anch then s.setStrand r { st.next f.len with wait := .skip }
    else
      let s1 := (s.setStrand r (st.next f.len)).vacate r
      s1.toDispatcher r (coreCluster st.home)

/-- The eight handles of an argument table in the core's store (R33, R280). -/
def Core.argTable (c : Core) (a : Nat) : List Word := (List.range 8).map fun k => BitVec.ofNat 64 (Mem.num c.store (a + 8 * k) 8)

/-- SPAWN (R280): the request goes to the Keep. -/
def execSpawn (f : Form) (rd ra rb : BitVec 4) (s : State) : Host.Outcome State Fault Refusal :=
  s.issue f.gd f.len fun r st =>
    let a := st.reg rb
    let c := s.core st.home
    if a.toNat % 8 != 0 then s.raise r 3#5 a
    else if a.toNat < c.xb.toNat || 0x8000 < a.toNat + 64 then s.raise r 1#5 a
    else
      let s1 := { s with keepq := s.keepq ++ [KeepReq.spawn r ((st.reg ra).extractLsb' 0 16) (c.argTable a.toNat)] }
      s1.setStrand r { st with wait := .keep (.spawn f rd ra rb) }

/-- END (R281). -/
def execEndStrand (f : Form) (s : State) : Host.Outcome State Fault Refusal :=
  s.issue f.gd f.len fun r _ => s.closeAll allBatches r (.endStrand f)

/-! ### Events -/

/-- The die that home number `h` stands on. -/
def homeDieOf (h : Nat) : BitVec 3 := BitVec.ofNat 3 (if h < 512 then h / 64 else if h < 1024 then (h - 512) / 64 else h - 1024)
/-- The dies whose homes have counted operations of a batch. -/
def State.sumDies (s : State) (t : Nat) (b : BitVec 2) : List (BitVec 3) :=
  ((s.sums.filter fun p => p.1 / 4096 == t * 4 + b.toNat).map fun p => homeDieOf (p.1 % 4096)).eraseDups

/-- BATCH_SYNC (R266): a home answers once the counted operations have taken effect; a close takes its summary. For a batch of
another module all slices here answer as one home (log entry 79). The dies of the homes that answer leave their idle states (R363). -/
def execBatchSync (m : Nat) (s : State) : Host.Outcome State Fault Refusal :=
  match Maps.get s.net m with
  | some (.close home t b count take r) =>
    let x := Maps.getD s.sums (sumKey t b home) Sum.zero
    if decide (home < 2048) && count.all fun n => decide (n ≤ x.count) then
      let s0 := s.rouse (homeDieOf home)
      let s1 := if take then { s0 with sums := Maps.del s0.sums (sumKey t b home) } else s0
      .next ((s1.take m).send (.closeReply home t b take x r))
    else .next s
  | some (.closeFor src t b count take r) =>
    let key := remoteTracker src t
    let x := s.untrackedSum key b []
    if count.all fun n => decide (n ≤ x.count) then
      let s0 := (s.sumDies key b).foldl State.rouse s
      let s1 := if take then s0.takeUntracked key b [] else s0
      .next ((s1.take m).routed src (.closeReply t b take x.count x.bits x.first r))
    else .next s
  | _ => .next s

/-- A tracker takes the summary of a home: one that it tracks answers whole, another answers for that many of the operations it has
only counted together. -/
def BatchSt.collect (bs : BatchSt) (home : Nat) (x : Sum) : BatchSt :=
  { bs with homes := Maps.del bs.homes home, got := bs.got.merge x
            untracked := if (Maps.get bs.homes home).isSome then bs.untracked else bs.untracked - x.count }

/-- CLOSE_REPLY (R266, R271): the tracker takes the answer; after the last one the waiting instruction goes on. -/
def execCloseReply (m : Nat) (s : State) : Host.Outcome State Fault Refusal :=
  match Maps.get s.net m with
  | some (.closeReply home t b take x r) =>
    let s1 := s.take m
    let s2 := if take then
        match Maps.get s1.trackers t with
        | none => s1
        | some tr =>
          { s1 with trackers := Maps.put s1.trackers t (tr.set b ((tr.get b).collect home x)) }
      else s1
    .next (s2.closeProgress r)
  | _ => .next s

/-- Do the present totals of the homes a batch does not track come to its untracked count (R266)? -/
def State.untrackedMet (s : State) (st : Strand) (b : BitVec 2) : Bool :=
  let bs := (s.trackerOf st).get b
  decide (bs.untracked ≤ (s.untrackedSum st.tracker b bs.homes).count)

/-- The broadcast of a batch beyond the module, when its off-module flag is set: every module of the domain that it does not track
answers with what stands there (R266). -/
def State.askModules (s : State) (r : Nat) (st : Strand) (b : BitVec 2) : State :=
  let bs := (s.trackerOf st).get b
  if bs.off && decide (0 < bs.untracked) then
    (s.others.filter fun m => (Maps.get bs.homes (2048 + m.toNat)).isNone).foldl (fun t m =>
      if t.closing r (2048 + m.toNat) b then t else t.askHome r (2048 + m.toNat) st.tracker b none true) s
  else s

/-- BATCH_CLOSE_REBROADCAST (R266): the totals of the untracked homes are summed; when they agree the close takes them, or the
sync is met (log entry 18); until then the modules of the domain are asked again. -/
def execBatchCloseRebroadcast (rec_ : Nat) (s : State) : Host.Outcome State Fault Refusal :=
  match s.strand rec_ with
  | none => .next s
  | some st =>
    match st.wait with
    | .closing (.fence f _) _ =>
      if s.awaits rec_ then .next s
      else if allBatches.all fun b => !st.opens.getLsbD b.toNat || s.untrackedMet st b then
        .next (s.setStrand rec_ { st.next f.len with wait := .run })
      else .next (allBatches.foldl (fun t b => if st.opens.getLsbD b.toNat then t.askModules rec_ st b else t) s)
    | .closing _ b =>
      let tr := s.trackerOf st
      let bs := tr.get b
      if bs.untracked = 0 then .next s
      else if s.untrackedMet st b then
        let x := s.untrackedSum st.tracker b bs.homes
        let s1 := s.takeUntracked st.tracker b bs.homes
        .next ({ s1 with trackers := Maps.put s1.trackers st.tracker (tr.set b { bs with untracked := 0, got := bs.got.merge x }) }.closeProgress rec_)
      else .next (s.askModules rec_ st b)
    | _ => .next s

end Sys2Proof.Machine
end

