-- ==== Sys2Proof/Machine/BlockInstr.lean ====
section
/-!
DEFINITION. The block instructions: loads, stores, control, accumulation, residence and migration (R212 to R218, R237, R238,
R240, R257, R258, R260), and the replies that complete them.
-/
namespace Sys2Proof.Machine

/-! ### Shapes -/

/-- The length of every extended-only form without a literal (R72). -/
def xlen : Nat := 12

/-- The tag of an element type and descriptor (R151, R163). -/
def tagOf (fmt : BitVec 4) (fd : BitVec 3) : BitVec 8 := fmt ++ (if fmt = 0xB#4 then 0#1 ++ fd else 0#4)
/-- CLASS of a tag. -/
def tagClass (t : BitVec 8) : BitVec 4 := t.extractLsb' 4 4
/-- tval of TAGMIS from a tag (R153). -/
def tagMisVal (v : BitVec 3) (want found : BitVec 8) : Word := 1#1 ++ 0#44 ++ v ++ want ++ found
/-- tval of TAGMIS from a descriptor (R135). -/
def descMisVal (w : BitVec 32) (i : BitVec 3) : Word := 0#29 ++ i ++ w

/-- The batch of a posted operation: the one BX names, else the current one (R77). -/
def Strand.batchFor (st : Strand) (o : XOp) : BitVec 2 := if o.bx then o.bn else st.batch

/-- `ea(size)` with its ALIGN check (R91). -/
def State.withEa (s : State) (r : Nat) (st : Strand) (o : XOp) (size : Nat) (go : Ea → State) : State :=
  let e := st.ea o size
  if aligned e.h size then go e else s.raise r 3#5 e.h

/-- Room for one more operation towards a home, else the instruction does not issue (R255). -/
def State.ifRoom (s : State) (r : Nat) (st : Strand) (p : Place) (n : Nat) (go : State) : State :=
  if s.roomFor (unitCore st.home) (homeOf p) n then go else s.retry r

/-- A synchronous operation (R103, R262): translated, sent, its reply awaited. -/
def State.synchronous (s : State) (r : Nat) (st : Strand) (e : Ea) (perm : BitVec 4) (kind : OpKind) (i : Instr) : State :=
  s.access r st e.h perm fun p => s.ifRoom r st p 1 (s.request r st kind e.h p i e.upd)

/-- A read served by a remote-data copy (R226): its reply is on the way, with no presence word, which only a home gives. -/
def State.served (s : State) (r : Nat) (st : Strand) (e : Ea) (p : Place) (i : Instr) (d : Payload) : State :=
  let u := unitCore st.home
  let q := s.nextSeq u
  let o : Op := { kind := .read false, h := e.h, place := p, unit := u, seq := q.1, asker := .strand r, tracker := 0, batch := 0,
                  ordinal := 0, node := st.node }
  let s1 := { q.2 with units := Maps.put q.2.units u (Maps.getD q.2.units u [] ++ [o]) }
  (s1.setStrand r { st with wait := .reply i e.h e.upd }).send (.reply o (.data d 0 0))

/-- A consuming read goes to the home and counts in the current batch (R208, R226). -/
def State.consumingRead (s : State) (r : Nat) (st : Strand) (e : Ea) (p : Place) (i : Instr) : State :=
  let q := s.openBatch r st.batch (homeOf p)
  let s1 := q.2.updStrand r fun st => { st with wait := .reply i e.h e.upd }
  s1.sendOp (.read true) e.h p (unitCore st.home) (.strand r) st.tracker st.batch q.1 st.node

/-- A data read (R204, R213, R226): a copy serves it, or the home does. -/
def State.dataRead (s : State) (r : Nat) (st : Strand) (e : Ea) (consume : Bool) (i : Instr) : State :=
  s.access r st e.h (if consume then permR ||| permW else permR) fun p =>
    s.ifRoom r st p 1
      (if consume then s.consumingRead r st e p i
       else match s.copyFor (coreCluster st.home) e.h p with
         | some (d, s1) => s1.served r st e p i d
         | none => s.request r st (.read false) e.h p i e.upd)

/-- Posted operations (R94, R262): translated, posted one by one; then the pointer and the pc. -/
def State.posted (s : State) (r : Nat) (st : Strand) (o : XOp) (e : Ea) (perm : BitVec 4) (ops : List (OpKind × Word)) (len : Nat) : State :=
  s.access r st e.h perm fun p =>
    s.ifRoom r st p ops.length
      ((ops.foldl (fun t k => t.post r k.1 k.2 p (st.batchFor o)) s).updStrand r fun st => (st.setReg o.ra e.upd).next len)

/-- An extended-only instruction without a literal. -/
def State.issueX (s : State) (o : XOp) (eff : Nat → Strand → State) : Host.Outcome State Fault Refusal := s.issue o.gd xlen eff

/-! ### Loads (R213) -/

/-- LD. -/
def execLd (o : XOp) (s : State) : Host.Outcome State Fault Refusal :=
  s.issueX o fun r st => s.withEa r st o (2 ^ o.fmt.toNat) fun e => s.dataRead r st e (o.mod.getLsbD 1) (.ld o)

/-- The check of a descriptor an instruction uses (R135). -/
def State.withDesc (s : State) (r : Nat) (st : Strand) (fmt : BitVec 4) (fd : BitVec 3) (go : State) : State :=
  if fmt = 0xB#4 && !descOk (st.desc fd) then s.raise r 6#5 (descMisVal (st.desc fd) fd) else go

/-- LDV. -/
def execLdv (o : XOp) (s : State) : Host.Outcome State Fault Refusal :=
  s.issueX o fun r st =>
    s.withDesc r st o.fmt o.fd (s.withEa r st o 128 fun e => s.dataRead r st e (o.mod.getLsbD 1) (.ldv o))

/-- WLD: the words are checked before anything else. -/
def execWld (o : XOp) (s : State) : Host.Outcome State Fault Refusal :=
  s.issueX o fun r st =>
    let n := o.bit.toNat + 1
    match st.badIndex ((List.range n).map fun i => BitVec.ofNat 64 (o.imm6.toNat + i)) with
    | some i => s.raise r 5#5 i
    | none =>
      s.withEa r st o 4 fun e =>
        if 4096 < (Handle.off e.h).toNat + 4 * n then s.raise r 3#5 e.h
        else
          let upd := if o.am = 2 then padd49 (st.reg o.ra) (BitVec.ofNat 64 (4 * n)) else e.upd
          s.dataRead r st { e with upd := upd } (o.mod.getLsbD 1) (.wld o)

/-! ### Stores and fills (R214) -/

/-- The low bytes of a payload from a number. -/
def payloadOf (v : Nat) : Payload := BitVec.ofNat 32768 v

/-- ST. -/
def execSt (o : XOp) (s : State) : Host.Outcome State Fault Refusal :=
  s.issueX o fun r st => s.withEa r st o 8 fun e =>
    s.posted r st o e permW [(.write (Handle.off e.h) 8 (payloadOf (st.reg o.rd).toNat) (o.mod.getLsbD 0), e.h)] xlen

/-- STV. -/
def execStv (o : XOp) (s : State) : Host.Outcome State Fault Refusal :=
  s.issueX o fun r st =>
    let v := low3 o.rd
    if tagClass (st.tag v) = 0 then s.raise r 7#5 (v.zeroExtend 64)
    else s.withEa r st o 128 fun e =>
      s.posted r st o e permW [(.write (Handle.off e.h) 128 (payloadOf (st.vec v).toNat) (o.mod.getLsbD 0), e.h)] xlen

/-- The 64-bit pattern sixteen times. -/
def patternRow (w : Word) (n : Nat) : Nat :=
  match n with
  | 0 => 0
  | n + 1 => w.toNat + 2 ^ 64 * patternRow w n

/-- A fill of rows with a pattern: one posted write for each row. -/
def State.fillRows (s : State) (r : Nat) (st : Strand) (o : XOp) (w : Word) (len : Nat) : State :=
  s.withEa r st o 128 fun e =>
    let rows := o.imm6.toNat + 1
    if 32 < ((Handle.off e.h).extractLsb' 7 5).toNat + rows then s.raise r 3#5 e.h
    else
      let upd := if o.am = 2 then padd49 (st.reg o.ra) (BitVec.ofNat 64 (128 * rows)) else e.upd
      let ops := (List.range rows).map fun k =>
        let h := padd49 e.h (BitVec.ofNat 64 (128 * k))
        (OpKind.write (Handle.off h) 128 (payloadOf (patternRow w 16)) false, h)
      s.posted r st o { e with upd := upd } permW ops len

/-- FILL with a register. -/
def execFill (o : XOp) (s : State) : Host.Outcome State Fault Refusal :=
  s.issueX o fun r st => s.fillRows r st o (st.reg o.rb) xlen
/-- FILL with a literal. -/
def execFillLiteral (o : XOp) (lit : Word) (s : State) : Host.Outcome State Fault Refusal :=
  s.issue o.gd 20 fun r st => s.fillRows r st o lit 20

/-! ### Block control (R215 to R218) -/

/-- WAIT. -/
def execWait (o : XOp) (s : State) : Host.Outcome State Fault Refusal :=
  s.issueX o fun r st => s.withEa r st o 1 fun e => s.synchronous r st e permR .wait (.wait o)
/-- PROBE. -/
def execProbe (o : XOp) (s : State) : Host.Outcome State Fault Refusal :=
  s.issueX o fun r st => s.withEa r st o 1 fun e => s.synchronous r st e permR .probe (.probe o)
/-- GENR. -/
def execGenr (o : XOp) (s : State) : Host.Outcome State Fault Refusal :=
  s.issueX o fun r st => s.withEa r st o 1 fun e => s.synchronous r st e permR .probe (.genr o)
/-- SEAL. -/
def execSeal (o : XOp) (s : State) : Host.Outcome State Fault Refusal :=
  s.issueX o fun r st => s.withEa r st o 1 fun e => s.posted r st o e permW [(.seal false, e.h)] xlen
/-- SEALE. -/
def execSeale (o : XOp) (s : State) : Host.Outcome State Fault Refusal :=
  s.issueX o fun r st => s.withEa r st o 1 fun e => s.posted r st o e permW [(.seal true, e.h)] xlen
/-- ARM: the arm word is read at issue. -/
def execArm (o : XOp) (s : State) : Host.Outcome State Fault Refusal :=
  s.issueX o fun r st => s.withEa r st o 1 fun e => s.synchronous r st e permW (.arm (st.reg o.rb)) (.arm o)
/-- CLR. -/
def execClr (o : XOp) (s : State) : Host.Outcome State Fault Refusal :=
  s.issueX o fun r st => s.withEa r st o 1 fun e => s.synchronous r st e permW (.clear false) (.clr o)
/-- CLRX. -/
def execClrx (o : XOp) (s : State) : Host.Outcome State Fault Refusal :=
  s.issueX o fun r st => s.withEa r st o 1 fun e => s.synchronous r st e permW (.clear true) (.clrx o)
/-- REL. -/
def execRel (o : XOp) (s : State) : Host.Outcome State Fault Refusal :=
  s.issueX o fun r st => s.withEa r st o 1 fun e => s.posted r st o e permW [(.release, e.h)] xlen

/-! ### Accumulation (R257, R258, R260) -/

/-- ACC. -/
def execAcc (o : XOp) (s : State) : Host.Outcome State Fault Refusal :=
  s.issueX o fun r st =>
    let v := low3 o.rd
    if tagClass (st.tag v) = 0 then s.raise r 7#5 (v.zeroExtend 64)
    else if st.tag v != tagOf o.fmt 0 then s.raise r 6#5 (tagMisVal v (tagOf o.fmt 0) (st.tag v))
    else s.withEa r st o 128 fun e =>
      s.posted r st o e permA
        [(.accum (Handle.off e.h) 128 o.fmt (o.imm6.extractLsb' 0 2) (o.mod.getLsbD 0) (payloadOf (st.vec v).toNat), e.h)] xlen

/-- ACNT. -/
def execAcnt (o : XOp) (s : State) : Host.Outcome State Fault Refusal :=
  s.issueX o fun r st => s.withEa r st o 1 fun e => s.synchronous r st e permA .arrival (.acnt o)

/-! ### Residence and migration (R237, R238, R240) -/

/-- PREF at the home (R237, R244): the block becomes resident at the handle's generation, its log applied (R252); a target gets its
copy at once from a resident block, else when the fill ends. `frm` is the module that asks, if it is another. The hint brings the die out
of an idle state (R363); while the supply keeps the dies in S3 it is dropped (R15). -/
def State.prefetchHere (s : State) (h : Word) (cl : BitVec 9) (blk : Nat) (frm : Option (BitVec 8)) (target : Option (BitVec 9)) : State :=
  if !s.supplyOk then s
  else
    let s0 := s.rouse (clusterDie cl)
    match Maps.get (s0.cluster cl).res blk with
    | some x => target.elim s0 (s0.answerPref x.b h frm)
    | none =>
      if Handle.gen h != (s0.effective cl blk).1.gen then s0
      else
        let s1 := s0.fetch cl blk []
        let c := s1.cluster cl
        target.elim s1 fun t => s1.setCluster cl { c with prefs := c.prefs ++ [(blk, h, frm, t)] }

/-- The effect of PREF (R237): at the home, or by a hint to the module that holds it. A target out of service drops it. -/
def State.prefetch (s : State) (h : Word) (p : Place) (target : Option (BitVec 9)) : State :=
  if target.any fun c => !s.inService c then s
  else match p with
    | .dom cl blk => s.prefetchHere h cl blk none target
    | .off m => s.routed m (.pref h target)
    | .pad _ _ => s

/-- PREF: a hint; what cannot be served is dropped. -/
def execPref (o : XOp) (s : State) : Host.Outcome State Fault Refusal :=
  s.issueX o fun r st => s.withEa r st o 1 fun e =>
    let done := st.next xlen
    if Handle.space e.h != 0#3 then s.setStrand r done
    else match s.xlate (coreCluster st.home) true e.h permR with
      | .miss => s.setStrand r { st with wait := .walk e.h 0#4 }
      | .ok p =>
        let target := if o.imm6.getLsbD 0 then some ((st.reg o.rb).extractLsb' 0 9) else none
        (s.prefetch e.h p target).setStrand r done
      | _ => s.setStrand r done

/-- DISCARD. -/
def execDiscard (o : XOp) (s : State) : Host.Outcome State Fault Refusal :=
  s.issueX o fun r st => s.withEa r st o 1 fun e => s.synchronous r st e permW .discard (.discard o)

/-- Move a strand on after MIGR (R240). -/
def State.moveTo (s : State) (r : Nat) (st : Strand) (h : Word) (home : BitVec 9) : State :=
  let c := s.standIn home
  if c == coreCluster st.home then s.setStrand r (st.next xlen)
  else if st.anch then s.raise r 10#5 h
  else if s.migrationBlocked st then s.retry r
  else (s.setStrand r (st.next xlen)).migrate r c

/-- MIGR: a handle of another module has no effect. -/
def execMigr (o : XOp) (s : State) : Host.Outcome State Fault Refusal :=
  s.issueX o fun r st => s.withEa r st o 1 fun e =>
    if Handle.space e.h == 1#3 && e.h.extractLsb' 38 11 == 0#11 && e.h.extractLsb' 30 8 != s.modNo then
      (if s.inDomain (e.h.extractLsb' 30 8) then s.setStrand r (st.next xlen) else s.toFaultQueue r e.h (.perm permR))
    else match s.xlate (coreCluster st.home) true e.h permR with
      | .miss => s.setStrand r { st with wait := .walk e.h permR }
      | .fault => s.toFaultQueue r e.h (.perm permR)
      | .migrate c => s.moveTo r st e.h c
      | .ok (.dom c _) => s.moveTo r st e.h c
      | .ok _ => s.setStrand r (st.next xlen)

/-! ### Replies (R213 to R218, R238, R260, R278) -/

/-- Window words from bytes, word `n - 1` first. -/
def Strand.loadWords (st : Strand) (first : Nat) (v : Nat) (n : Nat) : Strand :=
  match n with
  | 0 => st
  | n + 1 => (st.loadWords first v n).setW (first + n) (BitVec.ofNat 32 (v >>> (32 * n)))

/-- The strand after the data of its read: destination, then pointer, then pc (R213, R215). -/
def Strand.readDone (st : Strand) (i : Instr) (h upd : Word) (bytes : Payload) (pw : BitVec 16) : Strand :=
  let off := (Handle.off h).toNat
  match i with
  | .ld o =>
    let n := 2 ^ o.fmt.toNat
    let v : Word := ((Payload.slice bytes off n).extractLsb' 0 (8 * n)).signExtend 64
    { ((st.setReg o.rd v).setReg o.ra upd).next xlen with wait := .run }
  | .ldv o =>
    let v : Vec := (Payload.slice bytes off 128).extractLsb' 0 1024
    { ((st.setVec (low3 o.rd) v (tagOf o.fmt o.fd)).setReg o.ra upd).next xlen with wait := .run }
  | .wld o =>
    let v := (Payload.slice bytes off (4 * (o.bit.toNat + 1))).toNat
    { ((st.loadWords o.imm6.toNat v (o.bit.toNat + 1)).setReg o.ra upd).next xlen with wait := .run }
  | .wait o => { (if o.imm6.getLsbD 0 then st.setReg o.rd (pw.zeroExtend 64) else st).next xlen with wait := .run }
  | .send o => { st with wait := .send (.send o) bytes }
  | .loadrec _ _ _ _ => { st with loaded := st.loaded ++ [(Handle.block h, bytes)], wait := .run }
  | _ => st

/-- The strand after a status or a probe word (R216 to R218, R260). -/
def Strand.statusDone (st : Strand) (i : Instr) (h : Word) (r : Reply) : Strand :=
  let done : BitVec 4 → Word → Strand := fun rd v => { (st.setReg rd v).next xlen with wait := .run }
  match i, r with
  | .arm o, .status c _ => done o.rd (c.zeroExtend 64)
  | .clr o, .status c _ => done o.rd (c.zeroExtend 64)
  | .clrx o, .status c _ => done o.rd (c.zeroExtend 64)
  | .discard o, .status c _ => done o.rd (c.zeroExtend 64)
  | .acnt o, .status c t => done o.rd (0#45 ++ c.extractLsb' 0 3 ++ t)
  | .genr o, .probe w => done o.rd (setGen h (w.extractLsb' 2 12))
  | .probe o, .probe w =>
    if o.imm6.getLsbD 0 then
      { (st.setBit o.rd o.bit.toNat (w.getLsbD 14 && w.extractLsb' 2 12 == Handle.gen h)).next xlen with wait := .run }
    else done o.rd w
  | _, _ => st

/-- Is the reply to this instruction the data of a read? -/
def readsData (i : Instr) : Bool :=
  match i with
  | .ld _ => true
  | .ldv _ => true
  | .wld _ => true
  | .wait _ => true
  | .send _ => true
  | .loadrec _ _ _ _ => true
  | _ => false

/-- The data that the home of a space-0 block on another die or module returned is placed as a copy at the reader's die (R225, R226);
the reply of a home carries the presence word. -/
def State.keepCopy (s : State) (c : BitVec 9) (o : Op) (d : Payload) (pw : BitVec 16) : State :=
  if pw != 0 && o.kind == .read false && Handle.space o.h == 0#3 && !o.place.onDie (clusterDie c) then
    s.placeCopy (s.copySlice (clusterDie c) o.h) o.h d
  else s

/-- What LOADREC has read is forgotten. -/
def Strand.forget (st : Strand) (i : Instr) : Strand :=
  match i with
  | .loadrec _ _ _ _ => { st with loaded := [] }
  | _ => st

/-- A reply takes effect in a strand's record. -/
def State.replied (s : State) (r : Nat) (st : Strand) (i : Instr) (h upd : Word) (x : Reply) : State :=
  match x with
  | .data d pw _ => s.setStrand r (st.readDone i h upd d pw)
  | .stale => (s.setStrand r (st.forget i)).raise r 8#5 h
  | .poison => (s.setStrand r (st.forget i)).raise r 17#5 h
  | .status c t =>
    match i with
    | .join _ _ => if c = 0 then s.finishEnd r else if c = 3 then s.raise r 8#5 h else s.raise r 15#5 h
    | _ => s.setStrand r (st.statusDone i h (.status c t))
  | .probe w => s.setStrand r (st.statusDone i h (.probe w))
  | .report _ _ => s

/-- Message `m` as the reply that strand `r` waits for. -/
def State.replyFor (s : State) (m : Nat) : Option (Op × Reply × Nat × Strand × Instr × Word × Word) :=
  match Maps.get s.net m with
  | some (.reply o x) =>
    match o.asker with
    | .strand r =>
      match s.strand r with
      | none => none
      | some st =>
        match st.wait with
        | .reply i h upd =>
          if s.awaited o then some (o, x, r, st, i, h, upd) else none
        | _ => none
    | _ => none
  | _ => none

/-- A reply nobody waits for any more is dropped (R322). -/
def State.dropReply (s : State) (m : Nat) : State :=
  match Maps.get s.net m with
  | some (.reply o _) =>
    match o.asker with
    | .strand _ => (s.take m).unack o.unit o.seq
    | _ => s
  | _ => s

/-- What the Keep waits for when a synchronous operation found no block: a slot that has left may return, a handle that its own
module does not translate will not be served (R229, R243). -/
def Place.need (p : Place) : Need :=
  match p with
  | .off _ => .never
  | _ => .perm 0#4

/-- Deliver a reply: the copy, the acknowledgement, the strand. A bare report says that the read parked on another module, one with
XLATE that there was no block. -/
def State.deliver (s : State) (m : Nat) (o : Op) (x : Reply) (r : Nat) (st : Strand) (i : Instr) (h upd : Word) : State :=
  let s1 := (s.take m).unack o.unit o.seq
  match x with
  | .data d pw _ => (s1.keepCopy (coreCluster st.home) o d pw).replied r st i h upd x
  | .report bits _ => if bits = 0 then s1.park r o.place h else s1.toFaultQueue r h o.place.need
  | _ => s1.replied r st i h upd x

/-- READ_REPLY (R213, R215): data, STALE or POISON reaches the strand in its slot. -/
def execReadReply (m : Nat) (s : State) : Host.Outcome State Fault Refusal :=
  match s.replyFor m with
  | none => .next (s.dropReply m)
  | some (o, x, r, st, i, h, upd) => if readsData i && st.inSlot then .next (s.deliver m o x r st i h upd) else .next s

/-- STATUS_REPLY (R216 to R218, R238, R260, R278). -/
def execStatusReply (m : Nat) (s : State) : Host.Outcome State Fault Refusal :=
  match s.replyFor m with
  | none => .next (s.dropReply m)
  | some (o, x, r, st, i, h, upd) => if !readsData i && st.inSlot then .next (s.deliver m o x r st i h upd) else .next s

/-- A strand whose instruction completed outside a slot goes to its dispatcher, or is held there (R322). -/
def State.toHeld (s : State) (r : Nat) : State :=
  match s.strand r with
  | none => s
  | some st => if st.inSlot then s else s.toDispatcher r st.clusterOf

/-- RECORD_STORE_REPLY (R322): the reply completes the instruction in the stored record. -/
def execRecordStoreReply (m : Nat) (s : State) : Host.Outcome State Fault Refusal :=
  match s.replyFor m with
  | none => .next (s.dropReply m)
  | some (o, x, r, st, i, h, upd) => if st.inSlot then .next s else .next ((s.deliver m o x r st i h upd).toHeld r)

end Sys2Proof.Machine
end

