-- ==== Sys2Proof/Machine/Copy.lean ====
section
/-!
DEFINITION. The copy engine, the host proxy, host atomics, and acknowledgements of posted operations (R232 to R236, R241,
R242, R255).
-/
namespace Sys2Proof.Machine

/-! ### Host contexts (R235, R385) -/

/-- Field `k` of host context `c`: 0 queue pair, 1 rkey, 2 base, 3 length. -/
def State.hostCtx (s : State) (c : BitVec 4) (k : Nat) : Word := Maps.getD s.flash (0x12000 + 32 * c.toNat + 8 * k) 0
/-- Length of a context; zero is unset. -/
def State.ctxLen (s : State) (c : BitVec 4) : Nat := (s.hostCtx c 3).toNat

/-! ### The copy word (R234) -/

def copyMask (w : Word) : BitVec 16 := w.extractLsb' 0 16
def copyRows (w : Word) : Nat := (w.extractLsb' 16 5).toNat + 1
def copyStride (w : Word) : Nat := (w.extractLsb' 24 8).toNat
def copyCtx (w : Word) : BitVec 4 := w.extractLsb' 32 4
def copyOut (w : Word) : Bool := w.getLsbD 36
/-- Reserved bits zero. -/
def copyClean (w : Word) : Bool := w.extractLsb' 21 3 == 0 && w.extractLsb' 37 27 == 0
/-- Is the word legal for CPY? -/
def cpyWordOk (w : Word) : Bool :=
  copyClean w && w.extractLsb' 32 5 == 0 && ((copyMask w == 0) == (copyStride w == 0))
/-- Is it legal for CPYS? -/
def cpysWordOk (w : Word) : Bool := copyClean w && w.extractLsb' 32 5 == 0 && copyMask w == 0 && copyStride w == 0
/-- Is it legal for CPYH? -/
def cpyhWordOk (w : Word) : Bool := copyClean w && copyMask w == 0 && copyStride w == 0
/-- The destinations of a copy word (R234). -/
def copyDests (w : Word) (hd : Word) : List Word :=
  if copyMask w = 0 then [hd]
  else ((List.range 16).filter fun i => (copyMask w).getLsbD i).map fun i => padd49 hd (BitVec.ofNat 64 (i * copyStride w * 4096))

/-! ### Translation of sources and destinations (R231, R241) -/

/-- The first handle that a copy command cannot translate at once decides: a walk, XLATE, a migration or ANCHOR. `dst` marks
destinations, which never migrate. `local_` keeps them on the module: R241 says so of CPY and CPYS and of no other member, so CPYX and CPYH
may write a block of another module (log entry 100, the model's choice). -/
def State.copyAccess (s : State) (r : Nat) (st : Strand) (hs : List (Word × Bool)) (local_ : Bool) (got : List Place)
    (go : List Place → State) : State :=
  match hs with
  | [] => go got
  | (h, dst) :: l =>
    let perm := if dst then permW else permR
    match s.xlate (coreCluster st.home) true h perm with
    | .ok p =>
      match p with
      | .off _ => if dst && local_ then s.toFaultQueue r h (.permHere perm) else s.copyAccess r st l local_ (got ++ [p]) go
      | _ => s.copyAccess r st l local_ (got ++ [p]) go
    | .miss => s.setStrand r { st with wait := .walk h perm }
    | .fault => s.toFaultQueue r h (.perm perm)
    | .migrate c =>
      if dst then
        match s.padPlace h with
        | some p => s.copyAccess r st l local_ (got ++ [p]) go
        | none => s.toFaultQueue r h (.perm perm)
      else if st.anch then s.raise r 10#5 h
      else if s.migrationBlocked st then s.retry r
      else s.migrate r c

/-- Step 5 of R241: a place in the core's ring, a place in the batch. The home that R265 counts the command at is the cluster's copy engine,
of CPYH too, whose host accesses the engine asks the die's proxy for (log entry 44, the model's choice). -/
def State.enring (s : State) (r : Nat) (st : Strand) (o : XOp) (kind : CopyKind) (hs : Word) (rows : Nat)
    (srcs : List (Word × Place)) (dstOff : BitVec 12) (dests : List (Word × Place)) : State :=
  let c := s.core st.home
  if 16 ≤ c.ring.length then s.retry r
  else
    let b := st.batchFor o
    let q := s.openBatch r b (homeEngine (coreCluster st.home))
    let req : CopyReq := { tracker := st.tracker, batch := b, ordinal := BitVec.ofNat 32 q.1, node := st.node,
                           dests := dests.map fun d => (d.1, d.2, false), got := Sum.zero }
    let id := q.2.fresh
    let cmd : CopyCmd := { id := id, core := st.home, kind := kind, hs := hs, rows := rows,
                           srcs := srcs.map fun x => (x.1, x.2, none), dstOff := dstOff, reqs := [req], asked := [],
                           started := false, posted := false }
    let s1 := { q.2 with fresh := id + 1 }
    (s1.setCore st.home { c with ring := c.ring ++ [cmd] }).updStrand r fun st => st.next xlen

/-! ### Instructions (R241) -/

/-- The row of an offset. -/
def offRow (h : Word) : Nat := ((Handle.off h).extractLsb' 7 5).toNat

/-- CPY. -/
def execCpy (o : XOp) (s : State) : Host.Outcome State Fault Refusal :=
  s.issueX o fun r st =>
    let w := st.reg o.rd
    if !cpyWordOk w then s.raise r 3#5 w
    else
      let rows := copyRows w
      s.withEa r st o 128 fun e =>
        let hs := st.reg o.rb
        if 32 < offRow e.h + rows then s.raise r 3#5 e.h
        else if !aligned hs 128 || decide (32 < offRow hs + rows) then s.raise r 3#5 hs
        else
          let ds := copyDests w e.h
          s.copyAccess r st ((hs, false) :: ds.map fun d => (d, true)) true [] fun ps =>
            match ps with
            | [] => s
            | p :: l => s.enring r st o .rows hs rows [(hs, p)] (Handle.off e.h) (ds.zip l)

/-- Handles of the segments of CPYS. -/
def segments (hs t : Word) (rows : Nat) : List Word := (List.range rows).map fun k => padd49 hs (BitVec.ofNat 64 k * t)
/-- A handle with its offset zero. -/
def blockOf (h : Word) : Word := h &&& ~~~0xFFF#64

/-- The first handle of each block that a list names, in order; `seen` are the blocks named before. -/
def firstOfBlock (seen : List Word) (l : List Word) : List Word :=
  match l with
  | [] => []
  | h :: r => if seen.contains (blockOf h) then firstOfBlock seen r else h :: firstOfBlock (blockOf h :: seen) r

/-- CPYS: each block is read once, and a segment that does not translate is reported by its own handle (R20). -/
def execCpys (o : XOp) (s : State) : Host.Outcome State Fault Refusal :=
  s.issueX o fun r st =>
    let w := st.reg o.rd
    if !cpysWordOk w then s.raise r 3#5 w
    else
      let rows := copyRows w
      s.withEa r st o 128 fun e =>
        let hs := st.reg o.rb
        let g := st.reg o.rc
        let t : Word := (g.extractLsb' 0 32).signExtend 64
        if 32 < offRow e.h + rows then s.raise r 3#5 e.h
        else if !aligned hs 8 || decide (4096 < (Handle.off hs).toNat + 128) then s.raise r 3#5 hs
        else if t.toNat % 8 != 0 || (segments hs t rows).any fun h => decide (4096 < (Handle.off h).toNat + 128) then s.raise r 3#5 g
        else
          let bs := firstOfBlock [] (segments hs t rows)
          s.copyAccess r st ((bs.map fun b => (b, false)) ++ [(e.h, true)]) true [] fun ps =>
            s.enring r st o (.gather t) hs rows (bs.zip ps) (Handle.off e.h) [(e.h, ps.getLast?.getD (.off 0))]

/-- CPYX. -/
def execCpyx (o : XOp) (s : State) : Host.Outcome State Fault Refusal :=
  s.issueX o fun r st => s.withEa r st o 128 fun e =>
    let hs := st.reg o.rb
    if Handle.off e.h != 0 then s.raise r 3#5 e.h
    else if Handle.off hs != 0 then s.raise r 3#5 hs
    else s.copyAccess r st [(hs, false), (e.h, true)] false [] fun ps =>
      match ps with
      | [p, d] => s.enring r st o (.transpose o.fmt) hs 32 [(hs, p)] 0 [(e.h, d)]
      | _ => s

/-- The host operand of CPYH, HADD and HCAS (R241, R242): alignment of `addr`, context, length. For CPYH `addr` is the offset
gH; for an atomic it is the host address, which no unset context gives. -/
def State.hostOperand (s : State) (r : Nat) (c : BitVec 4) (addr gh : Word) (n : Nat) (go : State) : State :=
  if addr.toNat % 8 != 0 then s.raise r 3#5 gh
  else if s.ctxLen c = 0 then s.toFaultQueue r (c.zeroExtend 64) (.ctx c)
  else if s.ctxLen c < gh.toNat + n then s.raise r 3#5 gh
  else go

/-- CPYH. -/
def execCpyh (o : XOp) (s : State) : Host.Outcome State Fault Refusal :=
  s.issueX o fun r st =>
    let w := st.reg o.rd
    if !cpyhWordOk w then s.raise r 3#5 w
    else
      let rows := copyRows w
      s.withEa r st o 128 fun e =>
        let gh := st.reg o.rb
        if 32 < offRow e.h + rows then s.raise r 3#5 e.h
        else s.hostOperand r (copyCtx w) gh gh (128 * rows)
          (s.copyAccess r st [(e.h, !copyOut w)] false [] fun ps =>
            match ps with
            | [p] =>
              if copyOut w then s.enring r st o (.toHost (copyCtx w) gh) e.h rows [(e.h, p)] 0 []
              else s.enring r st o (.fromHost (copyCtx w) gh) gh rows [] (Handle.off e.h) [(e.h, p)]
            | _ => s)

/-! ### The engine (R232, R233) -/

/-- Bytes a command moves. -/
def CopyCmd.bytes (c : CopyCmd) : Nat := 128 * c.rows
/-- May two commands merge into one multicast (R232)? The offset that R232 asks to be the same is taken as the destination's too: commands
whose destination offsets differ do not merge (log entry 44, the model's choice). -/
def CopyCmd.merges (a b : CopyCmd) : Bool :=
  a.kind == .rows && b.kind == .rows && a.hs == b.hs && a.rows == b.rows && a.dstOff == b.dstOff
    && (a.reqs.all fun x => b.reqs.all fun y => x.dests.all fun d => y.dests.all fun e => blockOf d.1 != blockOf e.1)
/-- The commands `a` and `b` as one with the requesters of both (R233); their destination offsets are equal. -/
def CopyCmd.absorb (a b : CopyCmd) : CopyCmd := { a with reqs := a.reqs ++ b.reqs }

/-- Replace or remove a command at its engine. -/
def State.setCmd (s : State) (cl : BitVec 9) (c : CopyCmd) : State :=
  let k := s.cluster cl
  s.setCluster cl { k with eng := { k.eng with active := Maps.put k.eng.active c.id c } }
def State.delCmd (s : State) (cl : BitVec 9) (id : Nat) : State :=
  let k := s.cluster cl
  s.setCluster cl { k with eng := { k.eng with active := Maps.del k.eng.active id } }

/-- The answer of a command to one requester's batch (R233, R266): the engine is its home. -/
def State.cmdOutcome (s : State) (cl : BitVec 9) (q : CopyReq) (x : Sum) : State :=
  s.tally (homeEngine cl) q.tracker q.batch { x with count := 1 }

/-- A command fails before it writes: each requester's batch gets the report (R233). -/
def State.failCmd (s : State) (cl : BitVec 9) (c : CopyCmd) (bits : BitVec 16) (h : Word) : State :=
  c.reqs.foldl (fun t q => t.cmdOutcome cl q (Sum.one q.ordinal.toNat 0 bits (causeOf bits) h)) (s.delCmd cl c.id)

/-- Bits of an element of CPYX (R241). -/
def transposeBits (fmt : BitVec 4) : Nat := if fmt = 3 || fmt = 4 then 8 else 16
/-- The first `n` elements of the transposed block. -/
def transposed (w p n : Nat) : Nat :=
  match n with
  | 0 => 0
  | n + 1 =>
    let e := 1024 / w
    let c := n % e
    let src := (c % 32) * e + 32 * (c / 32) + n / e
    (((p >>> (src * w)) % 2 ^ w) <<< (n * w)) ||| transposed w p n

/-- The bytes a command writes, in the low end (R241). -/
def CopyCmd.data (c : CopyCmd) : Payload :=
  let src : Word → Payload := fun h => match c.srcs.find? fun x => blockOf x.1 == blockOf h with | some (_, _, some d) => d | _ => 0
  match c.kind with
  | .rows => Payload.slice (src c.hs) (Handle.off c.hs).toNat (128 * c.rows)
  | .gather t => (List.range c.rows).foldl (fun p k =>
      let h := padd49 c.hs (BitVec.ofNat 64 k * t)
      Payload.put p (128 * k) 128 (Payload.slice (src h) (Handle.off h).toNat 128)) 0
  | .transpose fmt => payloadOf (transposed (transposeBits fmt) (src c.hs).toNat (32768 / transposeBits fmt))
  | .fromHost _ _ => src c.hs
  | .toHost _ _ => Payload.slice (src c.hs) (Handle.off c.hs).toNat (128 * c.rows)

/-- Ask for source block `seg` (R226, R233): a copy answers at once, else a read goes to the home, when the engine may send it one
more operation (R255). -/
def State.askSource (s : State) (cl : BitVec 9) (c : CopyCmd) (seg : Nat) : State :=
  match c.srcs[seg]? with
  | none => s
  | some (h, p, _) =>
    match s.copyFor cl h p with
    | some (d, s1) => s1.setCmd cl { c with srcs := c.srcs.set seg (h, p, some d) }
    | none =>
      match c.reqs with
      | [] => s
      | q :: _ =>
        if s.roomFor (unitEngine cl) (homeOf p) 1 then
          (s.setCmd cl { c with asked := c.asked.filter (· != seg) ++ [seg] }).sendOp (.read false) h p (unitEngine cl)
            (.copySource cl c.id seg) q.tracker q.batch q.ordinal.toNat q.node
        else s

/-- Post one destination write. -/
def State.postDest (s : State) (cl : BitVec 9) (c : CopyCmd) (d : Payload) (i : Nat) (q : CopyReq) (j : Nat) (x : Word × Place × Bool) : State :=
  s.sendOp (.write (Handle.off x.1) (128 * c.rows) d false) x.1 x.2.1 (unitEngine cl) (.copyDest cl c.id i j) q.tracker q.batch
    q.ordinal.toNat q.node

/-- Number a list from 0. -/
def numbered {α : Type} (l : List α) : List (Nat × α) := (List.range l.length).zip l

/-- The destination writes of a command in order: requester, destination, its handle, place and whether it has answered. -/
def CopyCmd.targets (c : CopyCmd) : List ((Nat × CopyReq) × (Nat × (Word × Place × Bool))) :=
  (numbered c.reqs).flatMap fun q => (numbered q.2.dests).map fun x => (q, x)
/-- Those that have not been sent. -/
def CopyCmd.unsent (c : CopyCmd) : List ((Nat × CopyReq) × (Nat × (Word × Place × Bool))) := c.targets.drop c.sent
/-- How many operations towards the homes `hs`, in order, unit `u` may send now, at most 1,024 standing unacknowledged at each (R255);
`before` are the homes of those counted. -/
def State.sendable (s : State) (u : Nat) (before : List Nat) (hs : List Nat) : Nat :=
  match hs with
  | [] => 0
  | h :: r => if s.roomFor u h (before.count h + 1) then s.sendable u (h :: before) r + 1 else 0
/-- May the engine send the command's next write? -/
def State.engineRoom (s : State) (cl : BitVec 9) (c : CopyCmd) : Bool :=
  match c.unsent with
  | [] => true
  | x :: _ => s.roomFor (unitEngine cl) (homeOf x.2.2.2.1) 1

/-- A request of the engine to its die's proxy (R235). -/
def State.askProxy (s : State) (d : BitVec 3) (q : ProxyReq) : State :=
  let x := s.die d
  s.setDie d { x with proxy := x.proxy ++ [q] }

/-- When every source has answered, the writes are posted as far as there is room (R255), or the proxy is asked to write to the host (R233,
R241). -/
def State.advanceCmd (s : State) (cl : BitVec 9) (id : Nat) : State :=
  match Maps.get (s.cluster cl).eng.active id with
  | none => s
  | some c =>
    if c.posted || c.srcs.any fun x => x.2.2.isNone then s
    else
      let d := c.data
      match c.kind with
      | .toHost ctx gh =>
        let s1 := s.setCmd cl { c with posted := true }
        s1.askProxy (clusterDie cl)
          { id := s1.fresh, strand := none, cmd := some (cl, id), ctx := ctx, addr := s1.hostCtx ctx 2 + gh, op := 1, a := 0, b := 0,
            bytes := (Payload.toBytes d).take c.bytes, sent := false }
          |> fun t => { t with fresh := t.fresh + 1 }
      | _ =>
        let n := s.sendable (unitEngine cl) [] (c.unsent.map fun x => homeOf x.2.2.2.1)
        (c.unsent.take n).foldl (fun t x => t.postDest cl c d x.1.1 x.1.2 x.2.1 x.2.2)
          (s.setCmd cl { c with sent := c.sent + n, posted := decide (c.targets.length ≤ c.sent + n) })

/-- Ask for the source blocks of a started command that have not been asked for. -/
def State.askRest (s : State) (cl : BitVec 9) (id : Nat) : State :=
  match Maps.get (s.cluster cl).eng.active id with
  | none => s
  | some c => (List.range c.srcs.length).foldl (fun t k =>
      match Maps.get (t.cluster cl).eng.active id with
      | none => t
      | some x => if x.asked.contains k || ((x.srcs[k]?).any fun q => q.2.2.isSome) then t else t.askSource cl x k) s

/-- Start a command (R233): every source block is asked for, or the proxy. -/
def State.startCmd (s : State) (cl : BitVec 9) (c : CopyCmd) : State :=
  let c' := { c with started := true }
  let s1 := s.setCmd cl c'
  match c.kind with
  | .fromHost ctx gh =>
    let s2 := s1.setCmd cl { c' with srcs := [(gh, .off s.modNo, none)] }
    s2.askProxy (clusterDie cl)
      { id := s2.fresh, strand := none, cmd := some (cl, c.id), ctx := ctx, addr := s2.hostCtx ctx 2 + gh, op := 0,
        a := BitVec.ofNat 64 c.bytes, b := 0, bytes := [], sent := false }
      |> fun t => { t with fresh := t.fresh + 1 }
  | _ =>
    (s1.askRest cl c.id).advanceCmd cl c.id

/-- The next ring the engine serves (R232): its own while the deficit covers the head, else the next with a command. -/
def State.nextRing (s : State) (cl : BitVec 9) : Option (BitVec 4 × Nat × Bool) :=
  let e := (s.cluster cl).eng
  let head : BitVec 4 → Option CopyCmd := fun k => (s.core (cl ++ k)).ring.head?
  let own := match head e.ring with
    | some c => if c.bytes ≤ Maps.getD e.deficit e.ring.toNat 0 then some (e.ring, Maps.getD e.deficit e.ring.toNat 0, false) else none
    | none => none
  match own with
  | some x => some x
  | none =>
    let order := (List.range 16).map fun i => e.ring + BitVec.ofNat 4 (i + 1)
    (order.find? fun k => (head k).isSome).map fun k =>
      (k, Maps.getD e.deficit k.toNat 0 + 4096 * (s.core (cl ++ k)).ringwt.toNat, true)

/-- Has a started command a source block that it could ask for? -/
def State.sourceWaits (s : State) (cl : BitVec 9) (c : CopyCmd) : Bool :=
  (numbered c.srcs).any fun q => !c.asked.contains q.1 && q.2.2.2.isNone && s.roomFor (unitEngine cl) (homeOf q.2.2.1) 1

/-- COPY_COMMAND_START (R232): a command that waited for room posts its writes, or asks for the rest of its sources; else the next
head starts, merged with equal multicasts of the cluster. -/
def execCopyCommandStart (cl : BitVec 9) (s : State) : Host.Outcome State Fault Refusal :=
  let held := (s.cluster cl).eng.active.find? fun p =>
    (match p.2.kind with | .fromHost _ _ => false | _ => true) && !p.2.posted && s.sourceWaits cl p.2
  let ready := (s.cluster cl).eng.active.find? fun p => !p.2.posted && (p.2.srcs.all fun x => x.2.2.isSome) && s.engineRoom cl p.2
  match ready with
  | some p => .next (s.advanceCmd cl p.1)
  | none =>
    match held with
    | some p => .next ((s.askRest cl p.1).advanceCmd cl p.1)
    | none =>
    match s.nextRing cl with
    | none => .next s
    | some (k, deficit, _) =>
      let core := cl ++ k
      match (s.core core).ring with
      | [] => .next s
      | c :: rest =>
        let s1 := s.setCore core { s.core core with ring := rest }
        let left := if rest.isEmpty then 0 else deficit - c.bytes
        let k1 := s1.cluster cl
        let s2 := s1.setCluster cl { k1 with eng := { k1.eng with ring := k, deficit := Maps.put k1.eng.deficit k.toNat left } }
        let merged := (clusterCores cl).foldl (fun (acc : CopyCmd × State) kc =>
          let l := (acc.2.core kc).ring
          l.foldl (fun (acc : CopyCmd × State) x =>
            if acc.1.merges x then
              (acc.1.absorb x, acc.2.setCore kc { acc.2.core kc with ring := (acc.2.core kc).ring.filter fun y => y.id != x.id })
            else acc) acc) (c, s2)
        .next (merged.2.startCmd cl merged.1)

/-- COPY_SOURCE_REPLY (R233): the data of a source block, or its failure for every requester. -/
def execCopySourceReply (m : Nat) (s : State) : Host.Outcome State Fault Refusal :=
  match Maps.get s.net m with
  | some (.reply o x) =>
    match o.asker with
    | .copySource cl id seg =>
      let s1 := (s.take m).unack o.unit o.seq
      match Maps.get (s1.cluster cl).eng.active id with
      | none => .next s1
      | some c =>
        match x with
        | .data d pw _ =>
          let s2 := s1.keepCopy cl o d pw
          .next ((s2.setCmd cl { c with srcs := c.srcs.set seg (o.h, o.place, some d) }).advanceCmd cl id)
        | .stale => .next (s1.failCmd cl c bStale o.h)
        | .poison => .next (s1.failCmd cl c bPoison o.h)
        | .report bits _ => .next (if bits = 0 then s1 else s1.failCmd cl c bits o.h)
        | _ => .next s1
    | _ => .next s
  | _ => .next s

/-- One destination has answered; when the last has, the command answers its requester (R266). -/
def State.destAnswered (s : State) (cl : BitVec 9) (id i j : Nat) (bits : BitVec 16) (cause : BitVec 5) : State :=
  match Maps.get (s.cluster cl).eng.active id with
  | none => s
  | some c =>
    match c.reqs[i]? with
    | none => s
    | some q =>
      match q.dests[j]? with
      | none => s
      | some (h, p, done) =>
        if done then s
        else
          let q' := { q with dests := q.dests.set j (h, p, true), got := q.got.merge (Sum.one q.ordinal.toNat j bits cause h) }
          let c' := { c with reqs := c.reqs.set i q' }
          let s1 := s.setCmd cl c'
          let s2 := if q'.dests.all fun d => d.2.2 then s1.cmdOutcome cl q' q'.got else s1
          if c'.reqs.all fun q => q.dests.all fun d => d.2.2 then s2.delCmd cl id else s2

/-! ### Host atomics and the proxy (R235, R242) -/

/-- A host atomic: the strand waits for the proxy (R103). -/
def State.hostAtomic (s : State) (r : Nat) (st : Strand) (o : XOp) (op : BitVec 2) (a b : Word) (i : Instr) : State :=
  let c := o.imm6.extractLsb' 0 4
  let gh := st.reg o.ra
  s.hostOperand r c (if s.ctxLen c = 0 then 0 else s.hostCtx c 2 + gh) gh 8
    (let s1 := (s.setStrand r { st with wait := .proxy i }).askProxy (coreDie st.home)
       { id := s.fresh, strand := some r, cmd := none, ctx := c, addr := s.hostCtx c 2 + gh, op := op, a := a, b := b, bytes := [],
         sent := false }
     { s1 with fresh := s1.fresh + 1 })

/-- HADD (R242). -/
def execHadd (o : XOp) (s : State) : Host.Outcome State Fault Refusal :=
  s.issueX o fun r st => s.hostAtomic r st o 2 (st.reg o.rb) 0 (.hadd o)
/-- HCAS (R242). -/
def execHcas (o : XOp) (s : State) : Host.Outcome State Fault Refusal :=
  s.issueX o fun r st => s.hostAtomic r st o 3 (st.reg o.rb) (st.reg o.rc) (.hcas o)

/-- Is an earlier atomic of the same lane outstanding (R235)? -/
def laneBusy (l : List ProxyReq) (q : ProxyReq) : Bool :=
  q.op.getLsbD 1 && (l.takeWhile fun x => x.id != q.id).any fun x => x.op.getLsbD 1 && x.addr.extractLsb' 6 6 == q.addr.extractLsb' 6 6

/-- PROXY_REQUEST (R235): the routine issues a request to the host. -/
def execProxyRequest (die : BitVec 3) (req : Nat) (s : State) : Host.Outcome State Fault Refusal :=
  let d := s.die die
  match d.proxy.find? fun q => q.id == req with
  | none => .next s
  | some q =>
    if q.sent || laneBusy d.proxy q then .next s
    else
      let q' := { q with sent := true }
      .next ((s.setDie die { d with proxy := d.proxy.map fun x => if x.id == req then q' else x }).emit (.proxy q'))

/-- A host atomic that failed: XLATE, the host offset as tval (R229, R242). -/
def State.proxyFailed (s : State) (q : ProxyReq) : State :=
  let gh := q.addr - s.hostCtx q.ctx 2
  match q.strand, q.cmd with
  | some r, _ => s.toFaultQueue r gh .never
  | none, some (cl, id) =>
    match Maps.get (s.cluster cl).eng.active id with
    | none => s
    | some c => s.failCmd cl c bXlate gh
  | none, none => s

/-- A host access that succeeded. -/
def State.proxyDone (s : State) (q : ProxyReq) (data : List Byte) : State :=
  match q.strand, q.cmd with
  | some r, _ =>
    let s1 := s.updStrand r fun st =>
      match st.wait with
      | .proxy (.hadd o) => { (st.setReg o.rd (BitVec.ofNat 64 (leNat (data.take 8)))).next xlen with wait := .run }
      | .proxy (.hcas o) => { (st.setReg o.rd (BitVec.ofNat 64 (leNat (data.take 8)))).next xlen with wait := .run }
      | _ => st
    s1.toHeld r
  | none, some (cl, id) =>
    match Maps.get (s.cluster cl).eng.active id with
    | none => s
    | some c =>
      match c.kind with
      | .fromHost _ gh =>
        (s.setCmd cl { c with srcs := [(gh, .off s.modNo, some (Payload.ofBytes (data.take c.bytes)))], hs := gh }).advanceCmd cl id
      | _ => c.reqs.foldl (fun t q => t.cmdOutcome cl q (Sum.one q.ordinal.toNat 0 0 0 0)) (s.delCmd cl id)
  | none, none => s

/-- PROXY_REPLY (R235, R241, R242). -/
def execProxyReply (die : BitVec 3) (req : Nat) (ok : Bool) (data : List Byte) (s : State) : Host.Outcome State Fault Refusal :=
  let d := s.die die
  match d.proxy.find? fun q => q.id == req with
  | none => .next s
  | some q =>
    if !q.sent then .next s
    else
      let s1 := s.setDie die { d with proxy := d.proxy.filter fun x => x.id != req }
      .next (if ok then s1.proxyDone q data else s1.proxyFailed q)

/-- PROXY_RETRY (R235, R242): sent again under its PSN, or given up after 100 ms. -/
def execProxyRetry (die : BitVec 3) (req : Nat) (expired : Bool) (s : State) : Host.Outcome State Fault Refusal :=
  let d := s.die die
  match d.proxy.find? fun q => q.id == req with
  | none => .next s
  | some q =>
    if !q.sent then .next s
    else if expired then .next ((s.setDie die { d with proxy := d.proxy.filter fun x => x.id != req }).proxyFailed q)
    else .next (s.emit (.proxy q))

end Sys2Proof.Machine
end

