-- ==== Sys2Proof/Machine/Keccak.lean ====
section
/-!
DEFINITION. SHAKE256, which the spec names and does not define (R35, R296, R382, R383): the function of FIPS 202, over lanes of 64
bits (log entry 81).
-/
namespace Sys2Proof.Machine

/-- A lane `(x, y)` of the 1,600-bit state. -/
def laneAt (a : Vector (BitVec 64) 25) (x y : Nat) : BitVec 64 := a[x % 5 + 5 * (y % 5)]?.getD 0

/-- The rotation of each lane. -/
def laneRotation : List Nat :=
  [0, 1, 62, 28, 27, 36, 44, 6, 55, 20, 3, 10, 43, 25, 39, 41, 45, 15, 21, 8, 18, 2, 61, 56, 14]

/-- The constants of the 24 rounds. -/
def roundConstants : List (BitVec 64) :=
  [0x0000000000000001, 0x0000000000008082, 0x800000000000808A, 0x8000000080008000, 0x000000000000808B, 0x0000000080000001,
   0x8000000080008081, 0x8000000000008009, 0x000000000000008A, 0x0000000000000088, 0x0000000080008009, 0x000000008000000A]
  ++ [0x000000008000808B, 0x800000000000008B, 0x8000000000008089, 0x8000000000008003, 0x8000000000008002, 0x8000000000000080,
      0x000000000000800A, 0x800000008000000A, 0x8000000080008081, 0x8000000000008080, 0x0000000080000001, 0x8000000080008008]

/-- Every lane is combined with the parities of two columns. -/
def theta (a : Vector (BitVec 64) 25) : Vector (BitVec 64) 25 :=
  let c : Nat → BitVec 64 := fun x => laneAt a x 0 ^^^ laneAt a x 1 ^^^ laneAt a x 2 ^^^ laneAt a x 3 ^^^ laneAt a x 4
  Vector.ofFn fun i => laneAt a i.val (i.val / 5) ^^^ c (i.val + 4) ^^^ (c (i.val + 1)).rotateLeft 1

/-- The lanes are rotated and move. -/
def rhoPi (a : Vector (BitVec 64) 25) : Vector (BitVec 64) 25 :=
  Vector.ofFn fun i =>
    let x := i.val % 5
    let y := i.val / 5
    let from_ := (x + 3 * y) % 5 + 5 * x
    (a[from_]?.getD 0).rotateLeft (laneRotation.getD from_ 0)

/-- The nonlinear step of a row, and the round's constant. -/
def chiIota (rc : BitVec 64) (b : Vector (BitVec 64) 25) : Vector (BitVec 64) 25 :=
  Vector.ofFn fun i =>
    let v := laneAt b i.val (i.val / 5) ^^^ (~~~laneAt b (i.val + 1) (i.val / 5) &&& laneAt b (i.val + 2) (i.val / 5))
    if i.val = 0 then v ^^^ rc else v

/-- The permutation of 24 rounds. -/
def permute (a : Vector (BitVec 64) 25) : Vector (BitVec 64) 25 :=
  roundConstants.foldl (fun s rc => chiIota rc (rhoPi (theta s))) a

/-- A block of 136 bytes enters the state. -/
def absorb (a : Vector (BitVec 64) 25) (block : List Byte) : Vector (BitVec 64) 25 :=
  permute (Vector.ofFn fun i =>
    if i.val < 17 then a[i] ^^^ BitVec.ofNat 64 (leNat ((block.drop (8 * i.val)).take 8)) else a[i])

/-- The message with its padding: the bits 1111, then 1, zeros and 1. -/
def padded (m : List Byte) : List Byte :=
  let z := 135 - m.length % 136
  if z = 0 then m ++ [0x9F] else m ++ [0x1F] ++ List.replicate (z - 1) 0 ++ [0x80]

/-- Absorb `n` blocks. -/
def absorbAll (n : Nat) (a : Vector (BitVec 64) 25) (m : List Byte) : Vector (BitVec 64) 25 :=
  match n with
  | 0 => a
  | n + 1 => absorbAll n (absorb a (m.take 136)) (m.drop 136)

/-- The first 136 bytes of SHAKE256, the first in the low end. -/
@[irreducible] def shake256 (m : List Byte) : BitVec 1088 :=
  let p := padded m
  let a := absorbAll (p.length / 136) (Vector.replicate 25 0) p
  BitVec.ofNat 1088 ((List.range 17).map fun i => (a[i]?.getD 0).toNat <<< (64 * i)).sum

/-- SHAKE256 with a 32-byte result. -/
def shake32 (m : List Byte) : BitVec 256 := (shake256 m).extractLsb' 0 256

end Sys2Proof.Machine
end

