-- ==== Sys2Proof/Machine/Special.lean ====
section
/-!
DEFINITION. The special functions 1/a, 1/√a, 2^a, log2 a and tanh a (R168, R190): exact where the value is a binary fraction,
otherwise a truncated value with a sticky last bit, which rounds as the exact value does (log entry 20).
-/
namespace Sys2Proof.Machine

/-- Fractional bits of the working numbers. -/
def specialBits : Nat := 704

/-- Drop the last 32 working bits and add a sticky bit: a value that no binary fraction equals. -/
def truncated (neg : Bool) (v : Nat) (e : Int) : Num := .fin neg (2 * (v >>> 32) + 1) (e + 31)

/-- The sum of `x^(2k+1) / (2k+1)` from term `k` on, `p` being the current power of `x`, in units of `2^-bits`. -/
def atanhSum (x2 p k fuel : Nat) : Nat :=
  match fuel with
  | 0 => 0
  | fuel + 1 => p / (2 * k + 1) + atanhSum x2 ((p * x2) >>> specialBits) (k + 1) fuel

/-- The natural logarithm of `m / d`, `d ≤ m < 2d`, in units of `2^-bits`. -/
def lnFix (m d : Nat) : Nat :=
  let x := ((m - d) <<< specialBits) / (m + d)
  2 * atanhSum ((x * x) >>> specialBits) x 0 240

/-- ln 2. -/
def ln2Fix : Nat :=
  let x := (1 <<< specialBits) / 3
  2 * atanhSum ((x * x) >>> specialBits) x 0 240

/-- The sum of `y^k / k!` from term `k` on, `t` being the current term. -/
def expSum (y t k fuel : Nat) : Nat :=
  match fuel with
  | 0 => 0
  | fuel + 1 => t + expSum y (((t * y) >>> specialBits) / (k + 1)) (k + 1) fuel

/-- e to the power `y`, `0 ≤ y < 1`, in units of `2^-bits`. -/
def expFix (y : Nat) : Nat := expSum y (1 <<< specialBits) 0 160

/-- 1 ÷ a. -/
def Num.recip (a : Num) : Num × BitVec 5 := (Num.fin false 1 0).div a

/-- 1 ÷ √a. -/
def Num.rsqrt (a : Num) : Num × BitVec 5 :=
  match a with
  | .nan s => (.nan false, if s then fInvalid else 0)
  | .inf s => if s then (.nan false, fInvalid) else (.fin false 0 0, 0)
  | .fin s m e =>
    if m = 0 then (.inf s, fDivide)
    else if s then (.nan false, fInvalid)
    else
      let odd := e % 2
      let n := m <<< odd.toNat
      let x := (1 <<< 512) / n
      let r := isqrt x (Nat.log2 x / 2 + 1) 0
      (.fin false (2 * r + (if r * r * n = 1 <<< 512 then 0 else 1)) (-256 - (e - odd) / 2 - 1), 0)

/-- 2 to the power `± m · 2^e`, `m` not zero. -/
def exp2Fin (neg : Bool) (m : Nat) (e : Int) : Num :=
  if 12 < e + (Nat.log2 m : Int) then .fin false 1 (if neg then -100000 else 100000)
  else
    let q := min e 0
    let v := scaled neg m e q
    let one : Int := (1 <<< (-q).toNat : Nat)
    let n := v / one
    let f := (v % one).toNat
    if f = 0 then .fin false 1 n
    else truncated false (expFix (((f <<< specialBits) / one.toNat * ln2Fix) >>> specialBits)) (n - (specialBits : Int))

/-- 2^a. -/
def Num.exp2 (a : Num) : Num × BitVec 5 :=
  match a with
  | .nan s => (.nan false, if s then fInvalid else 0)
  | .inf s => (if s then .fin false 0 0 else .inf false, 0)
  | .fin s m e => (if m = 0 then .fin false 1 0 else exp2Fin s m e, 0)

/-- log2 a. -/
def Num.log2 (a : Num) : Num × BitVec 5 :=
  match a with
  | .nan s => (.nan false, if s then fInvalid else 0)
  | .inf s => if s then (.nan false, fInvalid) else (.inf false, 0)
  | .fin s m e =>
    if m = 0 then (.inf true, fDivide)
    else if s then (.nan false, fInvalid)
    else
      let k := Nat.log2 m
      let n := e + (k : Int)
      if m = 2 ^ k then (Num.ofInt n, 0)
      else
        let f := ((lnFix m (2 ^ k)) <<< specialBits) / ln2Fix
        let v := n * (1 <<< specialBits : Nat) + (f : Int)
        (if 0 ≤ v then truncated false v.toNat (-(specialBits : Int)) else truncated true (-v - 1).toNat (-(specialBits : Int)), 0)

/-- tanh of the positive value `m · 2^e`. -/
def tanhFin (m : Nat) (e : Int) : Num :=
  if 8 < e + (Nat.log2 m : Int) then .fin false (2 ^ 600 - 1) (-600)
  else
    let x2 := if 0 ≤ e + 1 + specialBits then m <<< (e + 1 + specialBits).toNat else 0
    let n := x2 / ln2Fix
    let t := (expFix (x2 % ln2Fix)) <<< n
    truncated false (((t - 1 <<< specialBits) <<< specialBits) / (t + 1 <<< specialBits)) (-(specialBits : Int))

/-- tanh a. -/
def Num.tanh (a : Num) : Num × BitVec 5 :=
  match a with
  | .nan s => (.nan false, if s then fInvalid else 0)
  | .inf s => (.fin s 1 0, 0)
  | .fin s m e => (if m = 0 then .fin s 0 0 else (match tanhFin m e with | .fin _ n d => .fin s n d | x => x), 0)

end Sys2Proof.Machine
end

