-- ==== Sys2Proof/Machine/Vector.lean ====
section
/-!
DEFINITION. The vector instructions of majors 0x30 to 0x33 (R150 to R175): the checks at issue, and the result that each
command writes at its completion.
-/
namespace Sys2Proof.Machine

/-! ### Element formats and lanes (R131 to R137, R150, R161, R163) -/

/-- An element format: an integer format or a floating format, with its container width. -/
inductive Elem where
  | int (sgn : Bool) (w : Nat)
  | flt (f : FloatFmt) (w : Nat)
  deriving DecidableEq, Repr

/-- The format that an element code names, with the descriptor word of MF (R81, R154). -/
def elemOf (fmt : BitVec 4) (d : BitVec 32) : Elem :=
  match fmt.toNat with
  | 1 => .int true 4
  | 2 => .int false 4
  | 3 => .int true 8
  | 4 => .int false 8
  | 5 => .int true 16
  | 6 => .int true 32
  | 8 => .flt fmtF32 32
  | 9 => .flt fmtF16 16
  | 10 => .flt fmtB16 16
  | _ => .flt (descFmt d) (descFmt d).container

/-- Container width. -/
def Elem.w (e : Elem) : Nat := match e with | .int _ w => w | .flt _ w => w
/-- Lanes of a vector (R150). -/
def Elem.lanes (e : Elem) : Nat := 1024 / e.w
/-- The instruction's format. -/
def Strand.elem (st : Strand) (o : XOp) : Elem := elemOf o.fmt (st.desc o.fd)
/-- The format a source's tag names. -/
def Strand.srcElem (st : Strand) (v : BitVec 3) : Elem := elemOf (tagClass (st.tag v)) (st.desc ((st.tag v).extractLsb' 0 3))

/-- The bits of lane `l`. -/
def lane (v : Vec) (w l : Nat) : Nat := (v.extractLsb' (w * l) w).toNat
/-- The integer that `w` bits stand for. -/
def intOf (sgn : Bool) (w code : Nat) : Int := if sgn && code.testBit (w - 1) then (code : Int) - 2 ^ w else code
/-- The low `w` bits of an integer. -/
def intCode (w : Nat) (x : Int) : Nat := (x % (2 ^ w : Nat)).toNat
/-- The exact value of lane bits. -/
def Elem.num (e : Elem) (code : Nat) : Num :=
  match e with
  | .int g w => Num.ofInt (intOf g w code)
  | .flt f _ => f.decode code

/-- A number from codes of `w` bits, the first lowest. -/
def packCodes (w : Nat) (l : List Nat) : Nat :=
  match l with
  | [] => 0
  | c :: r => c % 2 ^ w + 2 ^ w * packCodes w r
/-- A vector from lane codes. -/
def vecOf (w : Nat) (l : List Nat) : Vec := BitVec.ofNat 1024 (packCodes w l)

/-- The lane that mask bit assignment of R161 gives lane `l` of width `w`. -/
def maskBit (g : Word) (w l : Nat) : Bool := g.getLsbD (if w = 8 then l / 2 else if w = 4 then l / 4 else l)
/-- Is lane `l` active (R161)? -/
def Strand.active (st : Strand) (o : XOp) (w l : Nat) : Bool := !o.lme || maskBit (st.g o.lmr) w l

/-- The skeleton of R163: active lanes take a code and raise its flags, the others keep their bits. -/
def Strand.mapLanes (st : Strand) (o : XOp) (w : Nat) (fn : Nat → Nat × BitVec 5) : Vec × BitVec 5 :=
  let old := st.vec (low3 o.rd)
  let r := (List.range (1024 / w)).map fun l => if st.active o w l then fn l else (lane old w l, 0#5)
  (vecOf w (r.map Prod.fst), r.foldl (fun a x => a ||| x.2) 0#5)

/-- Completion with a vector result (R158): destination, tag, flags and pc. -/
def Strand.putVec (st : Strand) (o : XOp) (v : Vec × BitVec 5) : Strand :=
  { ((st.setVec (low3 o.rd) v.1 (tagOf o.fmt o.fd)).orFlags v.2).next xlen with wait := .run }
/-- Completion with a g result. -/
def Strand.putG (st : Strand) (o : XOp) (v : Word × BitVec 5) : Strand :=
  { ((st.setReg o.rd v.1).orFlags v.2).next xlen with wait := .run }

/-! ### Arithmetic of one lane (R144, R163) -/

/-- The range of an integer format. -/
def intLow (sgn : Bool) (w : Nat) : Int := if sgn then -(2 ^ (w - 1) : Nat) else 0
def intHigh (sgn : Bool) (w : Nat) : Int := if sgn then (2 ^ (w - 1) : Nat) - 1 else (2 ^ w : Nat) - 1

/-- A value held within a range; overflow when it changes. -/
def clampInt (sgn : Bool) (w : Nat) (x : Int) : Nat × BitVec 5 :=
  let y := max (intLow sgn w) (min (intHigh sgn w) x)
  (intCode w y, if y = x then 0 else fOverflow)

/-- `wrapsat` of R163. -/
def wrapsat (sgn : Bool) (w : Nat) (sat : Bool) (x : Int) : Nat × BitVec 5 :=
  if sat then clampInt sgn w x else (intCode w x, 0)

/-- `cvt` of R163 from a lane of another format (R124, R138, R144): an integer into a wider one is extended, into another one it
is held within its range. -/
def Elem.convert (src dst : Elem) (mode : BitVec 2) (code : Nat) : Nat × BitVec 5 :=
  match src, dst with
  | .int g w, .int h v => if w < v then (intCode v (intOf g w code), 0) else clampInt h v (intOf g w code)
  | .flt f _, .int h v =>
    let r := (f.decode code).toRange mode (intLow h v) (intHigh h v)
    (intCode v r.1, r.2)
  | .int g w, .flt f _ => f.round mode (Num.ofInt (intOf g w code))
  | .flt f _, .flt d _ => roundTo d mode (f.decode code, sigFlag (f.decode code))

/-- A code as an operand of minimum and maximum: container bits above it ignored, a flushed code a zero (R136, R137, R164). -/
def FloatFmt.plain (f : FloatFmt) (code : Nat) : Nat :=
  if (f.decode code).isZero then f.signed (f.decode code).neg? 0 else code % 2 ^ f.bits

/-- Minimum or maximum of two lanes (R125, R164). -/
def Elem.minMax (e : Elem) (max? : Bool) (a b : Nat) : Nat × BitVec 5 :=
  match e with
  | .int g w =>
    let x := intOf g w a
    let y := intOf g w b
    (if max? then (if x < y then b else a) else (if y < x then b else a), 0)
  | .flt f _ => Sys2Proof.Machine.minMax f max? (f.plain a) (f.plain b)

/-- A lane operation of two sources: exact in the format, rounded or wrapped (R164). -/
def Elem.arith2 (e : Elem) (mode : BitVec 2) (sat : Bool) (fl : Num → Num → Num × BitVec 5) (int : Int → Int → Int) (a b : Nat) :
    Nat × BitVec 5 :=
  match e with
  | .int g w => wrapsat g w sat (int (intOf g w a) (intOf g w b))
  | .flt f _ => roundTo f mode (fl (f.decode a) (f.decode b))

/-- The fused lane operation: a × b plus or minus c (R164). -/
def Elem.fused (e : Elem) (mode : BitVec 2) (sat minus : Bool) (a b c : Nat) : Nat × BitVec 5 :=
  match e with
  | .int g w =>
    let z := intOf g w c
    wrapsat g w sat (intOf g w a * intOf g w b + if minus then -z else z)
  | .flt f _ =>
    let z := f.decode c
    roundTo f mode ((f.decode a).fma mode (f.decode b) (if minus then z.negate else z))

/-- VABS of a lane. -/
def Elem.absLane (e : Elem) (sat : Bool) (a : Nat) : Nat × BitVec 5 :=
  match e with
  | .int g w => wrapsat g w sat (intOf g w a).natAbs
  | .flt f _ => (a % 2 ^ (f.e + f.m), 0)

/-- VNEG of a lane. -/
def Elem.negLane (e : Elem) (mode : BitVec 2) (sat : Bool) (a : Nat) : Nat × BitVec 5 :=
  match e with
  | .int g w => wrapsat g w sat (-(intOf g w a))
  | .flt f _ =>
    if f.sgn then ((a % 2 ^ f.bits) ^^^ 2 ^ (f.e + f.m), 0)
    else roundTo f mode ((f.decode a).negate, sigFlag (f.decode a))

/-- The exact value times a power of two. -/
def Num.scale (x : Num) (k : Int) : Num := match x with | .fin s m e => .fin s m (e + k) | x => x

/-! ### The checks at issue (R153, R156) -/

/-- What an entry requires of a source's tag. -/
inductive Want where
  | any
  | tag (t : BitVec 8)
  | intOfWidth (w : Nat)
  deriving DecidableEq, Repr

/-- A tag's class is an integer format of a width. -/
def isIntOfWidth (c : BitVec 4) (w : Nat) : Bool := decide (1 ≤ c.toNat ∧ c.toNat ≤ 6) && (elemOf c 0).w == w

/-- The tag check of one source (R153, step 2). -/
def State.vecSource (s : State) (r : Nat) (st : Strand) (v : BitVec 3) (want : Want) (go : State) : State :=
  let t := st.tag v
  if tagClass t = 0 then s.raise r 7#5 (v.zeroExtend 64)
  else match want with
    | .any => go
    | .tag x => if t = x then go else s.raise r 6#5 (tagMisVal v x t)
    | .intOfWidth w => if isIntOfWidth (tagClass t) w then go else s.raise r 6#5 (tagMisVal v 0 t)

/-- Steps 1 and 2 of R153. -/
def State.vecChecks (s : State) (r : Nat) (st : Strand) (fmt : BitVec 4) (fd : BitVec 3) (srcs : List (BitVec 3 × Want)) (go : State) :
    State :=
  let tags := srcs.foldr (fun x k => s.vecSource r st x.1 x.2 k) go
  s.withDesc r st fmt fd (srcs.foldr (fun x k => s.withDesc r st (tagClass (st.tag x.1)) ((st.tag x.1).extractLsb' 0 3) k) tags)

/-- The command enters the core's dispatch queue of four entries, or the instruction does not issue (R156, R158). -/
def State.enqueue (s : State) (r : Nat) (st : Strand) (i : Instr) (dest : Option Place) : State :=
  let c := s.core st.home
  if 4 ≤ c.cmdq.length then s.retry r
  else (s.setCore st.home { c with cmdq := c.cmdq ++ [r] }).setStrand r { st with wait := .command i false [] dest }

/-- A vector instruction whose sources vA, vB, vC carry the instruction's own format or another requirement. -/
def State.vector (s : State) (o : XOp) (i : Instr) (srcs : Strand → List (BitVec 3 × Want)) : Host.Outcome State Fault Refusal :=
  s.issueX o fun r st => s.vecChecks r st o.fmt o.fd (srcs st) (s.enqueue r st i none)

/-- Sources that carry tagof(f). -/
def own (o : XOp) (l : List (BitVec 4)) : List (BitVec 3 × Want) := l.map fun v => (low3 v, .tag (tagOf o.fmt o.fd))

/-! ### Arithmetic (R164) -/

/-- VADD: the result is written by VECTOR_RESULT, as for every vector command. -/
def execVadd (o : XOp) (s : State) : Host.Outcome State Fault Refusal := s.vector o (.vadd o) fun _ => own o [o.ra, o.rb]
/-- VSUB. -/
def execVsub (o : XOp) (s : State) : Host.Outcome State Fault Refusal := s.vector o (.vsub o) fun _ => own o [o.ra, o.rb]
/-- VMUL. -/
def execVmul (o : XOp) (s : State) : Host.Outcome State Fault Refusal := s.vector o (.vmul o) fun _ => own o [o.ra, o.rb]
/-- VFMA. -/
def execVfma (o : XOp) (s : State) : Host.Outcome State Fault Refusal := s.vector o (.vfma o) fun _ => own o [o.ra, o.rb, o.rc]
/-- VFMS. -/
def execVfms (o : XOp) (s : State) : Host.Outcome State Fault Refusal := s.vector o (.vfms o) fun _ => own o [o.ra, o.rb, o.rc]
/-- VMIN. -/
def execVmin (o : XOp) (s : State) : Host.Outcome State Fault Refusal := s.vector o (.vmin o) fun _ => own o [o.ra, o.rb]
/-- VMAX. -/
def execVmax (o : XOp) (s : State) : Host.Outcome State Fault Refusal := s.vector o (.vmax o) fun _ => own o [o.ra, o.rb]
/-- VABS. -/
def execVabs (o : XOp) (s : State) : Host.Outcome State Fault Refusal := s.vector o (.vabs o) fun _ => own o [o.ra]
/-- VNEG. -/
def execVneg (o : XOp) (s : State) : Host.Outcome State Fault Refusal := s.vector o (.vneg o) fun _ => own o [o.ra]

/-- The lane result of VADD to VNEG. -/
def Strand.arithLane (st : Strand) (i : Instr) (o : XOp) (l : Nat) : Nat × BitVec 5 :=
  let e := st.elem o
  let mode := st.mode o.rm
  let sat := o.mod.getLsbD 0
  let a := lane (st.vec (low3 o.ra)) e.w l
  let b := lane (st.vec (low3 o.rb)) e.w l
  let c := lane (st.vec (low3 o.rc)) e.w l
  match i with
  | .vadd _ => e.arith2 mode sat (fun x y => x.add mode y) (fun x y => x + y) a b
  | .vsub _ => e.arith2 mode sat (fun x y => x.add mode y.negate) (fun x y => x - y) a b
  | .vmul _ => e.arith2 mode sat (fun x y => x.mul y) (fun x y => x * y) a b
  | .vfma _ => e.fused mode sat false a b c
  | .vfms _ => e.fused mode sat true a b c
  | .vmin _ => e.minMax false a b
  | .vmax _ => e.minMax true a b
  | .vabs _ => e.absLane sat a
  | _ => e.negLane mode sat a

/-! ### Logic and shifts (R165) -/

/-- VAND. -/
def execVand (o : XOp) (s : State) : Host.Outcome State Fault Refusal := s.vector o (.vand o) fun _ => own o [o.ra, o.rb]
/-- VOR. -/
def execVor (o : XOp) (s : State) : Host.Outcome State Fault Refusal := s.vector o (.vor o) fun _ => own o [o.ra, o.rb]
/-- VXOR. -/
def execVxor (o : XOp) (s : State) : Host.Outcome State Fault Refusal := s.vector o (.vxor o) fun _ => own o [o.ra, o.rb]
/-- VSHL. -/
def execVshl (o : XOp) (s : State) : Host.Outcome State Fault Refusal := s.vector o (.vshl o) fun _ => own o [o.ra, o.rb]
/-- VSHR. -/
def execVshr (o : XOp) (s : State) : Host.Outcome State Fault Refusal := s.vector o (.vshr o) fun _ => own o [o.ra, o.rb]
/-- VSRA. -/
def execVsra (o : XOp) (s : State) : Host.Outcome State Fault Refusal := s.vector o (.vsra o) fun _ => own o [o.ra, o.rb]

/-- A lane as an instruction writes it: of MF the code alone, the bits of the container above it zero (R136). -/
def Elem.clean (e : Elem) (c : Nat) : Nat :=
  match e with
  | .int _ _ => c
  | .flt f _ => c % 2 ^ f.bits

/-- The lane result of VAND to VSRA. -/
def Strand.logicLane (st : Strand) (i : Instr) (o : XOp) (l : Nat) : Nat × BitVec 5 :=
  let w := (st.elem o).w
  let a := lane (st.vec (low3 o.ra)) w l
  let n := lane (st.vec (low3 o.rb)) w l
  match i with
  | .vand _ => ((st.elem o).clean (a &&& n), 0)
  | .vor _ => ((st.elem o).clean (a ||| n), 0)
  | .vxor _ => ((st.elem o).clean (a ^^^ n), 0)
  | .vshl _ => (if w ≤ n then 0 else (a <<< n) % 2 ^ w, 0)
  | .vshr _ => (if w ≤ n then 0 else a >>> n, 0)
  | _ => (intCode w (intOf true w a / (2 ^ min n w : Nat)), 0)

/-! ### Conversion, scaling, special functions (R166 to R168) -/

/-- VCVT. -/
def execVcvt (o : XOp) (s : State) : Host.Outcome State Fault Refusal := s.vector o (.vcvt o) fun _ => [(low3 o.ra, .any)]
/-- VSCL. -/
def execVscl (o : XOp) (s : State) : Host.Outcome State Fault Refusal :=
  s.vector o (.vscl o) fun _ => own o [o.ra] ++ [(low3 o.rb, .tag 0x40#8)]
/-- VRCP. -/
def execVrcp (o : XOp) (s : State) : Host.Outcome State Fault Refusal := s.vector o (.vrcp o) fun _ => own o [o.ra]
/-- VRSQ. -/
def execVrsq (o : XOp) (s : State) : Host.Outcome State Fault Refusal := s.vector o (.vrsq o) fun _ => own o [o.ra]
/-- VEXP2. -/
def execVexp2 (o : XOp) (s : State) : Host.Outcome State Fault Refusal := s.vector o (.vexp2 o) fun _ => own o [o.ra]
/-- VLOG2. -/
def execVlog2 (o : XOp) (s : State) : Host.Outcome State Fault Refusal := s.vector o (.vlog2 o) fun _ => own o [o.ra]
/-- VTANH. -/
def execVtanh (o : XOp) (s : State) : Host.Outcome State Fault Refusal := s.vector o (.vtanh o) fun _ => own o [o.ra]

/-- The result of VCVT (R166): `n` lanes from source lane `s0` to destination lane `d0`. Equal formats copy the lane; of MF that is its code,
and the bits above are written zero (R136; log entry 69). -/
def Strand.vcvtResult (st : Strand) (o : XOp) : Vec × BitVec 5 :=
  let v := low3 o.ra
  let d := st.elem o
  let e := st.srcElem v
  let p := (o.imm6.extractLsb' 0 3).toNat
  let ld := d.lanes
  let ls := e.lanes
  let n := min ld ls
  let s0 := if ld ≤ ls then (p % (ls / ld)) * ld else 0
  let d0 := if ld ≤ ls then 0 else (p % (ld / ls)) * ls
  let same := st.tag v == tagOf o.fmt o.fd
  st.mapLanes o d.w fun l =>
    if d0 ≤ l ∧ l < d0 + n then
      let c := lane (st.vec v) e.w (s0 + (l - d0))
      if same then (d.clean c, 0) else e.convert d (st.mode o.rm) c
    else (lane (st.vec (low3 o.rd)) d.w l, 0)

/-- The lane result of VSCL (R167). -/
def Strand.vsclLane (st : Strand) (o : XOp) (l : Nat) : Nat × BitVec 5 :=
  match st.elem o with
  | .int _ _ => (0, 0)
  | .flt f w =>
    let g := match (o.imm6.extractLsb' 0 2).toNat with | 0 => 32 | 1 => 16 | _ => 1
    let c := lane (st.vec (low3 o.rb)) 8 ((l / g) % 128)
    let k : Int := if o.imm6.getLsbD 5 then 127 - (c : Int) else (c : Int) - 127
    if c = 0xFF then roundTo f (st.mode o.rm) (.nan false, fInvalid)
    else
      let x := f.decode (lane (st.vec (low3 o.ra)) w l)
      roundTo f (st.mode o.rm) (x.scale k, sigFlag x)

/-- The lane result of a special function (R168). -/
def Strand.specialLane (st : Strand) (i : Instr) (o : XOp) (l : Nat) : Nat × BitVec 5 :=
  match st.elem o with
  | .int _ _ => (0, 0)
  | .flt f w =>
    let x := f.decode (lane (st.vec (low3 o.ra)) w l)
    roundTo f (st.mode o.rm) (match i with
      | .vrcp _ => x.recip
      | .vrsq _ => x.rsqrt
      | .vexp2 _ => x.exp2
      | .vlog2 _ => x.log2
      | _ => x.tanh)

/-! ### Reduction, compare and select (R169 to R171) -/

/-- VRED. -/
def execVred (o : XOp) (s : State) : Host.Outcome State Fault Refusal := s.vector o (.vred o) fun _ => own o [o.ra]
/-- VCMP. -/
def execVcmp (o : XOp) (s : State) : Host.Outcome State Fault Refusal := s.vector o (.vcmp o) fun _ => own o [o.ra, o.rb]
/-- VSEL. -/
def execVsel (o : XOp) (s : State) : Host.Outcome State Fault Refusal := s.vector o (.vsel o) fun _ => own o [o.ra, o.rb]

/-- The exact sum of values (R169): the flags of its steps. -/
def sumNums (mode : BitVec 2) (l : List Num) : Num × BitVec 5 :=
  match l with
  | [] => (.fin false 0 0, 0)
  | x :: r => r.foldl (fun a y => let z := a.1.add mode y; (z.1, a.2 ||| z.2)) (x, sigFlag x)

/-- The result of VRED in lane 0 (R169). With no active lane the sum is `cvt` of +0: a format with no zero takes code 0 and raises
invalid, as R138 does for any zero (DESIGN CHOICE, log entry 77). -/
def Strand.vredLane (st : Strand) (o : XOp) : Nat × BitVec 5 :=
  let e := st.elem o
  let v := st.vec (low3 o.ra)
  let xs := ((List.range e.lanes).filter (st.active o e.w)).map (lane v e.w)
  let fold : Bool → Nat → Nat × BitVec 5 := fun b d =>
    match xs with
    | [] => (d, 0)
    | x :: _ => xs.foldl (fun a y => let z := e.minMax b a.1 y; (z.1, a.2 ||| z.2)) (x, 0#5)
  match e, o.imm6.toNat with
  | .int g w, 0 => wrapsat g w (o.mod.getLsbD 0) (xs.map (intOf g w)).sum
  | .int g w, 1 => fold true (intCode w (intLow g w))
  | .int g w, 2 => fold false (intCode w (intHigh g w))
  | .int _ _, _ => (xs.foldl (fun a x => a ||| x) 0, 0)
  | .flt f _, 0 =>
    let r := sumNums (st.mode o.rm) (xs.map f.decode)
    roundTo f (st.mode o.rm) (r.1, r.2 ||| if r.1.isNan then fInvalid else 0)
  | .flt f _, 1 => fold true (f.round rne (.inf true)).1
  | .flt f _, _ => fold false (f.round rne (.inf false)).1

/-- A condition of VCMP on floats (R170). -/
def cmpFlt (cond : Nat) (a b : Num) : Bool × BitVec 5 :=
  let un := a.isNan || b.isNan
  let fl : BitVec 5 := if (un && decide (2 ≤ cond ∧ cond ≤ 5)) || a.isSig || b.isSig then fInvalid else 0
  (match cond with
   | 0 => a.eq b
   | 1 => !a.eq b
   | 2 => !un && a.lt b
   | 3 => !un && !b.lt a
   | 4 => !un && b.lt a
   | 5 => !un && !a.lt b
   | _ => un, fl)

/-- A condition of VCMP on integers. -/
def cmpInt (cond : Nat) (a b : Int) : Bool :=
  match cond with
  | 0 => a == b
  | 1 => a != b
  | 2 => decide (a < b)
  | 3 => decide (a ≤ b)
  | 4 => decide (b < a)
  | _ => decide (b ≤ a)

/-- The 64 bits of VCMP (R170). -/
def Strand.vcmpBits (st : Strand) (o : XOp) : Word × BitVec 5 :=
  let e := st.elem o
  let bit : Nat → Bool × BitVec 5 := fun l =>
    if st.active o e.w l then
      let a := lane (st.vec (low3 o.ra)) e.w l
      let b := lane (st.vec (low3 o.rb)) e.w l
      match e with
      | .int g w => (cmpInt o.imm6.toNat (intOf g w a) (intOf g w b), 0)
      | .flt f _ => cmpFlt o.imm6.toNat (f.decode a) (f.decode b)
    else (false, 0)
  let r := (List.range e.lanes).map bit
  (BitVec.ofNat 64 (packCodes 1 (r.map fun x => x.1.toNat)), r.foldl (fun a x => a ||| x.2) 0)

/-! ### Moves and permutes (R172, R173) -/

/-- VPERM. -/
def execVperm (o : XOp) (s : State) : Host.Outcome State Fault Refusal :=
  s.vector o (.vperm o) fun _ => own o [o.ra] ++ [(low3 o.rb, .tag 0x40#8)]
/-- VBCAST from a g register. -/
def execVbcast (o : XOp) (s : State) : Host.Outcome State Fault Refusal := s.vector o (.vbcast o) fun _ => []
/-- VBCAST of a literal. -/
def execVbcastLiteral (o : XOp) (lit : Word) (s : State) : Host.Outcome State Fault Refusal :=
  s.issue o.gd 20 fun r st => s.vecChecks r st o.fmt o.fd [] (s.enqueue r st (.vbcastLiteral o lit) none)
/-- VINS: vD is read. -/
def execVins (o : XOp) (s : State) : Host.Outcome State Fault Refusal := s.vector o (.vins o) fun _ => own o [o.rd]
/-- VEXT. -/
def execVext (o : XOp) (s : State) : Host.Outcome State Fault Refusal := s.vector o (.vext o) fun _ => own o [o.ra]
/-- VIOTA. -/
def execViota (o : XOp) (s : State) : Host.Outcome State Fault Refusal := s.vector o (.viota o) fun _ => []
/-- VZERO. -/
def execVzero (o : XOp) (s : State) : Host.Outcome State Fault Refusal := s.vector o (.vzero o) fun _ => []
/-- VTAG. -/
def execVtag (o : XOp) (s : State) : Host.Outcome State Fault Refusal := s.vector o (.vtag o) fun _ => [(low3 o.ra, .any)]

/-- The code that VBCAST and VINS store and VEXT reads: of MF, the code bits alone (R136). -/
def Elem.code (e : Elem) (x : Word) : Nat :=
  match e with
  | .int _ w => x.toNat % 2 ^ w
  | .flt f _ => x.toNat % 2 ^ f.bits

/-- The result of VPERM (R172): units of at least 8 bits, each lane of a moved unit written as R136 says. -/
def Strand.vpermResult (st : Strand) (o : XOp) : Vec :=
  let e := st.elem o
  let u := max e.w 8
  let n := 1024 / u
  vecOf u ((List.range n).map fun l =>
    if st.active o e.w (if e.w = 4 then 2 * l else l) then
      let k := lane (st.vec (low3 o.rb)) 8 l % n * (u / e.w)
      packCodes e.w ((List.range (u / e.w)).map fun j => e.clean (lane (st.vec (low3 o.ra)) e.w (k + j)))
    else lane (st.vec (low3 o.rd)) u l)

/-- The result of VEXT. -/
def Strand.vextResult (st : Strand) (o : XOp) : Word :=
  let e := st.elem o
  let c := lane (st.vec (low3 o.ra)) e.w ((st.reg o.rb).toNat % e.lanes)
  match e with
  | .int g w => BitVec.ofInt 64 (intOf g w c)
  | .flt f _ => BitVec.ofNat 64 (c % 2 ^ f.bits)

/-! ### Changing width, descriptors (R174, R175) -/

/-- VPACK: vA names integers of twice the width, vB carries vA's tag. -/
def execVpack (o : XOp) (s : State) : Host.Outcome State Fault Refusal :=
  s.vector o (.vpack o) fun st => [(low3 o.ra, .intOfWidth (2 * (st.elem o).w)), (low3 o.rb, .tag (st.tag (low3 o.ra)))]
/-- VUNPK: vA names integers of half the width. -/
def execVunpk (o : XOp) (s : State) : Host.Outcome State Fault Refusal :=
  s.vector o (.vunpk o) fun st => [(low3 o.ra, .intOfWidth ((st.elem o).w / 2))]

/-- The lane result of VPACK. -/
def Strand.vpackLane (st : Strand) (o : XOp) (l : Nat) : Nat × BitVec 5 :=
  let w := (st.elem o).w
  let n := 1024 / (2 * w)
  ((if l < n then lane (st.vec (low3 o.ra)) (2 * w) l else lane (st.vec (low3 o.rb)) (2 * w) (l - n)) % 2 ^ w, 0)

/-- The lane result of VUNPK. -/
def Strand.vunpkLane (st : Strand) (o : XOp) (l : Nat) : Nat × BitVec 5 :=
  let e := st.elem o
  match st.srcElem (low3 o.ra) with
  | .int g w => (intCode e.w (intOf g w (lane (st.vec (low3 o.ra)) w (e.lanes * (o.imm6.extractLsb' 0 1).toNat + l))), 0)
  | .flt _ _ => (0, 0)

/-- VSETT to a descriptor: in the core, without the queue. -/
def execVsettToDescriptor (o : XOp) (s : State) : Host.Outcome State Fault Refusal :=
  s.issueOwn o.gd xlen fun st => st.setDesc (low3 o.rd) ((st.reg o.ra).extractLsb' 0 32)
/-- VSETT from a descriptor. -/
def execVsettFromDescriptor (o : XOp) (s : State) : Host.Outcome State Fault Refusal :=
  s.issueOwn o.gd xlen fun st => st.setReg o.rd ((st.desc (low3 o.ra)).zeroExtend 64)

/-! ### Results (R158) -/

/-- Does a command compute lane by lane into vD? Its lane function. -/
def Strand.laneFn (st : Strand) (i : Instr) : Option (XOp × (Nat → Nat × BitVec 5)) :=
  match i with
  | .vadd o => some (o, st.arithLane i o)
  | .vsub o => some (o, st.arithLane i o)
  | .vmul o => some (o, st.arithLane i o)
  | .vfma o => some (o, st.arithLane i o)
  | .vfms o => some (o, st.arithLane i o)
  | .vmin o => some (o, st.arithLane i o)
  | .vmax o => some (o, st.arithLane i o)
  | .vabs o => some (o, st.arithLane i o)
  | .vneg o => some (o, st.arithLane i o)
  | .vand o => some (o, st.logicLane i o)
  | .vor o => some (o, st.logicLane i o)
  | .vxor o => some (o, st.logicLane i o)
  | .vshl o => some (o, st.logicLane i o)
  | .vshr o => some (o, st.logicLane i o)
  | .vsra o => some (o, st.logicLane i o)
  | .vscl o => some (o, st.vsclLane o)
  | .vrcp o => some (o, st.specialLane i o)
  | .vrsq o => some (o, st.specialLane i o)
  | .vexp2 o => some (o, st.specialLane i o)
  | .vlog2 o => some (o, st.specialLane i o)
  | .vtanh o => some (o, st.specialLane i o)
  | .vsel o => some (o, fun l =>
      let w := (st.elem o).w
      ((st.elem o).clean (lane (st.vec (if maskBit (st.reg o.re) w l then low3 o.ra else low3 o.rb)) w l), 0))
  | .vbcast o => some (o, fun _ => ((st.elem o).code (st.reg o.ra), 0))
  | .vins o => some (o, fun l =>
      let e := st.elem o
      (if l = (st.reg o.rb).toNat % e.lanes then e.code (st.reg o.ra) else lane (st.vec (low3 o.rd)) e.w l, 0))
  | .viota o => some (o, fun l => (((st.reg o.ra).toNat + l) % 2 ^ (st.elem o).w, 0))
  | .vpack o => some (o, st.vpackLane o)
  | .vunpk o => some (o, st.vunpkLane o)
  | _ => none

/-- The strand with the result of a vector command of majors 0x30 to 0x33. -/
def Strand.vectorDone (st : Strand) (i : Instr) : Option Strand :=
  match st.laneFn i with
  | some (o, fn) => some (st.putVec o (st.mapLanes o (st.elem o).w fn))
  | none =>
    match i with
    | .vcvt o => some (st.putVec o (st.vcvtResult o))
    | .vred o =>
      let r := st.vredLane o
      some (st.putVec o (vecOf (st.elem o).w [r.1], r.2))
    | .vcmp o => some (st.putG o (st.vcmpBits o))
    | .vperm o => some (st.putVec o (st.vpermResult o, 0))
    | .vbcastLiteral o lit =>
      let st1 := st.putVec o (st.mapLanes o (st.elem o).w fun _ => ((st.elem o).code lit, 0))
      some { st1 with pc := st.pc + 20#32 }
    | .vext o => some (st.putG o (st.vextResult o, 0))
    | .vzero o =>
      if o.fmt = 0#4 then some { (st.setVec (low3 o.rd) 0 0).next xlen with wait := .run }
      else some (st.putVec o (st.mapLanes o (st.elem o).w fun _ => (0, 0)))
    | .vtag o => some (st.putVec o (st.vec (low3 o.ra), 0))
    | _ => none

end Sys2Proof.Machine
end

