-- ==== Sys2Proof/Machine/Tile.lean ====
section
/-!
DEFINITION. Tiles and the arithmetic of the Anvil: tile instructions, matrix products and top-k (R145 to R147, R177, R178,
R183 to R185, R188 to R193, R259): the checks at issue, and the results.
-/
namespace Sys2Proof.Machine

/-! ### Checks (R178) -/

/-- tval of TILE. -/
def tileVal (a : BitVec 3) (reason : BitVec 4) : Word := 0#52 ++ reason ++ 0#5 ++ a

/-- A tile must be held. -/
def State.withTile (s : State) (r : Nat) (st : Strand) (a : BitVec 3) (go : Tile → State) : State :=
  match st.tile a with
  | none => s.raise r 11#5 (tileVal a 1)
  | some t => go t

/-- A tile must be held and of a type. -/
def State.withTyped (s : State) (r : Nat) (st : Strand) (a : BitVec 3) (isInt : Bool) (go : State) : State :=
  s.withTile r st a fun t => if t.isInt == isInt then go else s.raise r 11#5 (tileVal a 5)

/-- Is FMT the integer tile format? -/
def fmtInt (o : XOp) : Bool := o.fmt == 6#4
/-- The tag that a tile format names (R190, R191). -/
def tileTag (o : XOp) : BitVec 8 := o.fmt ++ 0#4
/-- The tag of a vector that goes with a tile: 0x80 for F32, 0x60 for INT32 (R190). -/
def tileTypeTag (t : Tile) : BitVec 8 := if t.isInt then 0x60#8 else 0x80#8

/-! ### Words of a tile (R177) -/

/-- Word `k` of a tile, element (k div 32, k mod 32). -/
def tileWord (d : Payload) (k : Nat) : BitVec 32 := d.extractLsb' (32 * k) 32
/-- A tile from its words. -/
def tileFrom (l : List Nat) : Payload := BitVec.ofNat 32768 (packCodes 32 l)
/-- A tile from a function of row and column, with the flags of all its elements. -/
def tileBuild (fn : Nat → Nat → BitVec 32 × BitVec 5) : Payload × BitVec 5 :=
  let r := (List.range 1024).map fun k => fn (k / 32) (k % 32)
  (tileFrom (r.map fun x => x.1.toNat), r.foldl (fun a x => a ||| x.2) 0)
/-- A vector lane of 32 bits. -/
def wordLane (v : Vec) (l : Nat) : BitVec 32 := v.extractLsb' (32 * l) 32
/-- A held tile's contents, zero where none is held. -/
def Strand.tileData (st : Strand) (a : BitVec 3) : Payload := match st.tile a with | some t => t.data | none => 0
/-- Is a held tile an integer tile? -/
def Strand.tileIsInt (st : Strand) (a : BitVec 3) : Bool := match st.tile a with | some t => t.isInt | none => false
/-- Write a held tile's contents. -/
def Strand.putTile (st : Strand) (a : BitVec 3) (d : Payload × BitVec 5) : Strand :=
  match st.tile a with
  | none => st
  | some t => (st.setTile a (some { t with data := d.1 })).orFlags d.2
/-- Completion: the pc moves on and the strand returns to rotation. -/
def Strand.completed (st : Strand) : Strand := { st.next xlen with wait := .run }

/-! ### Issue -/

/-- TACQ: its checks are made at dispatch. -/
def execTacq (o : XOp) (s : State) : Host.Outcome State Fault Refusal := s.issueX o fun r st => s.enqueue r st (.tacq o) none
/-- TREL: its checks are made at dispatch. -/
def execTrel (o : XOp) (s : State) : Host.Outcome State Fault Refusal := s.issueX o fun r st => s.enqueue r st (.trel o) none
/-- TZERO: its checks are made at dispatch. -/
def execTzero (o : XOp) (s : State) : Host.Outcome State Fault Refusal := s.issueX o fun r st => s.enqueue r st (.tzero o) none

/-- A tile instruction on aD and a vector source (R190): the tile is held, the tag names its type, and its type matches FMT. -/
def State.tileVector (s : State) (o : XOp) (i : Instr) : Host.Outcome State Fault Refusal :=
  s.issueX o fun r st => s.withTile r st (low3 o.rd) fun t =>
    s.vecChecks r st 0 0 [(low3 o.ra, .tag (tileTypeTag t))]
      (s.withTyped r st (low3 o.rd) (fmtInt o) (s.enqueue r st i none))
/-- A tile instruction that reads aS into a vector (R190, R191). -/
def State.tileRead (s : State) (o : XOp) (i : Instr) : Host.Outcome State Fault Refusal :=
  s.issueX o fun r st => s.withTyped r st (low3 o.ra) (fmtInt o) (s.enqueue r st i none)

/-- TADDR. -/
def execTaddr (o : XOp) (s : State) : Host.Outcome State Fault Refusal := s.tileVector o (.taddr o)
/-- TADDC. -/
def execTaddc (o : XOp) (s : State) : Host.Outcome State Fault Refusal := s.tileVector o (.taddc o)
/-- TSCL. -/
def execTscl (o : XOp) (s : State) : Host.Outcome State Fault Refusal := s.tileVector o (.tscl o)
/-- TEXPR. -/
def execTexpr (o : XOp) (s : State) : Host.Outcome State Fault Refusal := s.tileVector o (.texpr o)
/-- TWRV: the tile is checked before the vector's tag. -/
def execTwrv (o : XOp) (s : State) : Host.Outcome State Fault Refusal :=
  s.issueX o fun r st => s.withTyped r st (low3 o.rd) (fmtInt o)
    (s.vecChecks r st 0 0 [(low3 o.ra, .tag (tileTag o))] (s.enqueue r st (.twrv o) none))
/-- TMAXR. -/
def execTmaxr (o : XOp) (s : State) : Host.Outcome State Fault Refusal := s.tileRead o (.tmaxr o)
/-- TSUMR. -/
def execTsumr (o : XOp) (s : State) : Host.Outcome State Fault Refusal := s.tileRead o (.tsumr o)
/-- TRDV. -/
def execTrdv (o : XOp) (s : State) : Host.Outcome State Fault Refusal := s.tileRead o (.trdv o)

/-- TST (R189): the segments are posted by VECTOR_RESULT. -/
def execTst (o : XOp) (s : State) : Host.Outcome State Fault Refusal :=
  s.issueX o fun r st =>
    s.withDesc r st o.fmt o.fd (s.withTile r st (low3 o.rd) fun _ =>
      let h := st.reg o.ra
      let c := (Handle.off h).toNat
      if 128 ≤ c ∨ c % (4 * (st.elem o).w) ≠ 0 then s.raise r 3#5 h
      else s.access r st h permW fun p => s.enqueue r st (.tst o) (some p))

/-- ACCT (R259): the accumulation is posted by ACCT_POST. -/
def execAcct (o : XOp) (s : State) : Host.Outcome State Fault Refusal :=
  s.issueX o fun r st => s.withTyped r st (low3 o.rd) (fmtInt o)
    (s.withEa r st o 4096 fun e => s.access r st e.h permA fun p => s.enqueue r st (.acct o) (some p))

/-! ### Tile operations (R190, R191) -/

/-- `add` of R190. -/
def tileAdd (isInt : Bool) (mode : BitVec 2) (x y : BitVec 32) : BitVec 32 × BitVec 5 :=
  if isInt then (x + y, 0) else
    let r := roundTo fmtF32 mode ((f32 x).add mode (f32 y))
    (BitVec.ofNat 32 r.1, r.2)

/-- The same, held within the range of I32 (R190, `.s`). -/
def tileAddSat (isInt : Bool) (mode : BitVec 2) (x y : BitVec 32) : BitVec 32 × BitVec 5 :=
  if isInt then
    let r := clampInt true 32 (x.toInt + y.toInt)
    (BitVec.ofNat 32 r.1, r.2)
  else tileAdd isInt mode x y

/-- The greater of two elements (R125, R190). -/
def tileMax (isInt : Bool) (x y : BitVec 32) : BitVec 32 × BitVec 5 :=
  if isInt then (if x.slt y then y else x, 0) else
    let r := minMax fmtF32 true x.toNat y.toNat
    (BitVec.ofNat 32 r.1, r.2)

/-- Fold a list of elements with an operation that raises flags. -/
def foldFlags (op : BitVec 32 → BitVec 32 → BitVec 32 × BitVec 5) (x : BitVec 32 × BitVec 5) (l : List (BitVec 32)) :
    BitVec 32 × BitVec 5 :=
  match l with
  | [] => x
  | y :: r =>
    let z := op x.1 y
    foldFlags op (z.1, x.2 ||| z.2) r

/-- Row `i` of a tile. -/
def tileRow (d : Payload) (i : Nat) : List (BitVec 32) := (List.range 32).map fun j => tileWord d (32 * i + j)

/-- The row sum of TSUMR: even and odd elements by `op`, then their sum by `last` (R190: `.s` clamps that sum). -/
def rowSum (op last : BitVec 32 → BitVec 32 → BitVec 32 × BitVec 5) (d : Payload) (i : Nat) : BitVec 32 × BitVec 5 :=
  let half : Nat → List (BitVec 32) := fun p => (List.range 15).map fun k => tileWord d (32 * i + 2 * (k + 1) + p)
  let ev := foldFlags op (tileWord d (32 * i), 0) (half 0)
  let od := foldFlags op (tileWord d (32 * i + 1), 0) (half 1)
  let z := last ev.1 od.1
  (z.1, ev.2 ||| od.2 ||| z.2)

/-- A vector of 32-bit lanes with the flags of all. -/
def vecBuild (fn : Nat → BitVec 32 × BitVec 5) : Vec × BitVec 5 :=
  let r := (List.range 32).map fn
  (vecOf 32 (r.map fun x => x.1.toNat), r.foldl (fun a x => a ||| x.2) 0)

/-- 2 to the power a − v (R190). -/
def texprElem (mode : BitVec 2) (a v : BitVec 32) : BitVec 32 × BitVec 5 :=
  let d := (f32 a).add mode (f32 v).negate
  let e := d.1.exp2
  let r := roundTo fmtF32 mode (e.1, d.2 ||| e.2)
  (BitVec.ofNat 32 r.1, r.2)

/-- The elements that TADDR, TADDC, TSCL, TEXPR and TWRV leave in aD. -/
def Strand.tileElems (st : Strand) (i : Instr) (o : XOp) : Payload × BitVec 5 :=
  let d := st.tileData (low3 o.rd)
  let v := wordLane (st.vec (low3 o.ra))
  let mode := st.mode o.rm
  let n := (st.reg o.rb).toNat % 32
  let col := o.imm6.getLsbD 0
  tileBuild fun a b =>
    let x := tileWord d (32 * a + b)
    match i with
    | .taddr _ => tileAdd (fmtInt o) mode x (v b)
    | .taddc _ => tileAdd (fmtInt o) mode x (v a)
    | .tscl _ =>
      let r := roundTo fmtF32 mode ((f32 x).mul (f32 (v (if col then b else a))))
      (BitVec.ofNat 32 r.1, r.2)
    | .texpr _ => texprElem mode x (v a)
    | _ => (if col then (if b = n then v a else x) else (if a = n then v b else x), 0)

/-- The lanes that TMAXR, TSUMR and TRDV write to vD. -/
def Strand.tileLanes (st : Strand) (i : Instr) (o : XOp) : Vec × BitVec 5 :=
  let d := st.tileData (low3 o.ra)
  let mode := st.mode o.rm
  let n := (st.reg o.rb).toNat % 32
  vecBuild fun l =>
    match i with
    | .tmaxr _ => foldFlags (tileMax (fmtInt o)) (tileWord d (32 * l), 0) (tileRow d l).tail
    | .tsumr _ =>
      rowSum (tileAdd (fmtInt o) mode) (if o.mod.getLsbD 0 then tileAddSat (fmtInt o) mode else tileAdd (fmtInt o) mode) d l
    | _ => (tileWord d (if o.imm6.getLsbD 0 then 32 * l + n else 32 * n + l), 0)

/-! ### Matrix products (R145 to R147, R185) -/

/-- The B descriptor of an MF product. -/
def descB (o : XOp) : BitVec 3 := o.imm6.extractLsb' 0 3
/-- Bytes of a scale run (R141). -/
def scaleRun (w : Nat) (d : BitVec 32) : Nat := 32 * ((1024 / w) / (if descScale d = 2#2 then 16 else 32))

/-- Steps 1 to 4 of R185: the tile, the descriptors with their added conditions, the alignment of the pointers, the queue. -/
def State.product (s : State) (o : XOp) (i : Instr) (isInt scaled : Bool) : Host.Outcome State Fault Refusal :=
  s.issueX o fun r st =>
    let da := st.desc o.fd
    let db := st.desc (descB o)
    let wa := (descFmt da).container
    let mf := o.fmt == 0xB#4
    let bad := mf && (wa != (descFmt db).container || (scaled && (descScale da == 0#2 || descScale da != descScale db)))
    let run := scaleRun wa da
    let go : State :=
      if bad then s.raise r 6#5 (0x4000000000000000#64 ||| (0#58 ++ (descB o) ++ o.fd))
      else if Handle.off (st.reg o.ra) ≠ 0 then s.raise r 3#5 (st.reg o.ra)
      else if Handle.off (st.reg o.rb) ≠ 0 then s.raise r 3#5 (st.reg o.rb)
      else if scaled && (Handle.off (st.reg o.rc)).toNat % run != 0 then s.raise r 3#5 (st.reg o.rc)
      else if scaled && (Handle.off (st.reg o.re)).toNat % run != 0 then s.raise r 3#5 (st.reg o.re)
      else s.enqueue r st i none
    s.withTyped r st (low3 o.rd) isInt
      (if mf then s.withDesc r st 0xB#4 o.fd (s.withDesc r st 0xB#4 (descB o) go) else go)

/-- MMA. -/
def execMma (o : XOp) (s : State) : Host.Outcome State Fault Refusal := s.product o (.mma o) false false
/-- MMAS. -/
def execMmas (o : XOp) (s : State) : Host.Outcome State Fault Refusal := s.product o (.mmas o) false true
/-- MMAI. -/
def execMmai (o : XOp) (s : State) : Host.Outcome State Fault Refusal := s.product o (.mmai o) true false

/-- TLD (R188): OFF is checked before the tile. -/
def execTld (o : XOp) (s : State) : Host.Outcome State Fault Refusal :=
  s.issueX o fun r st =>
    if Handle.off (st.reg o.ra) ≠ 0 then s.raise r 3#5 (st.reg o.ra)
    else s.withTile r st (low3 o.rd) fun _ => s.enqueue r st (.tld o) none

/-- Invalid for a NaN that a step of the array produces (R145). -/
def nanFlag (x : Num) : BitVec 5 := if x.isNan then fInvalid else 0

/-- Round a value of the array, with the flags so far. -/
def arrayRound (x : Num) (fl : BitVec 5) : Num × BitVec 5 :=
  let c := roundF32 rne x
  (f32 c.1, fl ||| c.2 ||| nanFlag x)

/-- One addition of a chain (R145). -/
def arrayAdd (a : Num × BitVec 5) (x : Num) : Num × BitVec 5 :=
  let r := a.1.add rne x
  arrayRound r.1 (a.2 ||| r.2)

/-- The two chains over the rest of the values, `ev` taking the next one. -/
def chains (ev od : Num × BitVec 5) (l : List Num) : (Num × BitVec 5) × (Num × BitVec 5) :=
  match l with
  | [] => (ev, od)
  | [x] => (arrayAdd ev x, od)
  | x :: y :: r => chains (arrayAdd ev x) (arrayAdd od y) r

/-- Even and odd chain, their sum, then the accumulator (R145, R146). -/
def chainSum (l : List Num) (acc : BitVec 32) : BitVec 32 × BitVec 5 :=
  match l with
  | x :: y :: r =>
    let c := chains (arrayRound x 0) (arrayRound y 0) r
    let t := arrayAdd (c.1.1, c.1.2 ||| c.2.2) c.2.1
    let z := arrayAdd (f32 acc, t.2) t.1
    ((roundF32 rne z.1).1, z.2)
  | _ => (acc, 0)

/-- The sum of two finite values with a sum of zero as +0. -/
def sumStep (a x : Num) : Num × BitVec 5 :=
  match a, x with
  | .nan _, _ => (.nan false, 0)
  | _, .nan _ => (.nan false, 0)
  | .fin s m e, .fin t n d =>
    let q := min e d
    let v := scaled s m e q + scaled t n d q
    (.fin (decide (v < 0)) v.natAbs q, 0)
  | a, x => a.add rne x

/-- The exact sum of a group's products (R146). -/
def groupSum (l : List (Num × Num)) : Num := l.foldl (fun a p => (sumStep a (p.1.mul p.2).1).1) (.fin false 0 0)

/-- A group's result, times its scales (R146): flags included. -/
def groupResult (x : Num) (scale : Option Int) : Num × BitVec 5 :=
  match scale with
  | none => arrayRound (.nan false) 0
  | some k => arrayRound (x.scale k) 0

/-- Cut a list into groups of `n`. -/
def groupsOf {α : Type} (n fuel : Nat) (l : List α) : List (List α) :=
  match fuel with
  | 0 => []
  | fuel + 1 => if l.isEmpty then [] else l.take n :: groupsOf n fuel (l.drop n)

/-- The codes of row `i` of an operand block (R18, R185). -/
def rowCodes (p : Payload) (w i : Nat) : List Nat := (List.range (1024 / w)).map (lane (p.extractLsb' (1024 * i) 1024) w)

/-- A scale exponent from its E8M0 code (R141). -/
def scaleExp (c : Nat) : Option Int := if c = 0xFF then none else some ((c : Int) - 127)
/-- Byte `k` of a payload. -/
def payloadByte (p : Payload) (k : Nat) : Nat := (p.extractLsb' (8 * k) 8).toNat

/-- One output of a product of 16-bit operands (R145). -/
def product16 (a b : List Num) (acc : BitVec 32) : BitVec 32 × BitVec 5 :=
  chainSum ((a.zip b).map fun p => (p.1.mul p.2).1) acc

/-- One output of a product in groups (R146); `scale q` is the exponent of group `q`. -/
def productGroups (g : Nat) (scale : Nat → Option Int) (a b : List Num) (acc : BitVec 32) : BitVec 32 × BitVec 5 :=
  let gs := (groupsOf g 16 (a.zip b)).zipIdx.map fun q => groupResult (groupSum q.1) (scale q.2)
  let r := chainSum (gs.map Prod.fst) acc
  (r.1, gs.foldl (fun f x => f ||| x.2) r.2)

/-- Registers that a post-increment names, each advanced once (R185), by the first amount of the list that names it: a register
that is an operand and a scale pointer advances by 4,096 (DESIGN CHOICE, log entry 49). -/
def Strand.advanceOnce (st : Strand) (seen : List (BitVec 4)) (l : List (BitVec 4 × Nat)) : Strand :=
  match l with
  | [] => st
  | (a, n) :: r =>
    if seen.contains a then st.advanceOnce seen r
    else (st.setReg a (padd49 (st.reg a) (BitVec.ofNat 64 n))).advanceOnce (a :: seen) r

/-- The product of a command over its pinned blocks (R185): the tile and its flags. -/
def Strand.productTile (st : Strand) (i : Instr) (o : XOp) (pins : List Payload) : Payload × BitVec 5 :=
  let pa := pins.getD 0 0
  let pb := pins.getD 1 0
  let acc := st.tileData (low3 o.rd)
  let ea := st.elem o
  let eb : Elem := match i with
    | .mmai _ => if o.imm6 = 0 then ea else elemOf (o.imm6.extractLsb' 0 4) 0
    | _ => if o.fmt = 0xB#4 then elemOf 0xB#4 (st.desc (descB o)) else ea
  let rows : Payload → Elem → List (List Num) := fun p e => (List.range 32).map fun k => (rowCodes p e.w k).map e.num
  let ra := rows pa ea
  let rb := rows pb eb
  let g := if descScale (st.desc o.fd) = 2#2 then 16 else 32
  let per := (1024 / ea.w) / g
  tileBuild fun x y =>
    let a := ra.getD x []
    let b := rb.getD y []
    let c := tileWord acc (32 * x + y)
    match i with
    | .mmai _ =>
      let total := ((rowCodes pa ea.w x).zip (rowCodes pb eb.w y)).foldl (fun t p => t + (match ea, eb with
        | .int ga wa, .int gb wb => intOf ga wa p.1 * intOf gb wb p.2
        | _, _ => 0)) (0 : Int)
      (BitVec.ofInt 32 (c.toInt + total), 0)
    | .mmas _ =>
      let sa : Nat → Option Int := fun q => scaleExp (payloadByte (pins.getD 2 0) ((Handle.off (st.reg o.rc)).toNat + x * per + q))
      let sb : Nat → Option Int := fun q => scaleExp (payloadByte (pins.getD 3 0) ((Handle.off (st.reg o.re)).toNat + y * per + q))
      productGroups g (fun q => match sa q, sb q with | some j, some k => some (j + k) | _, _ => none) a b c
    | _ => if o.fmt = 0xB#4 then productGroups 32 (fun _ => some 0) a b c else product16 a b c

/-- The strand after a product (R185): tile, flags, pointers, pc. -/
def Strand.productDone (st : Strand) (i : Instr) (o : XOp) (pins : List Payload) : Strand :=
  let st1 := st.putTile (low3 o.rd) (st.productTile i o pins)
  let run := scaleRun (st.elem o).w (st.desc o.fd)
  let regs := [(o.ra, 4096), (o.rb, 4096)] ++ (match i with | .mmas _ => [(o.rc, run), (o.re, run)] | _ => [])
  (if o.am = 2 then st1.advanceOnce [] regs else st1).completed

/-! ### Top-k (R192, R193) -/

/-- TOPK and TOPKM: both tiles held, of one type. -/
def State.topSelect (s : State) (o : XOp) (i : Instr) : Host.Outcome State Fault Refusal :=
  s.issueX o fun r st => s.withTile r st (low3 o.rd) fun t => s.withTyped r st (low3 o.ra) t.isInt (s.enqueue r st i none)
/-- TOPK. -/
def execTopk (o : XOp) (s : State) : Host.Outcome State Fault Refusal := s.topSelect o (.topk o)
/-- TOPKM. -/
def execTopkm (o : XOp) (s : State) : Host.Outcome State Fault Refusal := s.topSelect o (.topkm o)

/-- The empty score of an order (R192). -/
def emptyScore (isInt asc : Bool) : BitVec 32 :=
  if isInt then (if asc then 0x7FFFFFFF#32 else 0x80000000#32) else (if asc then 0x7F800000#32 else 0xFF800000#32)
/-- A row in empty state. -/
def emptyRow (isInt asc : Bool) : List (BitVec 32) := List.replicate 16 (emptyScore isInt asc) ++ List.replicate 16 0xFFFFFFFF#32

/-- Is score `x` below score `y`, −0 below +0? -/
def scoreLt (isInt : Bool) (x y : BitVec 32) : Bool := if isInt then x.slt y else (f32 x).below (f32 y)

/-- Does pair `x` rank before pair `y` (R192)? -/
def ranksBefore (isInt asc : Bool) (x y : BitVec 32 × BitVec 32) : Bool :=
  let better := if asc then scoreLt isInt x.1 y.1 else scoreLt isInt y.1 x.1
  let worse := if asc then scoreLt isInt y.1 x.1 else scoreLt isInt x.1 y.1
  better || (!worse && x.2.ult y.2)

/-- Insert a pair into a ranked list. -/
def rankInsert (isInt asc : Bool) (x : BitVec 32 × BitVec 32) (l : List (BitVec 32 × BitVec 32)) : List (BitVec 32 × BitVec 32) :=
  match l with
  | [] => [x]
  | y :: r => if ranksBefore isInt asc x y then x :: y :: r else y :: rankInsert isInt asc x r

/-- Is a score a NaN, of a kind? -/
def scoreNan (isInt : Bool) (x : BitVec 32) : Bool := !isInt && (f32 x).isNan
def scoreSig (isInt : Bool) (x : BitVec 32) : Bool := !isInt && (f32 x).isSig

/-- One row of TOPK or TOPKM (R193). The pairs with a number for a score stand in the order of R192. A pair of the state tile whose score is
a NaN has no rank there: it goes, unchanged, to the place among them that the free value `free` holds for its position (log entry 21). -/
def topRow (isInt asc : Bool) (k : Nat) (free : List (BitVec 32)) (old : List (BitVec 32)) (cand : List (BitVec 32 × BitVec 32)) :
    List (BitVec 32) × BitVec 5 :=
  let held := (old.take 16).zip (old.drop 16)
  let fl : BitVec 5 := if (held ++ cand).any fun p => scoreSig isInt p.1 then fInvalid else 0
  let ranked := ((held ++ cand).filter fun p => !scoreNan isInt p.1).foldr (rankInsert isInt asc) []
  let nans := held.zipIdx.filter fun p => scoreNan isInt p.1.1
  let best := (nans.foldl (fun l p => l.insertIdx ((free.getD p.2 0).toNat % (l.length + 1)) p.1) ranked).take k
  let pad := 16 - best.length
  (best.map Prod.fst ++ List.replicate pad (emptyScore isInt asc) ++ best.map Prod.snd ++ List.replicate pad 0xFFFFFFFF#32, fl)

/-- The state tile after TOPK or TOPKM. -/
def Strand.topTile (st : Strand) (i : Instr) (o : XOp) (tick : Nat) : Payload × BitVec 5 :=
  let isInt := st.tileIsInt (low3 o.rd)
  let asc := o.imm6.getLsbD 4
  let k := (o.imm6.extractLsb' 0 4).toNat + 1
  let base := (st.reg o.rb).extractLsb' 0 32
  let rows := (List.range 32).map fun n =>
    let src := tileRow (st.tileData (low3 o.ra)) n
    let cand := match i with
      | .topk _ => src.zipIdx.map fun p => (p.1, base + BitVec.ofNat 32 p.2)
      | _ => (src.take 16).zip (src.drop 16)
    let free := (List.range 16).map fun j => (Config.free 3 (1024 * tick + 32 * n + j)).extractLsb' 0 32
    topRow isInt asc k free (tileRow (st.tileData (low3 o.rd)) n) cand
  (tileFrom ((rows.flatMap Prod.fst).map BitVec.toNat), rows.foldl (fun a x => a ||| x.2) 0)

/-! ### Results of the tile commands that touch only their strand -/

/-- TZERO (R184). -/
def Strand.zeroTile (st : Strand) (o : XOp) : Payload :=
  if o.imm6 = 0 then 0
  else tileFrom (((List.replicate 32 (emptyRow (st.tileIsInt (low3 o.rd)) (o.imm6 == 2#6))).flatMap id).map BitVec.toNat)

/-- The strand with the result of a command of majors 0x38 to 0x3A that has no effect outside it. -/
def Strand.tileDone (st : Strand) (i : Instr) (pins : List Payload) (tick : Nat) : Option Strand :=
  let elems : XOp → Strand := fun o => (st.putTile (low3 o.rd) (st.tileElems i o)).completed
  let lanes : XOp → Strand := fun o =>
    let v := st.tileLanes i o
    ((st.setVec (low3 o.rd) v.1 (tileTag o)).orFlags v.2).completed
  match i with
  | .tacq _ => some st.completed
  | .trel _ => some st.completed
  | .tzero o => some (st.putTile (low3 o.rd) (st.zeroTile o, 0)).completed
  | .taddr o => some (elems o)
  | .taddc o => some (elems o)
  | .tscl o => some (elems o)
  | .texpr o => some (elems o)
  | .twrv o => some (elems o)
  | .tmaxr o => some (lanes o)
  | .tsumr o => some (lanes o)
  | .trdv o => some (lanes o)
  | .tld o =>
    let st1 := st.putTile (low3 o.rd) (pins.getD 0 0, 0)
    some (if o.am = 2 then st1.advanceOnce [] [(o.ra, 4096)] else st1).completed
  | .mma o => some (st.productDone i o pins)
  | .mmas o => some (st.productDone i o pins)
  | .mmai o => some (st.productDone i o pins)
  | .topk o => some (st.putTile (low3 o.rd) (st.topTile i o tick)).completed
  | .topkm o => some (st.putTile (low3 o.rd) (st.topTile i o tick)).completed
  | _ => none

/-- The writes of TST (R189): handle and bytes of the 32 segments, and the flags of the conversions. -/
def Strand.tstWrites (st : Strand) (o : XOp) : List (OpKind × Word) × BitVec 5 :=
  let h := st.reg o.ra
  let isInt := st.tileIsInt (low3 o.rd)
  let d := st.tileData (low3 o.rd)
  let e := st.elem o
  let src : Elem := if isInt then .int true 32 else .flt fmtF32 32
  let same := o.fmt == (if isInt then 6#4 else 8#4)
  let rows := (List.range 32).map fun i =>
    let cells := (tileRow d i).map fun x => if same then (x.toNat, 0#5) else src.convert e (st.mode o.rm) x.toNat
    let off := BitVec.ofNat 12 (128 * i + (Handle.off h).toNat)
    ((OpKind.write off (4 * e.w) (payloadOf (packCodes e.w (cells.map Prod.fst))) false, h.extractLsb' 12 52 ++ off),
      cells.foldl (fun a x => a ||| x.2) 0#5)
  (rows.map Prod.fst, rows.foldl (fun a x => a ||| x.2) 0)

end Sys2Proof.Machine
end

