-- ==== Sys2Proof/Machine/Anvil.lean ====
section
/-!
DEFINITION. The Anvil of a quad: the Tongs' requests and replies, the two arbiters, tile ownership, and the completion of
commands (R156 to R160, R177, R179 to R187, R259).
-/
namespace Sys2Proof.Machine

/-- The four cores of a quad. -/
def quadCores (a : BitVec 11) : List (BitVec 13) := [a ++ 0#2, a ++ 1#2, a ++ 2#2, a ++ 3#2]

/-! ### The Tongs (R179 to R182) -/

/-- Does the core's command still wait for its Tongs to start? -/
def State.unfetched (s : State) (r : Nat) : Option (Strand × List Word) :=
  match s.strand r with
  | none => none
  | some st =>
    match st.wait with
    | .command i false _ _ => if (tongsHandles st i).isEmpty then none else some (st, tongsHandles st i)
    | _ => none

/-- What the Tongs know of an operand at once: its translation, or the copy that serves it. -/
def State.operandNow (s : State) (c : BitVec 9) (h : Word) : Pin × Option Place × State :=
  match s.xlate c false h permR with
  | .ok p =>
    match s.copyFor c h p with
    | some (d, s1) => (.data d, none, s1)
    | none => (.waiting, some p, s)
  | .migrate _ => (.anchor, none, s)
  | _ => (.fault, none, s)

/-- Ask for the operands of one command, each block once, in the order of R179. -/
def State.askOperands (s : State) (r i : Nat) (k : BitVec 13) (seen : List Word) (hs : List Word) : List Pin × State :=
  match hs with
  | [] => ([], s)
  | h :: q =>
    let x := s.operandNow (coreCluster k) h
    let s1 := match x.2.1 with
      | some p => if seen.contains (Handle.block h) then x.2.2
                  else x.2.2.sendOp (.read false) h p (unitCore k) (.tongs r i) 0 0#2 0 ((s.strand r).elim 0 (·.node))
      | none => x.2.2
    let y := s1.askOperands r (i + 1) k (Handle.block h :: seen) q
    (x.1 :: y.1, y.2)

/-- The Tongs buffers that the commands of core `k` hold: one for each block they have asked for, until they complete (R179). -/
def State.buffersUsed (s : State) (k : BitVec 13) : Nat :=
  (s.strands.map fun p =>
    match p.2.wait with
    | .command i _ (_ :: _) _ => if p.2.home = k then ((tongsHandles p.2 i).map Handle.block).eraseDups.length else 0
    | _ => 0).sum

/-- May the Tongs ask for these operands: eight buffers a core (R179), and 1,024 operations towards a home (R255)? -/
def State.tongsRoom (s : State) (k : BitVec 13) (hs : List Word) : Bool :=
  let n := (hs.map Handle.block).eraseDups.length
  decide (s.buffersUsed k + n ≤ 8) && hs.all fun h =>
    match s.xlate (coreCluster k) false h permR with
    | .ok p => s.roomFor (unitCore k) (homeOf p) n
    | _ => true

/-- For a core, the Tongs start on the earliest block-reading command in its queue, if they have not yet and there is room (R179,
R255). -/
def State.tongsStart (s : State) (k : BitVec 13) : State :=
  match (s.core k).cmdq.findSome? fun r => (s.unfetched r).map fun x => (r, x) with
  | none => s
  | some (r, st, hs) =>
    match st.wait with
    | .command i false [] d =>
      if !s.tongsRoom k hs then s else
      let x := s.askOperands r 0 k [] hs
      (x.2.updStrand r fun st => { st with wait := .command i false x.1 d }).decideTongs r
    | _ => s

/-- The Tongs of a quad. -/
def State.tongsQuad (s : State) (a : BitVec 11) : State := (quadCores a).foldl (fun t k => t.tongsStart k) s

/-- The operand and strand that reply `m` is for, while its request stands. -/
def State.tongsReply (s : State) (m : Nat) : Option (Op × Reply × Nat × Nat) :=
  match Maps.get s.net m with
  | some (.reply o x) =>
    match o.asker with
    | .tongs r i => some (o, x, r, i)
    | _ => none
  | _ => none

/-- TONGS_OPERAND_REPLY (R181): an operand is pinned, or its reply decides; the reply to a withdrawn request is dropped. -/
def execTongsOperandReply (m : Nat) (s : State) : Host.Outcome State Fault Refusal :=
  match s.tongsReply m with
  | none => .next s
  | some (o, x, r, i) =>
    let s1 := (s.take m).unack o.unit o.seq
    if s.awaited o then
      .next (match x with
        | .data d pw _ => (s1.keepCopy (coreCluster (BitVec.ofNat 13 o.unit)) o d pw).pinReply r i (.data d)
        | .stale => s1.pinReply r i .stale
        | .poison => s1.pinReply r i .poison
        | .report bits _ => s1.pinReply r i (if bits = 0 then .parked o.place o.h else .fault)
        | _ => s1)
    else .next s1

/-! ### The arbiters (R157, R180, R187) -/

/-- Is a command of the matrix class? -/
def isMatrix (i : Instr) : Bool :=
  match i with
  | .mma _ => true
  | .mmas _ => true
  | .mmai _ => true
  | .topk _ => true
  | .topkm _ => true
  | _ => false

/-- The command at the head of a core's queue, when it is of the class and has all its operands (R180). -/
def State.headOf (s : State) (matrix : Bool) (k : BitVec 13) : Option (BitVec 13 × Nat × Strand × Instr × List Pin × Option Place) :=
  match (s.core k).cmdq with
  | [] => none
  | r :: _ =>
    match s.strand r with
    | none => none
    | some st =>
      match st.wait with
      | .command i false pins d =>
        if isMatrix i == matrix && pins.length == (tongsHandles st i).length && pins.all Pin.isData then some (k, r, st, i, pins, d)
        else none
      | _ => none

/-- The first core after the pointer, in circular order, whose head is of the class (R157); none while the Anvil is under a
self-test (R372). -/
def State.arbitrate (s : State) (a : BitVec 11) (matrix : Bool) (ptr : BitVec 2) :
    Option (BitVec 13 × Nat × Strand × Instr × List Pin × Option Place) :=
  if s.fencedAnvil a then none
  else [a ++ (ptr + 1#2), a ++ (ptr + 2#2), a ++ (ptr + 3#2), a ++ ptr].findSome? (s.headOf matrix)

/-- The command leaves its queue, dispatched. -/
def State.dispatched (s : State) (k : BitVec 13) (r : Nat) (i : Instr) (pins : List Pin) (d : Option Place) : State :=
  let c := s.core k
  (s.setCore k { c with cmdq := c.cmdq.filter (· != r) }).updStrand r fun st => { st with wait := .command i true pins d }

/-- The physical tile that TACQ is granted (R177): the node's reservation first, then the free tiles. -/
def Anvil.grantTile (v : Anvil) (node : BitVec 32) : Option (Fin 16 × Bool) :=
  match (List.finRange 16).find? fun k => v.tiles[k] == .reserved node with
  | some k => some (k, true)
  | none => ((List.finRange 16).find? fun k => v.tiles[k] == .free).map fun k => (k, false)

/-- TACQ at its dispatch (R184). -/
def State.acquire (s : State) (a : BitVec 11) (r : Nat) (st : Strand) (o : XOp) : Option State :=
  let t := low3 o.rd
  if (st.tile t).isSome then none
  else if 7 ≤ st.tcnt then none
  else (s.anvil a).grantTile st.node |>.map fun g =>
    let v := s.anvil a
    let s1 := s.setAnvil a { v with tiles := v.tiles.set g.1 (.held r (if g.2 then some st.node else none)) }
    s1.updStrand r fun st => st.setTile t (some { isInt := fmtInt o, phys := BitVec.ofNat 4 g.1, reserved := g.2, data := 0 })

/-- The reason that TACQ fails for (R178, R184). -/
def acquireReason (st : Strand) (t : BitVec 3) : BitVec 4 :=
  if (st.tile t).isSome then 2 else if 7 ≤ st.tcnt then 3 else 4

/-- TREL at its dispatch (R177, R184). -/
def State.releaseTile (s : State) (a : BitVec 11) (r : Nat) (t : BitVec 3) (x : Tile) : State :=
  let v := s.anvil a
  let u := (v.tiles[x.phys.toNat]'(x.phys.isLt)).release r fun n => (s.node n).isSome
  (s.setAnvil a { v with tiles := v.tiles.set x.phys.toNat u x.phys.isLt }).updStrand r fun st => st.setTile t none

/-- The checks and the ownership that TACQ, TREL and TZERO settle at dispatch (R184): none where the instruction traps. -/
def State.tileDispatch (s : State) (a : BitVec 11) (r : Nat) (st : Strand) (i : Instr) : Option State :=
  match i with
  | .tacq o => s.acquire a r st o
  | .trel o => (st.tile (low3 o.rd)).map fun x => s.releaseTile a r (low3 o.rd) x
  | .tzero o => (st.tile (low3 o.rd)).map fun _ => s
  | _ => some s

/-- tval of a trap at dispatch. -/
def tileTrap (st : Strand) (i : Instr) : Word :=
  match i with
  | .tacq o => tileVal (low3 o.rd) (acquireReason st (low3 o.rd))
  | .trel o => tileVal (low3 o.rd) 1
  | .tzero o => tileVal (low3 o.rd) 1
  | _ => 0

/-- VECTOR_DISPATCH: one cycle of the vector arbiter, which no grant stops (R157, R159). -/
def execVectorDispatch (anvil : BitVec 11) (s : State) : Host.Outcome State Fault Refusal :=
  let s0 := s.tongsQuad anvil
  match s0.arbitrate anvil false (s0.anvil anvil).vptr with
  | none => .next s0
  | some (k, r, st, i, pins, d) =>
    let s1 := s0.dispatched k r i pins d
    let s2 := s1.setAnvil anvil { s1.anvil anvil with vptr := k.extractLsb' 0 2 }
    match s2.tileDispatch anvil r st i with
    | none => .next (s2.raise r 11#5 (tileTrap st i))
    | some s3 => .next (s3.setAnvil anvil { s3.anvil anvil with lanes := (s3.anvil anvil).lanes ++ [r] })

/-- MATRIX_DISPATCH: one cycle of the matrix arbiter (R157, R186, R187); a command that the budget holds back is counted as
waiting one cycle. -/
def execMatrixDispatch (anvil : BitVec 11) (s : State) : Host.Outcome State Fault Refusal :=
  let s0 := s.tongsQuad anvil
  let v := s0.anvil anvil
  match s0.arbitrate anvil true v.mptr with
  | none => .next s0
  | some (k, r, _, i, pins, d) =>
    if 2 ≤ v.array.length then .next s0
    else if (s0.die (clusterDie (anvilCluster anvil))).budget ≤ v.spent then .next (s0.setAnvil anvil { v with perf3 := v.perf3 + 1 })
    else
      let s1 := s0.dispatched k r i pins d
      let w := s1.anvil anvil
      .next (s1.setAnvil anvil { w with mptr := k.extractLsb' 0 2, array := w.array ++ [r], spent := w.spent + 1, perf2 := w.perf2 + 1 })

/-! ### Completion (R158, R186) -/

/-- The dispatched command of a strand. -/
def State.running (s : State) (r : Nat) : Option (Strand × Instr × List Payload × Option Place) :=
  match s.strand r with
  | none => none
  | some st =>
    match st.wait with
    | .command i true pins d => some (st, i, pins.map Pin.payload, d)
    | _ => none

/-- A command leaves the Anvil's lanes and array. -/
def State.leaveAnvil (s : State) (r : Nat) : State :=
  { s with anvils := Maps.map s.anvils fun _ v => { v with lanes := v.lanes.filter (· != r), array := v.array.filter (· != r) } }

/-- TST posts its 32 segments (R189). -/
def State.tstDone (s : State) (r : Nat) (st : Strand) (o : XOp) (p : Place) : State :=
  let w := st.tstWrites o
  let s1 := w.1.foldl (fun t k => t.post r k.1 k.2 p (st.batchFor o)) s
  s1.updStrand r fun st =>
    ((if o.am = 2 then st.advanceOnce [] [(o.ra, 4096)] else st).orFlags w.2).completed

/-- VECTOR_RESULT (R158, R186): destination, tag, flags and pc; TST waits while its core has no room for its segments (R255). -/
def execVectorResult (rec : Nat) (s : State) : Host.Outcome State Fault Refusal :=
  match s.running rec with
  | none => .next s
  | some (st, i, pins, d) =>
    if isMatrix i then .next s
    else match st.vectorDone i with
      | some st1 => .next (((s.leaveAnvil rec).setStrand rec st1).unitDone rec)
      | none =>
        match i, d with
        | .tst o, some p =>
          .next (if s.roomFor (unitCore st.home) (homeOf p) 32 then ((s.leaveAnvil rec).tstDone rec st o p).unitDone rec else s)
        | _, _ =>
          match st.tileDone i pins s.tick with
          | some st1 => .next (((s.leaveAnvil rec).setStrand rec st1).unitDone rec)
          | none => .next s

/-- MATRIX_RESULT (R186): tile, flags, pointers and pc; the pins are released. -/
def execMatrixResult (rec : Nat) (s : State) : Host.Outcome State Fault Refusal :=
  match s.running rec with
  | none => .next s
  | some (st, i, pins, _) =>
    if isMatrix i then
      match st.tileDone i pins s.tick with
      | some st1 => .next (((s.leaveAnvil rec).setStrand rec st1).unitDone rec)
      | none => .next s
    else .next s

/-- ACCT_POST (R259): the accumulation of a whole tile is posted, then pointer and pc. -/
def execAcctPost (rec : Nat) (s : State) : Host.Outcome State Fault Refusal :=
  match s.running rec with
  | some (st, .acct o, _, some p) =>
    let e := st.ea o 4096
    let op : OpKind := .accum 0 4096 o.fmt (o.imm6.extractLsb' 0 2) (o.mod.getLsbD 0) (st.tileData (low3 o.rd))
    if s.roomFor (unitCore st.home) (homeOf p) 1 then
      .next ((((s.leaveAnvil rec).post rec op e.h p (st.batchFor o)).updStrand rec fun st => (st.setReg o.ra e.upd).completed).unitDone rec)
    else .next s
  | _ => .next s

end Sys2Proof.Machine
end

