-- ==== Sys2Proof/Machine/Wake.lean ====
section
/-!
DEFINITION. Wakes, walks and the fault queues (R93, R201, R209, R229, R230, R233, R302, R331, R368).
-/
namespace Sys2Proof.Machine

/-! ### Wakes (R93, R201, R209) -/

/-- A parked strand is woken: with a cause its trap enters at the reading instruction; then it returns through its dispatcher. -/
def State.unpark (s : State) (r : Nat) (cause : Option (BitVec 5)) (h : Word) : State :=
  let s1 := s.updStrand r fun st => { st with wait := .run }
  match cause with
  | none => s1.toDispatcher r ((s1.strand r).elim 0 Strand.clusterOf)
  | some k =>
    let s2 := s1.raise r k h
    s2.toDispatcher r ((s2.strand r).elim 0 Strand.clusterOf)

/-- Is a strand or an operand that is parked at `q` by a read of `g` parked on the block and generation of `h` at `p`? -/
def parkedOn (q p : Place) (g h : Word) : Bool := q == p && Handle.block g == Handle.block h

/-- Does the strand's read of a block of another module still wait for its home's answer? Its wake may come before the report that
it parked there, and waits for that (R201, R302). -/
def State.wakeEarly (s : State) (r : Nat) (p : Place) (h : Word) : Bool :=
  match p, s.strand r with
  | .off _, some st =>
    match st.wait with
    | .reply _ g _ => Handle.block g == Handle.block h
    | .command i false pins _ => ((tongsHandles st i).zip pins).any fun q => q.2 == .waiting && Handle.block q.1 == Handle.block h
    | _ => false
  | _, _ => false

/-- A wake reaches the record it names; one whose record is not parked on that block is dropped (R319). -/
def State.wakeStrand (s : State) (r : Nat) (p : Place) (cause : Option (BitVec 5)) (h : Word) : State :=
  match s.strand r with
  | none => s
  | some st =>
    match st.wait with
    | .parked q g => if parkedOn q p g h then s.unpark r cause h else s
    | .command i false pins d =>
      let pins' := pins.map fun x => match x with | .parked q g => if parkedOn q p g h then .woken cause else .parked q g | x => x
      (s.setStrand r { st with wait := .command i false pins' d }).decideTongs r
    | _ => s

/-- A copy command's source segment is woken: it reads again, or the command fails (R209, R233). -/
def State.wakeSegment (s : State) (cl : BitVec 9) (cmd seg : Nat) (cause : Option (BitVec 5)) : State :=
  match Maps.get (s.cluster cl).eng.active cmd with
  | none => s
  | some c =>
    match cause with
    | none => ((s.setCmd cl { c with asked := c.asked.filter (· != seg) }).askRest cl cmd).advanceCmd cl cmd
    | some k => s.failCmd cl c (if k = 12 then bAborted else bPoison) ((c.srcs[seg]?).elim 0 Prod.fst)

/-- WAKE_DELIVER. -/
def execWakeDeliver (m : Nat) (s : State) : Host.Outcome State Fault Refusal :=
  .next (match Maps.get s.net m with
    | some (.wake r p cause h) =>
      if s.wakeEarly r p h then s
      else ((s.take m).rouse (clusterDie ((s.strand r).elim 0 Strand.clusterOf))).wakeStrand r p cause h
    | some (.wakeEngine cl cmd seg cause) => ((s.take m).rouse (clusterDie cl)).wakeSegment cl cmd seg cause
    | _ => s)

/-! ### Walks (R227, R229) -/

/-- A TLB of 1,024 entries takes an extent; when full, the other entry of the lowest number gives way (log entry 22). -/
def Cluster.fillTlb (c : Cluster) (vbn : BitVec 37) (big : Bool) (e : Word) : Cluster :=
  let old := Maps.del c.tlb (tlbKey vbn big)
  { c with tlb := Maps.put (if old.length < 1024 then old else old.drop 1) (tlbKey vbn big) e }

/-- WALK_COMPLETE (R229): the walker has read the entries; the leaf enters the cluster's TLB and the instruction goes on; without the
permission its record goes to the fault queue. A hint asks for no permission, and a walk that fails drops it (R237). -/
def execWalkComplete (rec : Nat) (s0 : State) : Host.Outcome State Fault Refusal :=
  match s0.strand rec with
  | none => .next s0
  | some st =>
    match st.wait with
    | .walk h perm =>
      let vbn := Handle.vbn h
      let s := s0.walked vbn
      match s.walk vbn with
      | none =>
        .next (if perm = 0 then s.setStrand rec { st.next xlen with wait := .run } else s.toFaultQueue rec h (.perm perm))
      | some (e, big) =>
        let cl := st.clusterOf
        let s1 := s.setCluster cl ((s.cluster cl).fillTlb vbn big e)
        match s1.granted e big vbn perm with
        | .ok _ => .next (s1.setStrand rec { st with wait := .run })
        | _ =>
          .next (if perm = 0 then s1.setStrand rec { st.next xlen with wait := .run } else s1.toFaultQueue rec h (.perm perm))
    | _ => .next s0

/-- Remove translations from every TLB (R230, R331): the extent of one VBN, or all. -/
def State.shootdown (s : State) (vbn : Option (BitVec 37)) : State :=
  { s with clusters := Maps.map s.clusters fun _ c => { c with tlb := match vbn with
      | none => []
      | some v => Maps.del (Maps.del c.tlb (tlbKey v false)) (tlbKey v true) } }

/-- A privileged form (R86). -/
def State.privilegedOnly (s : State) (r : Nat) (st : Strand) (go : State) : State := if st.privileged then go else s.raise r 1#5 0

/-- TLBI (R331). -/
def execTlbi (f : Form) (ra : BitVec 4) (all : Bool) (s : State) : Host.Outcome State Fault Refusal :=
  s.issue f.gd f.len fun r st => s.privilegedOnly r st
    ((s.shootdown (if all then none else some ((st.reg ra).extractLsb' 12 37))).setStrand r (st.next f.len))

/-! ### The fault queue (R229) -/

/-- Does what a queued instruction needs stand now? -/
def State.needMet (s : State) (c : BitVec 9) (v : Word) (n : Need) : Bool :=
  match n with
  | .perm p =>
    match s.xlate c false v p with
    | .ok _ => true
    | .migrate _ => true
    | _ => false
  | .permHere p =>
    match s.xlate c false v p with
    | .ok (.off _) => false
    | .ok _ => true
    | .migrate _ => true
    | _ => false
  | .ctx k => s.ctxLen k != 0
  | .never => false

/-- FAULT_QUEUE_SERVICE: the oldest record of the die's queue returns to its dispatcher, or its instance ends with XLATE. -/
def execFaultQueueService (die : BitVec 3) (s : State) : Host.Outcome State Fault Refusal :=
  match (s.die die).faultq with
  | [] => .next s
  | r :: q =>
    let s1 := s.setDie die { s.die die with faultq := q }
    match s1.strand r with
    | none => .next s1
    | some st =>
      match st.wait with
      | .fault v n =>
        let c := st.clusterOf
        .next (if s1.needMet c v n then (s1.setStrand r { st with wait := .run }).toDispatcher r c else s1.endOwner r 18#8 v)
      | _ => .next s1

end Sys2Proof.Machine
end

