-- ==== Sys2Proof/Machine/Uhp.lean ====
section
/-!
DEFINITION. The host's sessions (R35 to R39, R381, R384, R389): opening and closing, reassembly, acknowledgement and
retransmission; the Keep's one order of requests (R40, R41, R43). The spec lists what a body holds and not always at which
byte: log entry 24 gives the layouts.
-/
namespace Sys2Proof.Machine

/-- Has the part reached READY (R380)? -/
def State.ready (s : State) : Bool := s.boot.stage == 7
/-- In RECOVERY (R384)? -/
def State.recovery (s : State) : Bool := s.boot.stage == 15
/-- The word of BOOTSTATUS (R388). -/
def Boot.word (b : Boot) : Word := b.tready ++ 0#16 ++ b.fail ++ 0#3 ++ BitVec.ofBool b.copyB ++ b.stage
/-- What becomes of a datagram before READY (R381), and in RECOVERY on port 0 (R384). -/
def State.whenReady (s : State) (port : Bool) (go : State) : State :=
  if s.ready then go
  else if s.recovery && !port then s.emit (.bootBusy s.boot.word)
  else s

/-- The eight registers of host key slot `k` (R385). -/
def State.hostKey (s : State) (k : Nat) : List Word := (List.range 8).map fun i => Maps.getD s.flash (0x1000 + 64 * k + 8 * i) 0
/-- Is the slot empty? -/
def State.slotEmpty (s : State) (k : Nat) : Bool := (s.hostKey k).all fun w => w == 0
/-- May an enrolment session open (R389)? -/
def State.enrolling (s : State) (slot : BitVec 2) : Bool :=
  slot == 0 && !s.enrolLock && (List.range 4).all s.slotEmpty

/-- The session of a number. -/
def State.session (s : State) (n : BitVec 32) : Option Session := Maps.get s.sessions n.toNat
/-- Replace a session. -/
def State.setSession (s : State) (n : BitVec 32) (v : Session) : State := { s with sessions := Maps.put s.sessions n.toNat v }
/-- The session is gone (R36); a message of it that was not acknowledged is not sent again (log entry 82). -/
def State.closeSession (s : State) (n : BitVec 32) : State := { s with sessions := Maps.del s.sessions n.toNat }

/-- A message whose tag fails is dropped and counted in the error log (R36); what its record says is open (log entry 25). -/
def State.badTag (s : State) : State := s.logError (Config.free 5 (2 * s.tick)) (Config.free 5 (2 * s.tick + 1)) 0 0 s.hearthCycle

/-- The Keep's order as far as it may serve it: while a run is being started, or a REPLY OK is owed, its next request waits (R43, R48,
R323). -/
def State.keepNext (s : State) : List KeepReq := if s.starting.isSome || s.keepWait.isSome then [] else s.keepq

/-! ### Opening and closing (R35, R36, R389) -/

/-- OPENED without its signature: session number, nonce and ciphertext. -/
def openedBody (number : BitVec 32) (k : Nat) (open_ : List Byte) : List Byte :=
  leBytes 4 number.toNat ++ leBytes 32 (Config.partNonce k).toNat ++ leBytes 1568 (Config.cipherText k (open_.drop 33)).toNat
/-- H of R35. SHAKE256 gives as many bytes as are asked for, and R35 asks for no number: H is its first 32 bytes here, the model's choice
(log entry 24). -/
def openingHash (open_ opened : List Byte) : BitVec 256 := shake32 (open_ ++ opened)
/-- The 88 bytes of keys and IVs. -/
def openingKeys (k : Nat) (open_ opened : List Byte) : BitVec 704 :=
  (shake256 (leBytes 32 (Config.sharedSecret k (open_.drop 33)).toNat ++ leBytes 32 (openingHash open_ opened).toNat)).extractLsb' 0 704

/-- A session as its OPEN leaves it. -/
def openingSession (port : Bool) (seq : BitVec 32) (body opened : List Byte) (keys : BitVec 704) : Session :=
  { port := port, slot := BitVec.ofNat 2 (recField body 32 1), phase := .opening, openSeq := seq, openBody := body, opened := opened, keys := keys,
    rxNext := seq + 1, rxHeld := [], partOn := false, partSeq := 0, partTyp := 0, part := [], partBad := false, txNext := 0,
    unacked := [], stored := [] }

/-- OPEN (R35, R43): the request at the head of the Keep's order is answered with OPENED under a number that no session has had; one
that is not an OPEN's body, or finds 16 sessions, is not. -/
def execOpenSession (port : Bool) (seq : BitVec 32) (body : List Byte) (number : BitVec 32) (s : State) :
    Host.Outcome State Fault Refusal :=
  match s.keepNext with
  | k :: q =>
    let s1 := { s with keepq := q }
    if k ≠ .openReq port seq body then .next s
    else if body.length ≠ 1601 ∨ 3 < recField body 32 1 ∨ 16 ≤ s.sessions.length then .next s1
    else if number = 0 ∨ s.sessUsed.contains number.toNat then .next s
    else
      let unsigned := openedBody number s.tick body
      let opened := unsigned ++ Config.identitySignature (openingHash body unsigned)
      let se := openingSession port seq body opened (openingKeys s.tick body unsigned)
      .next (({ s1 with sessUsed := s.sessUsed ++ [number.toNat] }.setSession number se).sendMsg number 2#8 opened)
  | [] => .next s

/-- The CONFIRM at the head of the Keep's order, if it is request `seq` of session `n` and that is not open yet: whether its segments did not
fit, the session, and the rest of the order. -/
def State.confirming (s : State) (n seq : BitVec 32) : Option (Bool × Session × List KeepReq) :=
  match s.keepNext with
  | .uhp m q typ bad _ :: l =>
    (s.session n).bind fun se => if m == n && q == seq && typ == 3#8 && se.phase == .opening then some (bad, se, l) else none
  | _ => none

/-- CONFIRM: with a good signature by the key of its slot the session opens; an enrolment session needs none (R389). -/
def execConfirm (session seq : BitVec 32) (sigOk : Bool) (s : State) : Host.Outcome State Fault Refusal :=
  match s.confirming session seq with
  | none => .next s
  | some (bad, se, q) =>
    let s1 := { s with keepq := q }
    if s.enrolling se.slot then .next ((s1.setSession session { se with phase := .enrolling }).reply session seq 0 [])
    else if sigOk && !bad && !s.slotEmpty se.slot.toNat then
      .next ((s1.setSession session { se with phase := .opened }).reply session seq 0 [])
    else .next (s1.closeSession session)

/-- Does a CONFIRM of the session stand in the Keep's order? It has arrived, though the Keep has not come to it. -/
def State.confirmCame (s : State) (session : BitVec 32) : Bool :=
  s.keepq.any fun k => match k with
    | .uhp m _ typ _ _ => m == session && typ == 3#8
    | _ => false
/-- CONFIRM_TIMEOUT: no CONFIRM has come within 1 s of OPENED. -/
def execConfirmTimeout (session : BitVec 32) (s : State) : Host.Outcome State Fault Refusal :=
  match s.session session with
  | none => .next s
  | some se => if se.phase = .opening ∧ s.confirmCame session = false then .next (s.closeSession session) else .next s

/-! ### Datagrams (R38, R39) -/

/-- The largest body: 16 MiB. -/
def maxBody : Nat := 16777216

/-- A datagram in order extends the message in progress; the last segment hands the message to the Keep (R39, R43). -/
def State.takeSegment (s : State) (n : BitVec 32) (se : Session) (d : Datagram) : State × Session :=
  let typ := if se.partOn then se.partTyp else d.typ
  let first := if se.partOn then se.partSeq else d.seq
  let body := (if se.partOn then se.part else []) ++ d.body
  let bad := (se.partOn && (se.partBad || se.partTyp != d.typ)) || (d.m && d.body.length != 8192) || decide (8192 < d.body.length)
    || decide (maxBody < body.length)
  let se1 := { se with rxNext := se.rxNext + 1 }
  if d.m then (s, { se1 with partOn := true, partSeq := first, partTyp := typ, part := if bad then [] else body, partBad := bad })
  else
    ({ s with keepq := s.keepq ++ [KeepReq.uhp n first typ bad (if bad then [] else body)] }.tellKeep 2#8 first.toNat,
     { se1 with partOn := false, part := [], partBad := false })

/-- Deliver what has become in order. -/
def State.drainHeld (s : State) (fuel : Nat) (n : BitVec 32) (se : Session) : State × Session :=
  match fuel with
  | 0 => (s, se)
  | fuel + 1 =>
    match Maps.get se.rxHeld se.rxNext.toNat with
    | none => (s, se)
    | some d =>
      let x := s.takeSegment n { se with rxHeld := Maps.del se.rxHeld se.rxNext.toNat } d
      x.1.drainHeld fuel n x.2

/-- A cumulative acknowledgement releases the datagrams up to it. -/
def Session.acked (se : Session) (a : BitVec 32) : Session :=
  { se with unacked := se.unacked.filter fun q => !decide ((a - q.1).toNat < 2147483648) }

/-- A datagram of an open session whose tag verifies: in the window of 64 it is held and delivered in order; a repeated request
is answered with its stored reply; an acknowledgement goes out at once. TYPE ACK has no place in the order (log entry 24). R39 does not
say under which SEQ the stored reply goes: it is a new message under the next SEQ, though the first may be unacknowledged still, which is
the model's choice (log entry 24). -/
def State.datagram (s : State) (n : BitVec 32) (se0 : Session) (d : Datagram) : State :=
  let se := if d.a then se0.acked d.ack else se0
  let s0 := s.setSession n se
  if d.typ = 0x8F#8 then s0
  else if (d.seq - se.rxNext).toNat < 64 then
    let x := s0.drainHeld 64 n { se with rxHeld := Maps.put se.rxHeld d.seq.toNat d }
    (x.1.setSession n x.2).emit (x.2.datagram n x.2.txNext 0x8F#8 false [])
  else match Maps.get se.stored d.seq.toNat with
    | some b => s0.sendMsg n 0x80#8 b
    | none => s0

/-- A repeated OPEN is answered with the stored OPENED (R39): its datagrams go out again, or once they were acknowledged the message. -/
def State.repeatOpened (s : State) (n : BitVec 32) (se : Session) : State :=
  match se.unacked.filter fun q => q.2.1 == 2#8 with
  | [] => s.sendMsg n 2#8 se.opened
  | l => l.foldl (fun t q => t.emit (se.datagram n q.1 q.2.1 q.2.2.1 q.2.2.2.1)) s

/-- An OPEN arrives: it joins the Keep's order, unless it repeats one (R39, R43). -/
def State.takeOpen (s : State) (port : Bool) (d : Datagram) : State :=
  if d.m || s.keepq.contains (KeepReq.openReq port d.seq d.body) then s
  else match s.sessions.find? fun p => p.2.port == port && p.2.openSeq == d.seq && p.2.openBody == d.body with
    | some (n, se) => s.repeatOpened (BitVec.ofNat 32 n) se
    | none => { s with keepq := s.keepq ++ [KeepReq.openReq port d.seq d.body] }.tellKeep 2#8 d.seq.toNat

/-- A datagram of session `n`: while the session is not open, it takes the segments of CONFIRM and acknowledgements. -/
def State.takeDatagram (s : State) (n : BitVec 32) (d : Datagram) : State :=
  match s.session n with
  | none => s
  | some se =>
    if d.under ≠ some n then s.badTag
    else if se.phase = .opening && d.typ != 3#8 && d.typ != 0x8F#8 then s
    else s.rouseModule.datagram n se d

/-- UHP_SEGMENT: a datagram arrives. OPEN and CONFIRM bear session number 0 (R35). -/
def execUhpSegment (port : Bool) (dg : Datagram) (s : State) : Host.Outcome State Fault Refusal :=
  .next (s.whenReady port
    (if dg.ver != 1 then s
     else if dg.session ≠ 0 then (if dg.typ = 3#8 then s else s.takeDatagram dg.session dg)
     else if dg.typ = 1#8 then s.rouseModule.takeOpen port dg
     else if dg.typ = 3#8 then (match dg.under with | none => s.badTag | some n => s.takeDatagram n dg)
     else s))

/-- ACK (R39): an acknowledgement on its own. -/
def execAck (port : Bool) (dg : Datagram) (s : State) : Host.Outcome State Fault Refusal :=
  .next (s.whenReady port (if dg.ver != 1 || dg.typ != 0x8F#8 || dg.session = 0 then s else s.takeDatagram dg.session dg))

/-- UHP_RETRANSMIT: a datagram goes out again; after 16 unanswered retransmissions the session closes (R36, R39). -/
def execUhpRetransmit (session seq : BitVec 32) (s : State) : Host.Outcome State Fault Refusal :=
  match s.session session with
  | none => .next s
  | some se =>
    match se.unacked.find? fun q => q.1 == seq with
    | none => .next s
    | some (q, typ, more, body, sent) =>
      if 16 < sent then .next (s.closeSession session)
      else
        let l := se.unacked.map fun x => if x.1 == seq then (q, typ, more, body, sent + 1) else x
        .next ((s.setSession session { se with unacked := l }).emit (se.datagram session q typ more body))

/-! ### The Keep's order (R40, R41, R43) -/

/-- Status codes of R41. -/
def stOk : Nat := 0
def stFormat : Nat := 1
def stRange : Nat := 2
def stDuplicate : Nat := 3
def stAbsent : Nat := 4
def stBusy : Nat := 5
def stNospace : Nat := 6
def stArgument : Nat := 7
def stMalformed : Nat := 8
def stType : Nat := 9

/-- A request as its handler sees it. -/
structure Req where
  session : BitVec 32
  seq : BitVec 32
  body : List Byte
  deriving DecidableEq, Repr

/-- Is this a write to a host key slot, the one request of an enrolment session (R389)? -/
def isHostkeyWrite (typ : BitVec 8) (body : List Byte) : Bool :=
  typ == 0x33#8 && recField body 4 4 % 2 == 1 && decide (0x1000 ≤ recField body 0 4) && decide (recField body 0 4 < 0x1100)

/-- The request at the head of the Keep's order, when `want` accepts it: it leaves the order, a body whose length or segments do
not fit is MALFORMED before anything else, an enrolment session takes key writes alone, and `go` does the rest. What is left of a session
that has closed has no effect (log entry 82). -/
def State.serve (s : State) (want : BitVec 8 → List Byte → Bool) (fits : List Byte → Bool) (go : State → Req → State) : State :=
  match s.keepNext with
  | .uhp n seq typ bad body :: q =>
    if want typ body then
      let s1 := { s with keepq := q }
      if (s.session n).isNone then s1
      else if bad || !fits body then s1.reply n seq stMalformed []
      else
        let enrol := match s.session n with | some se => decide (se.phase = .enrolling) | none => false
        if enrol && !isHostkeyWrite typ body then s1.reply n seq stBusy [] else go s1 { session := n, seq := seq, body := body }
    else s
  | _ => s

/-- The same for a request that only answers with a status, a body and a new state. -/
def State.serveWith (s : State) (t : BitVec 8) (len : Nat) (go : State → List Byte → Nat × List Byte × State) : State :=
  s.serve (fun typ _ => typ == t) (fun b => b.length == len) fun s1 r =>
    let x := go s1 r.body
    x.2.2.reply r.session r.seq x.1 (if x.1 = 0 then x.2.1 else [])

/-- CLOSE (R36). -/
def execClose (s : State) : Host.Outcome State Fault Refusal :=
  .next (s.serve (fun t _ => t == 4#8) List.isEmpty fun s1 r => (s1.reply r.session r.seq stOk []).closeSession r.session)

/-- The TYPEs of R40 that a host's request bears inside a session. -/
def requestTypes : List Nat := [0x04, 0x10, 0x11, 0x12, 0x13, 0x20, 0x21, 0x22, 0x23, 0x24, 0x30, 0x31, 0x32, 0x33, 0x34]

/-- Is the head of the Keep's order a CONFIRM that its session awaits? -/
def State.confirmNext (s : State) : Bool :=
  match s.keepq with
  | .uhp n seq _ _ _ :: _ => (s.confirming n seq).isSome
  | _ => false

/-- UHP_UNKNOWN_TYPE (R40). The spec gives the status TYPE for any other TYPE than its table's; that a TYPE of the table which is no
request inside an open session (OPEN, OPENED, CONFIRM, REPLY, COMPLETE, FAULT) is answered so too is the model's choice (log entry 24). -/
def execUhpUnknownType (s : State) : Host.Outcome State Fault Refusal :=
  .next (if s.confirmNext then s
         else s.serve (fun t _ => !requestTypes.contains t.toNat) (fun _ => true) fun s1 r => s1.reply r.session r.seq stType [])

end Sys2Proof.Machine
end

