-- ==== Sys2Proof/Machine/Registers.lean ====
section
/-!
DEFINITION. The management registers (R383, R385 to R389): reading and writing them by QUERY, the staged plans and PLANLOAD
(R296, R297), the capacity report (R1) and cold reset (R390). Registers kept in flash stand in `flash` by address.
-/
namespace Sys2Proof.Machine

/-- A register kept in flash. -/
def State.flashReg (s : State) (a : Nat) : Word := Maps.getD s.flash a 0
/-- Write one. -/
def State.setFlash (s : State) (a : Nat) (v : Word) : State := { s with flash := Maps.put s.flash a v }

/-- Numbers of the dies. -/
def allDies : List (BitVec 3) := (List.range 8).map (BitVec.ofNat 3)
/-- Clusters in service. -/
def State.clustersUp (s : State) : Nat := ((List.range 512).filter fun c => s.inService (BitVec.ofNat 9 c)).length
/-- Is a stack in service: does the die of its active port stand (R9)? -/
def State.stackUp (s : State) (k : Nat) : Bool := (s.die (s.driver (BitVec.ofNat 5 k))).alive
/-- The stacks in service. -/
def State.stacksUp (s : State) : List Nat := (List.range 32).filter s.stackUp
/-- The CAPACITY register: the report of R1. -/
def State.capacity (s : State) : Word :=
  0#13 ++ BitVec.ofNat 12 (64 * s.stacksUp.length) ++ BitVec.ofNat 7 (popcount (s.fibresUp &&& s.planesUp).toNat 64)
    ++ BitVec.ofNat 14 (16 * s.clustersUp) ++ BitVec.ofNat 10 s.clustersUp
    ++ BitVec.ofNat 8 ((allDies.filter fun d => (s.die d).alive).map fun d => 2 ^ d.toNat).sum

/-- Bytes of `n` registers from address `a`. -/
def State.flashBytes (s : State) (a n : Nat) : List Byte := (List.range n).flatMap fun i => leBytes 8 (s.flashReg (a + 8 * i)).toNat

/-- What MEASURE 6 covers (R383), each field in its own bytes. -/
def State.measured (s : State) : List Byte :=
  let m := s.flashReg moduleReg
  s.flashBytes 0x1000 32 ++ leBytes 1 m.toNat ++ leBytes 1 (m.toNat / 256) ++ s.flashBytes 0x10008 4
    ++ leBytes 1 (s.flashReg 0x10028).toNat ++ leBytes 2 (s.flashReg 0x10038).toNat ++ s.flashBytes 0x10100 128 ++ s.flashBytes 0x11000 256
/-- MEASURE 6 is computed again (R383). -/
def State.remeasure (s : State) : State := { s with measure := s.measure.set 6 (shake32 s.measured) }

/-- The IDLESTATE register. -/
def State.idleWord (s : State) : Word :=
  BitVec.ofNat 64 (s.modState.toNat + (allDies.map fun d => (s.die d).idle.toNat <<< (2 * d.toNat + 8)).sum)

/-- The cluster whose trace ring TRACESEL shows. -/
def State.traceShown (s : State) : Cluster := s.cluster s.tracesel
/-- Word `k` of a 256-bit record. -/
def wordOf256 (r : BitVec 256) (k : Nat) : Word := r.extractLsb' (64 * k) 64

/-- The address lies in `[lo, lo + 8 n)`. -/
def inRegs (a lo n : Nat) : Bool := decide (lo ≤ a) && decide (a < lo + 8 * n)

/-- A register's value; none for an address that is not listed or not a multiple of 8 (R385). Write-only registers read zero (R4). -/
def State.regRead (s : State) (a : Nat) : Option Word :=
  if a % 8 ≠ 0 then none
  else if a = 0 then some (0#24 ++ Config.stepping ++ 0x0A08#16 ++ 0x484C#16)
  else if a = 8 then some Config.serial
  else if a = 0x10 then some s.capacity
  else if a = 0x18 then some s.boot.word
  else if a = 0x20 then some 0
  else if a = 0x28 then some s.idleWord
  else if inRegs a 0x40 8 then some (s.die (BitVec.ofNat 3 ((a - 0x40) / 8))).idleTime
  else if inRegs a 0x1000 32 then some (s.flashReg a)
  else if inRegs a 0x1100 8 then some (Config.idKey.extractLsb' (8 * (a - 0x1100)) 64)
  else if a = 0x1140 then some (BitVec.ofNat 64 Config.certLen.val)
  else if inRegs a 0x1180 8 then some (Config.attKey.extractLsb' (8 * (a - 0x1180)) 64)
  else if inRegs a 0x1200 32 then some (wordOf256 (s.measure[(a - 0x1200) / 32]?.getD 0) (a % 32 / 8))
  else if inRegs a 0x2000 1024 then some (Config.cert.extractLsb' (8 * (a - 0x2000)) 64)
  else if inRegs a 0x10000 6 then some (s.flashReg a)
  else if a = 0x10030 then some s.ttbase
  else if a = 0x10038 then some (s.flashReg a)
  else if a = 0x10040 then some 0
  else if a = 0x10048 then some (s.errHead.zeroExtend 64)
  else if a = 0x10050 then some (s.evtHead.zeroExtend 64)
  else if a = 0x10060 then some (s.tracesel.zeroExtend 64)
  else if a = 0x10068 then some (s.traceShown.traceOvf.zeroExtend 64)
  else if inRegs a 0x10100 128 then some (s.flashReg a)
  else if inRegs a 0x11000 256 then some 0
  else if inRegs a 0x12000 64 then some (s.flashReg a)
  else if inRegs a 0x30000 4096 then some (wordOf256 (Maps.getD s.errLog ((a - 0x30000) / 32) 0) (a % 32 / 8))
  else if inRegs a 0x38000 4096 then some (wordOf256 (Maps.getD s.evtLog ((a - 0x38000) / 32) 0) (a % 32 / 8))
  else if inRegs a 0x40000 1024 then some (wordOf256 ((s.traceShown.trace[(a - 0x40000) / 32]?).elim 0 Prod.snd) (a % 32 / 8))
  else if inRegs a 0xF0000 4 then some (Config.fwKeyHash.extractLsb' (8 * (a - 0xF0000)) 64)
  else if a = 0xF0020 then some s.rollback
  else if a = 0xF0028 then some ((BitVec.ofBool s.enrolLock).zeroExtend 64)
  else if inRegs a 0x100000 65536 then some (s.flashReg a)
  else none

/-! ### Writing (R385, R387) -/

/-- Does an instance run, or an RCIR (R387)? -/
def State.fabricBusy (s : State) : Bool := s.rcir.isSome || !s.instances.isEmpty

/-- Is a CPYH, HADD or HCAS on context `c` outstanding (R387)? -/
def State.ctxBusy (s : State) (c : BitVec 4) : Bool :=
  let cmd : CopyCmd → Bool := fun x => match x.kind with
    | .fromHost k _ => k == c
    | .toHost k _ => k == c
    | _ => false
  s.dies.toList.any (fun d => d.proxy.any fun q => q.ctx == c) || s.cores.any (fun p => p.2.ring.any cmd)
    || s.clusters.any fun p => p.2.eng.active.any fun q => cmd q.2

/-- A write to another register: the status and the new state. Reserved bits of a plan entry are ignored (R3). -/
def State.regWrite (s : State) (a : Nat) (v : Word) : Nat × State :=
  let fabric : Bool → State → Nat × State := fun ok t => if !ok then (stFormat, s) else if s.fabricBusy then (stBusy, s) else (0, t.remeasure)
  if (s.regRead a).isNone then (stRange, s)
  else if a = 0x10000 then fabric (decide (v.toNat < 0x200)) (s.setFlash a v)
  else if inRegs a 0x10008 4 then fabric true (s.setFlash a v)
  else if a = 0x10028 then fabric (decide (v.toNat < 0x100)) (s.setFlash a v)
  else if a = 0x10038 then
    fabric (decide (v.toNat < 0x10000) && decide (v.toNat % 256 < 64) && decide (v.toNat / 256 < 64)) (s.setFlash a v)
  else if a = 0x10060 then if v.toNat < 0x200 then (0, { s with tracesel := v.extractLsb' 0 9 }) else (stFormat, s)
  else if inRegs a 0x10100 128 then fabric true (s.setFlash a v)
  else if inRegs a 0x11000 256 then fabric true (s.setFlash a v)
  else if inRegs a 0x12000 64 then
    let k := (a - 0x12000) % 32 / 8
    if (k = 0 && decide (0x1000000 ≤ v.toNat)) || (k = 1 && decide (0x100000000 ≤ v.toNat)) then (stFormat, s)
    else if s.ctxBusy (BitVec.ofNat 4 ((a - 0x12000) / 32)) then (stBusy, s)
    else (0, s.setFlash a v)
  else if inRegs a 0x100000 65536 then (0, s.setFlash a (v &&& 0x80FF80FF80FF80FF#64))
  else (stFormat, s)

/-- The fields of a QUERY body (R385). -/
def queryAddr (b : List Byte) : Nat := recField b 0 4
def queryWrite (b : List Byte) : Bool := recField b 4 4 % 2 == 1
def queryValue (b : List Byte) : Word := BitVec.ofNat 64 (recField b 8 8)

/-- Serve a QUERY that `want` accepts: a write's status and state, then the register's value. -/
def State.serveQuery (s : State) (want : List Byte → Bool) (go : State → List Byte → Nat × State) : State :=
  s.serve (fun t b => t == 0x33#8 && want b) (fun b => b.length == 16) fun s1 r =>
    let x := go s1 r.body
    if x.1 ≠ 0 then s1.reply r.session r.seq x.1 []
    else match x.2.regRead (queryAddr r.body) with
      | none => s1.reply r.session r.seq stRange []
      | some v => x.2.reply r.session r.seq 0 (leBytes 8 v.toNat)

/-- Is the body a write to the register? -/
def writesTo (a : Nat) (b : List Byte) : Bool := queryWrite b && queryAddr b == a

/-- REGISTER_WRITE (R385, R387): every QUERY but writes to RESET, PLANLOAD and the host keys; a read answers with the value. -/
def execRegisterWrite (s : State) : Host.Outcome State Fault Refusal :=
  .next (s.serveQuery (fun b => !writesTo 0x20 b && !writesTo 0x10040 b && !(queryWrite b && inRegs (queryAddr b) 0x1000 32)) fun s1 b =>
    if queryWrite b then s1.regWrite (queryAddr b) (queryValue b) else (0, s1))

/-- Every enrolment session closes once slot 0 is not empty (R389). -/
def State.endEnrolment (s : State) : State :=
  if s.slotEmpty 0 then s else { s with sessions := Maps.filter s.sessions fun _ se => se.phase != .enrolling }

/-- HOSTKEY_WRITE (R385, R389). -/
def execHostkeyWrite (s : State) : Host.Outcome State Fault Refusal :=
  .next (s.serve (fun t b => t == 0x33#8 && queryWrite b && inRegs (queryAddr b) 0x1000 32) (fun b => b.length == 16) fun s1 r =>
    if queryAddr r.body % 8 ≠ 0 then s1.reply r.session r.seq stRange []
    else
      let s2 := (s1.setFlash (queryAddr r.body) (queryValue r.body)).remeasure
      (s2.reply r.session r.seq 0 (leBytes 8 (queryValue r.body).toNat)).endEnrolment)

/-! ### Plans (R296, R297) -/

/-- The first register of staged plan `n`. -/
def stagedBase (n : Nat) : Nat := 0x100000 + 0x8000 * n

/-- The modules of the domain, in order. -/
def State.members (s : State) : List (BitVec 8) := ((List.range 256).filter s.domain.getLsbD).map (BitVec.ofNat 8)

/-- The entries of staged plan `n` that are not zero, by `64 m + k`. -/
def State.stagedPlan (s : State) (n : Nat) : FMap (BitVec 16) :=
  s.flash.flatMap fun p =>
    if inRegs p.1 (stagedBase n) 4096 then
      (List.range 4).filterMap fun j =>
        let e : BitVec 16 := p.2.extractLsb' (16 * j) 16 &&& 0x80FF#16
        if e = 0 then none else some ((p.1 - stagedBase n) / 2 + j, e)
    else []

/-- Plan `n` taken from its staged contents. -/
def State.takePlan (s : State) (n : Nat) : State := { s with plans := Maps.put s.plans n (s.stagedPlan n) }

/-- Is entry (m, k) of a plan matched by its far end, another module of the domain (R297)? -/
def State.entryOk (s : State) (n : BitVec 4) (ms : List (BitVec 8)) (key : Nat) (e : BitVec 16) : Bool :=
  let m : BitVec 8 := BitVec.ofNat 8 (key / 64)
  let far : BitVec 8 := e.extractLsb' 0 8
  let back := s.planEntry n far (key % 64)
  !e.getLsbD 15 || (far != m && ms.contains m && ms.contains far && back.getLsbD 15 && back.extractLsb' 0 8 == m)

/-- The tests of R297 on a plan in the table. -/
def State.planOk (s : State) (n : BitVec 4) : Bool :=
  let ms := s.members
  ((Maps.getD s.plans n.toNat []).all fun p => s.entryOk n ms p.1 p.2)
  && ms.all fun m => let r := s.reach n 4 [m] [m]; ms.all r.contains

/-- DIGEST of a loaded plan (R296). -/
def State.planDigest (s : State) (n : BitVec 4) : Option (BitVec 256) :=
  if (Maps.get s.plans n.toNat).isNone then none
  else some (shake32 (s.members.flatMap fun m => (List.range 64).flatMap fun k => leBytes 2 (s.planEntry n m k).toNat))

/-- PLANLOAD_WRITE (R297, R386, R387). -/
def execPlanloadWrite (s : State) : Host.Outcome State Fault Refusal :=
  .next (s.serveQuery (writesTo 0x10040) fun s1 b =>
    let v := queryValue b
    let n : BitVec 4 := v.extractLsb' 0 4
    if 15 < v.toNat then (stFormat, s1)
    else if n = s1.plan then (stBusy, s1)
    else
      let t := s1.takePlan n.toNat
      if t.planOk n then (0, t) else (stFormat, s1))

/-! ### Cold reset (R390) -/

/-- The state after a cold reset: what flash and fuses hold, the units retired before (not those under a test), and what has left the
part. The fabric
registers stored now come into force (R385, R386); a fault of the supply goes on holding the dies in S3 (R15). -/
def State.coldReset (s : State) : State :=
  { State.reset with
    tick := s.tick, schedule := s.schedule, fresh := s.fresh, outbox := s.outbox, flash := s.flash, rollback := s.rollback
    enrolLock := s.enrolLock, supplyOk := s.supplyOk, keepSize := s.keepSize
    dies := State.reset.dies.map fun (d : Die) => if s.supplyOk then d else { d with idle := 3 }
    badClusters := s.badClusters, spareUse := s.spareUse
    fibresUp := s.tests.foldl (fun v t => if t.unit.unit = 9 then v ||| (1#64 <<< UnitId.fibre t.unit) else v) s.fibresUp
    modNo := (s.flashReg moduleReg).extractLsb' 0 8, modSet := (s.flashReg moduleReg).getLsbD 8
    domain := s.flashReg 0x10020 ++ s.flashReg 0x10018 ++ s.flashReg 0x10010 ++ s.flashReg 0x10008
    leader := (s.flashReg 0x10028).extractLsb' 0 8 }

/-- COLD_RESET. -/
def execColdReset (s : State) : Host.Outcome State Fault Refusal := .next s.coldReset

/-- RESET_WRITE (R385, R387): REPLY OK first. -/
def execResetWrite (s : State) : Host.Outcome State Fault Refusal :=
  .next (s.serve (fun t b => t == 0x33#8 && writesTo 0x20 b) (fun b => b.length == 16) fun s1 r =>
    if queryValue r.body = 0x5253 then (s1.reply r.session r.seq 0 (leBytes 8 0)).coldReset
    else s1.reply r.session r.seq stFormat [])

end Sys2Proof.Machine
end

