-- ==== Sys2Proof/Machine/Objects.lean ====
section
/-!
DEFINITION. The objects a host creates: images, graphs, block maps, regions and queue pairs (R23, R24, R31, R32, R40, R42, R45,
R227, R335), the latency tolerance (R362) and the quote (R44).
-/
namespace Sys2Proof.Machine

/-- The first status of R41, in table order, whose cause applies. -/
def firstStatus (l : List (Bool × Nat)) : Nat := ((l.find? Prod.fst).map Prod.snd).getD stOk

/-- Are the bytes `[o, o + n)` all zero? -/
def zeroBytes (b : List Byte) (o n : Nat) : Bool := ((b.drop o).take n).all (· == 0)

/-! ### Images (R23, R24) -/

/-- Fields of an image header. -/
def Image.codesz (b : List Byte) : Nat := recField b 0x08 4
def Image.database (b : List Byte) : Nat := recField b 0x0C 4
def Image.datasz (b : List Byte) : Nat := recField b 0x10 4
def Image.zerosz (b : List Byte) : Nat := recField b 0x14 4
def Image.trapbase (b : List Byte) : Nat := recField b 0x18 4
def Image.nentry (b : List Byte) : Nat := recField b 0x1C 2
def Image.novl (b : List Byte) : Nat := recField b 0x1E 2
def Image.entryoff (b : List Byte) : Nat := recField b 0x20 4
def Image.ovloff (b : List Byte) : Nat := recField b 0x24 4
def Image.filesz (b : List Byte) : Nat := recField b 0x28 4
def Image.codeoff (b : List Byte) : Nat := recField b 0x2C 4
/-- The elements of a table of `n` elements of `size` bytes from offset `o` that lie in the file. -/
def Image.elements (b : List Byte) (o n size : Nat) : List (List Byte) :=
  (List.range (min n ((b.length - o) / size))).map fun k => (b.drop (o + size * k)).take size
/-- The entry table's elements that lie in the file: address and reserved word. -/
def Image.entries (b : List Byte) : List (Nat × Nat) :=
  (Image.elements b (Image.entryoff b) (Image.nentry b) 8).map fun e => (recField e 0 4, recField e 4 4)
/-- The overlay table's elements that lie in the file: file offset, length, load address, reserved word. -/
def Image.overlays (b : List Byte) : List (Nat × Nat × Nat × Nat) :=
  (Image.elements b (Image.ovloff b) (Image.novl b) 16).map fun e => (recField e 0 4, recField e 4 4, recField e 8 4, recField e 12 4)
/-- The entry address of entry `n` (R23). -/
def Image.entry (b : List Byte) (n : Nat) : BitVec 32 := BitVec.ofNat 32 (recField b (Image.entryoff b + 8 * n) 4)

/-- FORMAT: a wrong header, a reserved field, a broken alignment. -/
def Image.badFormat (b : List Byte) : Bool :=
  recField b 0 4 != 0x4F44494D || recField b 4 2 != 1 || !zeroBytes b 0x30 0x10
    || Image.codesz b % 16 != 0 || Image.database b % 16 != 0 || Image.datasz b % 8 != 0 || Image.zerosz b % 8 != 0
    || Image.trapbase b % 16 != 0 || Image.entryoff b % 8 != 0 || (Image.novl b != 0 && Image.ovloff b % 16 != 0)
    || Image.codeoff b % 16 != 0
    || (Image.entries b).any (fun e => e.1 % 4 != 0 || e.2 != 0)
    || (Image.overlays b).any (fun e => e.2.1 % 4 != 0 || e.2.2.1 % 4 != 0 || e.2.2.2 != 0)
/-- RANGE: a size, count or address outside its limits. -/
def Image.badRange (b : List Byte) : Bool :=
  let n := recField b 6 2
  n == 0 || n == 0xFFFF || Image.nentry b == 0 || decide (256 < Image.nentry b) || decide (256 < Image.novl b)
    || decide (Image.database b < Image.codesz b) || decide (0x8000 < Image.database b + Image.datasz b + Image.zerosz b)
    || decide (Image.codesz b < Image.trapbase b + 512)
    || (Image.entries b).any (fun e => decide (Image.codesz b ≤ e.1))
    || (Image.overlays b).any (fun e => decide (Image.database b < e.2.2.1 + e.2.1) || decide (Image.filesz b < e.1 + e.2.1))
    || decide (Image.filesz b < Image.entryoff b + 8 * Image.nentry b)
    || (Image.novl b != 0 && decide (Image.filesz b < Image.ovloff b + 16 * Image.novl b))
    || decide (Image.filesz b < Image.codeoff b + Image.codesz b + Image.datasz b)

/-- Bytes that an installed graph takes (R31). -/
def Graph.bytes (g : Graph) : Nat := 64 + 192 * g.nodes.length + (2 * g.images.length + 7) / 8 * 8
/-- Has the Keep room for `n` more bytes of images and graphs (R41; log entry 29)? -/
def State.keepRoom (s : State) (n : Nat) : Bool :=
  decide ((s.images.map fun p => p.2.length).sum + (s.graphs.map fun p => Graph.bytes p.2).sum + n ≤ s.keepSize)

/-- IMAGE_LOAD (R24, R41): a body whose length differs from FILESZ is MALFORMED. -/
def execImageLoad (s : State) : Host.Outcome State Fault Refusal :=
  .next (s.serve (fun t _ => t == 0x10#8) (fun b => decide (64 ≤ b.length) && b.length == Image.filesz b) fun s1 r =>
    let n := recField r.body 6 2
    let st := firstStatus [(Image.badFormat r.body, stFormat), (Image.badRange r.body, stRange),
      ((Maps.get s1.images n).isSome, stDuplicate), (!s1.keepRoom r.body.length, stNospace)]
    if st = 0 then { s1 with images := Maps.put s1.images n r.body }.reply r.session r.seq 0 (leBytes 2 n)
    else s1.reply r.session r.seq st [])

/-- Does an instance run of a graph that satisfies `p`? -/
def State.runs (s : State) (p : BitVec 16 → Graph → Bool) : Bool :=
  s.instances.any fun q => match Maps.get s.graphs q.2.graph.toNat with | none => false | some g => p q.2.graph g

/-- IMAGE_UNLOAD (R45). -/
def execImageUnload (s : State) : Host.Outcome State Fault Refusal :=
  .next (s.serveWith 0x11 2 fun s1 b =>
    let n := recField b 0 2
    let st := firstStatus [(n == 0 || n == 0xFFFF, stRange), ((Maps.get s1.images n).isNone, stAbsent),
      (s1.runs fun _ g => g.images.contains (BitVec.ofNat 16 n), stBusy)]
    (st, [], if st = 0 then { s1 with images := Maps.del s1.images n } else s1))

/-! ### Graphs (R26 to R32) -/

/-- Length of a graph file (R31). -/
def Graph.size (b : List Byte) : Nat := 0x40 + 192 * recField b 8 2 + (2 * recField b 0xA 2 + 7) / 8 * 8
/-- Its node records. -/
def Graph.records (b : List Byte) : List NodeRec := (List.range (recField b 8 2)).map fun k => (b.drop (0x40 + 192 * k)).take 192
/-- Its image list. -/
def Graph.list (b : List Byte) : List (BitVec 16) :=
  (List.range (recField b 0xA 2)).map fun k => BitVec.ofNat 16 (recField b (0x40 + 192 * recField b 8 2 + 2 * k) 2)

/-- Reserved bits of a descriptor (R28). -/
def RangeDesc.reserved (d : RangeDesc) : Bool := d.extractLsb' 29 11 != 0 || d.extractLsb' 6 10 != 0
/-- FORMAT of a descriptor; `out` for outputs and DONE. -/
def RangeDesc.badFormat (d : RangeDesc) (out : Bool) : Bool :=
  if !RangeDesc.valid d then d != 0 else RangeDesc.reserved d || (out && (RangeDesc.unwatched d || RangeDesc.lastUse d))
/-- COUNT outside 1 to 4,096. -/
def RangeDesc.badCount (d : RangeDesc) : Bool := RangeDesc.valid d && (RangeDesc.count d == 0 || decide (4096 < RangeDesc.count d))
/-- The AFFV bits that AFFK names (R27). -/
def affvMask (k : BitVec 2) : BitVec 14 :=
  match k.toNat with
  | 0 => 0
  | 2 => 0x1FF
  | _ => 7

/-- FORMAT of a node record, within a graph that lists `images`. -/
def NodeRec.badFormat (n : NodeRec) (images : List (BitVec 16)) : Bool :=
  let c := NodeRec.control n
  !zeroBytes n 0x10 0x30 || c.getLsbD 3 || c.getLsbD 7 || c.getLsbD 11 || (NodeRec.affv n &&& ~~~(affvMask (NodeRec.affk n))) != 0
    || decide (4 < (NodeRec.steal n).toNat) || decide (4 < (NodeRec.win n).toNat) || decide (8 < NodeRec.tiles n)
    || (NodeRec.descs n).any (fun d => RangeDesc.badFormat d.1 d.2)
    || (NodeRec.done n != 0 && RangeDesc.count (NodeRec.done n) != 1)
    || !images.contains (NodeRec.image n)
/-- RANGE of a node record: counts, AFFK 3 on an input that is not valid, ENTRY at or above NENTRY. -/
def NodeRec.badRange (n : NodeRec) (loaded : FMap (List Byte)) : Bool :=
  (NodeRec.descs n).any (fun d => RangeDesc.badCount d.1)
    || (NodeRec.affk n == 3 && !RangeDesc.valid (NodeRec.inp n ((NodeRec.affv n).extractLsb' 0 3).toNat))
    || (match Maps.get loaded (NodeRec.image n).toNat with
        | none => false
        | some i => decide (Image.nentry i ≤ NodeRec.entry n))

/-- GRAPH_INSTALL (R31, R32, R41). Padding that is not zero is a reserved field (log entry 84). -/
def execGraphInstall (s : State) : Host.Outcome State Fault Refusal :=
  .next (s.serve (fun t _ => t == 0x12#8) (fun b => decide (64 ≤ b.length) && b.length == Graph.size b) fun s1 r =>
    let b := r.body
    let n := recField b 6 2
    let recs := Graph.records b
    let imgs := Graph.list b
    let tail := 0x40 + 192 * recField b 8 2 + 2 * recField b 0xA 2
    let st := firstStatus
      [(recField b 0 4 != 0x4F444750 || recField b 4 2 != 1 || !zeroBytes b 0xC 0x34 || !zeroBytes b tail 8
          || recs.any (fun x => NodeRec.badFormat x imgs), stFormat),
       (n == 0 || n == 0xFFFF || recs.isEmpty || decide (4096 < recs.length) || imgs.isEmpty || decide (64 < imgs.length)
          || imgs.any (fun i => i == 0 || i == 0xFFFF) || recs.any (fun x => NodeRec.badRange x s1.images), stRange),
       ((Maps.get s1.graphs n).isSome, stDuplicate),
       (imgs.any (fun i => (Maps.get s1.images i.toNat).isNone), stAbsent), (!s1.keepRoom b.length, stNospace)]
    if st = 0 then { s1 with graphs := Maps.put s1.graphs n { nodes := recs, images := imgs } }.reply r.session r.seq 0 (leBytes 2 n)
    else s1.reply r.session r.seq st [])

/-- GRAPH_REMOVE (R45). -/
def execGraphRemove (s : State) : Host.Outcome State Fault Refusal :=
  .next (s.serveWith 0x13 2 fun s1 b =>
    let n := recField b 0 2
    let st := firstStatus [(n == 0 || n == 0xFFFF, stRange), ((Maps.get s1.graphs n).isNone, stAbsent),
      (s1.runs fun k _ => k.toNat == n, stBusy)]
    (st, [], if st = 0 then { s1 with graphs := Maps.del s1.graphs n } else s1))

/-! ### Block maps (R42, R227, R335) -/

/-- Where the tables stand (log entry 6): level 1 from TTBASE, then one level-2 table for each of its entries, all on the stack
that TTBASE names. -/
def State.tableStack (s : State) : BitVec 5 := s.ttbase.extractLsb' 0 5
/-- The 4 KiB unit of the level-2 table of entry `n`. -/
def State.tableUnit (s : State) (n : Nat) : Nat := (s.ttbase.extractLsb' 40 24).toNat * 512 + 1024 + n
/-- Is a frame part of the tables? -/
def State.tableFrame (s : State) (k : BitVec 5) (f : Nat) : Bool :=
  let base := (s.ttbase.extractLsb' 40 24).toNat
  k == s.tableStack && decide (base ≤ f) && decide (f < base + 1026)
/-- Is a frame part of what the Keep reserves at bring-up, the save pool and the spill and overflow areas, which no mapping reaches:
the last 64 of every stack (R58, R200, R265, R275, R321; log entry 6)? -/
def reservedFrame (f : Nat) : Bool := decide (32704 ≤ f)
/-- Key of a frame in the list of frames in use. -/
def frameKey (k : BitVec 5) (f : Nat) : Nat := k.toNat * 32768 + f

/-- Write an entry of a table, an access of HBM. -/
def State.writeEntry (s : State) (a : Nat) (e : Word) : State := { s.touchHbm a with hbm := Mem.setBytes s.hbm a (leBytes 8 e.toNat) }
/-- The pointer to a level-2 table. -/
def State.pointerEntry (s : State) (vbn : BitVec 37) : Word :=
  1#1 ++ 0#1 ++ 0#4 ++ s.modNo ++ s.tableStack ++ 0#21 ++ BitVec.ofNat 24 (s.tableUnit (vbn.toNat >>> 18))
/-- A level-2 leaf on this module. -/
def State.leafEntry (s : State) (perm : BitVec 4) (k : BitVec 5) (f : BitVec 15) : Word :=
  1#1 ++ 1#1 ++ perm ++ s.modNo ++ k ++ 0#21 ++ f.zeroExtend 24
/-- The HBM address of the level-2 entry of a VBN, when a table covers it. -/
def State.l2Addr (s : State) (vbn : BitVec 37) : Option Nat :=
  let e := s.hbmWord (s.l1Addr vbn)
  if Pte.valid e && !Pte.leaf e then some (hbmAddr (Pte.stack e).toNat ((Pte.frame e).toNat * 4096 + 8 * ((vbn.toNat >>> 9) % 512)))
  else none

/-- The blocks `[blk, blk + 512)` leave every store: residents, logs and fills. -/
def State.dropFrames (s : State) (blk : Nat) : State :=
  let out : Nat → Bool := fun k => decide (k < blk) || decide (blk + 512 ≤ k)
  { s with clusters := Maps.map s.clusters fun _ c =>
      { c with res := Maps.filter c.res fun k _ => out k, logs := Maps.filter c.logs fun k _ => out k,
               fills := Maps.filter c.fills fun k _ => out k } }
/-- Presence word 0, generation 0 and the mapping defaults for the 512 blocks of a frame (R42, R196, R335): the die that drives the stack
leaves its idle state (R363), and each block's row is accessed (R377). -/
def State.clearFrame (s : State) (k : BitVec 5) (f : Nat) : State :=
  let blk := k.toNat * 2 ^ 24 + f * 512
  let out : Nat → Bool := fun b => decide (b < blk) || decide (blk + 512 ≤ b)
  let s1 := ((s.rouse (s.driver k)).activateRange blk 512).dropFrames blk
  { s1 with clusters := Maps.map s1.clusters fun _ c => { c with pcache := Maps.filter c.pcache fun b _ => out b }
            hbmMeta := Maps.filter s1.hbmMeta (fun a _ => out (a / 64)), poison := s1.poison.filter out
            lastWr := Maps.filter s1.lastWr (fun b _ => out b), badLines := s1.badLines.filter fun a => out (a / 64) || decide (37 < a % 64) }

/-- Install the leaf of an extent whose level-2 table stands. -/
def State.installLeaf (s : State) (a : Nat) (e : Word) : State :=
  let k := Pte.stack e
  let f := (Pte.frame e).toNat
  let s1 := (s.clearFrame k f).writeEntry a e
  { s1 with usedFrames := s1.usedFrames ++ [frameKey k f] }

/-- The level-2 table of a VBN is made when there is none (R227). -/
def State.withTable (s : State) (vbn : BitVec 37) : State :=
  match s.l2Addr vbn with
  | some _ => s
  | none => s.writeEntry (s.l1Addr vbn) (s.pointerEntry vbn)
/-- Map one extent of this module. -/
def State.installExtent (s : State) (vbn : BitVec 37) (e : Word) : State :=
  let s1 := s.withTable vbn
  match s1.l2Addr vbn with
  | none => s1
  | some a => s1.installLeaf a e
/-- Enter an extent of another module: its frame is not here. -/
def State.putEntry (s : State) (vbn : BitVec 37) (e : Word) : State :=
  let s1 := s.withTable vbn
  match s1.l2Addr vbn with
  | none => s1
  | some a => s1.writeEntry a e

/-- May the Keep take these frames: free, outside the tables and the reserved areas, no two the same? -/
def State.framesFree (s : State) (fs : List (BitVec 5 × BitVec 15)) : Bool :=
  (fs.all fun f => s.stackUp f.1.toNat && !s.tableFrame f.1 f.2.toNat && !reservedFrame f.2.toNat
      && !s.usedFrames.contains (frameKey f.1 f.2.toNat))
    && decide (fs.Nodup)

/-- The free frames of a stack. -/
def State.freeFrames (s : State) (k : Nat) : Nat :=
  let used := s.usedFrames.eraseDups.filter fun f =>
    f / 32768 == k && !s.tableFrame (BitVec.ofNat 5 k) (f % 32768) && !reservedFrame (f % 32768)
  if s.stackUp k then 32704 - (if k = s.tableStack.toNat then 1026 else 0) - used.length else 0

/-- Is there room for a map of `n` extents: in the named stack, or over all in turn, of which some take one more than others (R42)? -/
def State.mapRoom (s : State) (place n : Nat) : Bool :=
  if place = 255 then
    let ks := s.stacksUp
    let even := n / ks.length
    (ks.all fun k => decide (even ≤ s.freeFrames k)) && decide (n % ks.length ≤ (ks.filter fun k => decide (even < s.freeFrames k)).length)
  else decide (n ≤ s.freeFrames place)

/-- Within any run of `n` consecutive extents no two stand in one stack (R42). -/
def spreadOk (n : Nat) (ks : List (BitVec 5)) : Bool :=
  match ks with
  | [] => true
  | k :: r => !(r.take (n - 1)).contains k && spreadOk n r

/-- The first VBNs of the extents of a map. -/
def extentVbns (first count : Nat) : List (BitVec 37) := (List.range count).map fun i => BitVec.ofNat 37 (first + 512 * i)

/-- Fields of a BLOCK_MAP body (log entry 24). -/
def mapFirst (b : List Byte) : Nat := recField b 0 8
def mapCount (b : List Byte) : Nat := recField b 8 4
/-- FORMAT and RANGE of first VBN and extent count (R41, R42). -/
def badExtents (first count : Nat) : List (Bool × Nat) :=
  [(first % 512 != 0, stFormat), (count == 0 || decide (65536 < count) || decide (2 ^ 37 < first + 512 * count), stRange)]

/-- An extent of this module enters, or with a zero entry leaves, the tables of the other modules (R227). -/
def State.tellExtent (s : State) (vbn : BitVec 37) (e : Word) : State :=
  s.others.foldl (fun t m => t.emit (.domainMsg m (.extent vbn e))) s
/-- What the other modules are to enter of these extents. -/
def State.toldOf (s : State) (vbns : List (BitVec 37)) : List (BitVec 8 × BitVec 37) := s.others.flatMap fun m => vbns.map fun v => (m, v)
/-- Module `frm` has entered what it was told of an extent: the BLOCK_MAP or BLOCK_UNMAP that told it is answered after the last (R43, R227;
log entry 36). -/
def State.extentEntered (s : State) (frm : BitVec 8) (vbn : BitVec 37) : State :=
  { s with keepWait := s.keepWait.map fun (w : KeepWait) => { w with told := w.told.erase (frm, vbn) } }.settleWait

/-- The entry of another module's extent in this module's table: put there, or with a zero entry taken out (R227, R230). -/
def State.enterExtent (s : State) (vbn : BitVec 37) (e : Word) : State :=
  match s.walk vbn with
  | some (old, false) =>
    (match s.l2Addr vbn with
     | some a => if Pte.module old == s.modNo then s else (s.writeEntry a e).shootdown (some vbn)
     | none => s)
  | some (_, true) => s
  | none => if e = 0 then s else s.putEntry vbn e
/-- Module `frm` has told of an extent: its entry is put or taken out, and `frm` is told that it stands so (R227; log entry 36). -/
def State.peerExtent (s : State) (frm : BitVec 8) (vbn : BitVec 37) (e : Word) : State :=
  if frm = s.modNo || vbn.toNat % 512 ≠ 0 || (e != 0 && !(Pte.valid e && Pte.leaf e && Pte.module e == frm)) then s
  else (s.enterExtent vbn e).emit (.domainMsg frm (.extentEntered vbn))

/-- BLOCK_MAP: the Keep's choice of frames is the event's. The placement is the number of a stack, four to a die, or 255 for interleave
(log entry 24). REPLY OK follows once every other module's table holds the extents (log entry 36). -/
def execBlockMap (frames : List (BitVec 5 × BitVec 15)) (s : State) : Host.Outcome State Fault Refusal :=
  let t := s.serve (fun t _ => t == 0x20#8) (fun b => b.length == 14) fun s1 r =>
    let b := r.body
    let perm := recField b 12 1
    let place := recField b 13 1
    let vbns := extentVbns (mapFirst b) (mapCount b)
    let st := firstStatus ((decide (15 < perm), stFormat) :: badExtents (mapFirst b) (mapCount b) ++
      [(decide (31 < place) && place != 255 || (decide (place < 32) && !s1.stackUp place), stRange),
       (vbns.any (fun v => (s1.walk v).isSome), stDuplicate), (!s1.mapRoom place vbns.length, stNospace)])
    if st ≠ 0 then s1.reply r.session r.seq st []
    else if frames.length = vbns.length && s1.framesFree frames &&
        (if place = 255 then spreadOk s1.stacksUp.length (frames.map Prod.fst) else frames.all fun f => f.1.toNat == place) then
      ((vbns.zip frames).foldl (fun u x =>
        let e := u.leafEntry (BitVec.ofNat 4 perm) x.2.1 x.2.2
        (u.installExtent x.1 e).tellExtent x.1 e) s1).oweReply r.session r.seq [] (s1.toldOf vbns)
    else s
  .next t

/-- The blocks that the ranges of an instance name in space 0: first VBN and count. -/
def State.named (s : State) (i : Instance) : List (Nat × Nat) :=
  match Maps.get s.graphs i.graph.toNat with
  | none => []
  | some g => g.nodes.flatMap fun n =>
      ((NodeRec.descs n).filter fun d => RangeDesc.valid d.1).filterMap fun d =>
        let h := RangeDesc.handle d.1 i.args 0
        if Handle.space h == 0#3 then some ((Handle.vbn h).toNat, RangeDesc.count d.1) else none

/-- Do two ranges of VBNs meet? -/
def rangesMeet (a n b m : Nat) : Bool := decide (a < b + m) && decide (b < a + n)

/-- The frame of a mapped extent of this module. -/
def State.extentFrame (s : State) (vbn : BitVec 37) : Option (BitVec 5 × Nat) :=
  match s.walk vbn with
  | some (e, false) => if Pte.module e == s.modNo then some (Pte.stack e, (Pte.frame e).toNat) else none
  | _ => none

/-- Unmap one extent: entry, frame, store contents and translations, here and in the tables of the other modules (R227, R230). Copies
go only by being evicted (R225). -/
def State.removeExtent (s : State) (vbn : BitVec 37) : State :=
  match s.extentFrame vbn, s.l2Addr vbn with
  | some (k, f), some a =>
    let s1 := ((s.writeEntry a 0).dropFrames (k.toNat * 2 ^ 24 + f * 512)).shootdown (some vbn)
    { s1 with usedFrames := s1.usedFrames.filter (· != frameKey k f) }.tellExtent vbn 0
  | _, _ => s

/-- BLOCK_UNMAP (R45), answered as BLOCK_MAP is. -/
def execBlockUnmap (s : State) : Host.Outcome State Fault Refusal :=
  .next (s.serve (fun t _ => t == 0x21#8) (fun b => b.length == 12) fun s1 r =>
    let b := r.body
    let first := mapFirst b
    let n := 512 * mapCount b
    let vbns := extentVbns first (mapCount b)
    let st := firstStatus (badExtents first (mapCount b) ++
      [(vbns.any (fun v => (s1.extentFrame v).isNone), stAbsent),
       (s1.instances.any (fun p => (s1.named p.2).any fun q => rangesMeet first n q.1 q.2)
          || s1.regions.any (fun p => rangesMeet first n p.2.first p.2.count), stBusy)])
    if st ≠ 0 then s1.reply r.session r.seq st []
    else (vbns.foldl (fun t v => t.removeExtent v) s1).oweReply r.session r.seq [] (s1.toldOf vbns))

/-- MAPB (R335): the status goes to gD; the other modules are told. -/
def execMapb (f : Form) (rd ra rb : BitVec 4) (s : State) : Host.Outcome State Fault Refusal :=
  s.issue f.gd f.len fun r st => s.privilegedOnly r st
    (let v := st.reg ra
     let e := st.reg rb
     let vbn : BitVec 37 := v.extractLsb' 0 37
     let done : State → Nat → State := fun t c => t.updStrand r fun st => (st.setReg rd (BitVec.ofNat 64 c)).next f.len
     if v.toNat % 512 != 0 || decide (2 ^ 37 ≤ v.toNat) || !Pte.valid e || !Pte.leaf e || decide (32767 < (Pte.frame e).toNat)
         || reservedFrame (Pte.frame e).toNat || Pte.module e != s.modNo then done s stRange
     else if (s.walk vbn).isSome then done s stDuplicate
     else match s.l2Addr vbn with
       | none => done s stAbsent
       | some a => done ((s.installLeaf a e).tellExtent vbn e) 0)

/-! ### Regions and queue pairs (R34, R40, R45) -/

/-- REGION: first VBN, block count, access. -/
def execRegion (rkey : BitVec 32) (s : State) : Host.Outcome State Fault Refusal :=
  if (Maps.get s.regions rkey.toNat).isSome then .next s
  else .next (s.serveWith 0x22 13 fun s1 b =>
    let first := recField b 0 8
    let n := recField b 8 4
    let acc := recField b 12 1
    let st := firstStatus [(decide (3 < acc), stFormat), (n == 0 || decide (2 ^ 37 < first + n), stRange)]
    (st, leBytes 4 rkey.toNat,
     let g : Region := { first := first, count := n, write := acc.testBit 0, read := acc.testBit 1 }
     if st = 0 then { s1 with regions := Maps.put s1.regions rkey.toNat g } else s1))

/-- QP: the host's GID, QPN, starting PSN and path MTU; the part's GID, QPN and PSN are the reply. -/
def execQp (port : Bool) (qpn psn : BitVec 24) (s : State) : Host.Outcome State Fault Refusal :=
  if (Maps.get s.qps qpn.toNat).isSome then .next s
  else .next (s.serveWith 0x23 26 fun s1 b =>
    let mtu := recField b 24 2
    let st := firstStatus [(recField b 19 1 != 0 || recField b 23 1 != 0, stFormat), (!([1024, 2048, 4096].contains mtu), stRange),
      (decide (1024 ≤ (s1.qps.filter fun p => p.2.port == port).length), stNospace)]
    (st, leBytes 16 (Config.gid port).toNat ++ leBytes 4 qpn.toNat ++ leBytes 4 psn.toNat,
     let host : BitVec 24 := BitVec.ofNat 24 (recField b 20 3)
     let q : QPair := { port := port, mtu := mtu, hostGid := BitVec.ofNat 128 (recField b 0 16), hostQpn := BitVec.ofNat 24 (recField b 16 3),
                        hostPsn := host, startPsn := psn, psn := host, err := false, msgs := [] }
     if st = 0 then { s1 with qps := Maps.put s1.qps qpn.toNat q } else s1))

/-- STALE, DWRITE, POISON and a lost translation refuse a unit or a seal of a host's message (R46). -/
def hostRefused (bits : BitVec 16) : Bool := bits &&& (bDwrite ||| bStale ||| bPoison ||| bXlate) != 0
/-- Is an outcome a refusal? -/
def Reply.refuses (x : Reply) : Bool :=
  match x with
  | .report b _ => hostRefused b
  | _ => false
/-- The outcomes at homes of this module whose answers to a host's message are still on their way (R263). -/
def State.hostOutcomes (s : State) (q : QPair) (n : BitVec 24) (m : HostMsg) : List Reply :=
  ((Maps.getD s.units (unitPort q.port) []).filter fun o => o.asker == .host n m.id).filterMap fun o =>
    match o.place with
    | .dom cl _ => s.seen cl o
    | _ => none
/-- Is a host's message partly applied: a unit has taken effect at its home, and a unit or its seal is still to come there (R45, R263;
log entry 26)? -/
def State.partly (s : State) (q : QPair) (n : BitVec 24) (m : HostMsg) : Bool :=
  let l := s.hostOutcomes q n m
  m.read.isNone && (decide (0 < m.applied) || l.any fun x => !Reply.refuses x)
    && (decide (l.length < m.left) || (m.sealDue.isSome && !m.bad && !l.any Reply.refuses))

/-- QP_DESTROY (R45). -/
def execQpDestroy (s : State) : Host.Outcome State Fault Refusal :=
  .next (s.serveWith 0x24 4 fun s1 b =>
    let n := recField b 0 4
    match Maps.get s1.qps n with
    | none => (stAbsent, [], s1)
    | some q =>
      if q.msgs.any fun m => s1.partly q (BitVec.ofNat 24 n) m then (stBusy, [], s1) else (0, [], { s1 with qps := Maps.del s1.qps n }))

/-! ### Latency and quote (R44, R362, R363) -/

/-- Exit latency of a state in µs, S1 rounded up. -/
def exitLatency (st : Nat) : Nat :=
  match st with
  | 0 => 0
  | 1 => 1
  | 2 => 10
  | 3 => 300
  | _ => 20000

/-- A die takes a tolerance; it leaves at once a state that is too deep for it (R363), but not what a fault of the supply holds it in
(R15). -/
def State.setTol (s : State) (d : BitVec 3) (t : BitVec 32) : State :=
  let s1 := { s with dieTol := s.dieTol.set d.toNat t d.isLt }
  let s2 := if decide (t.toNat < exitLatency (s1.die d).idle.toNat) then s1.rouse d else s1
  if t.toNat < 1 then { s2 with idleCores := s2.idleCores.filter fun k => decide (k / 1024 ≠ d.toNat) } else s2

/-- LATENCY. -/
def execLatency (s : State) : Host.Outcome State Fault Refusal :=
  .next (s.serveWith 0x32 8 fun s1 b =>
    let d := recField b 0 1
    let t := BitVec.ofNat 32 (recField b 4 4)
    if !zeroBytes b 1 3 then (stFormat, [], s1)
    else if d < 8 then (0, [], s1.setTol (BitVec.ofNat 3 d) t)
    else if d = 0xFE then (0, [], { s1 with modTol := t, modState := if t.toNat < 20000 then 0 else s1.modState })
    else if d = 0xFF then (0, [], allDies.foldl (fun u k => u.setTol k t) s1)
    else (stRange, [], s1))

/-- What a quote holds before its signature (R44). -/
def State.quoted (s : State) (nonce : List Byte) : List Byte :=
  nonce ++ (s.measure.toList.take 7).flatMap (fun m => leBytes 32 m.toNat) ++ leBytes 8 s.capacity.toNat ++ leBytes 64 Config.attKey.toNat
    ++ Config.endorsement ++ leBytes 64 Config.idKey.toNat ++ leBytes Config.certLen.val Config.cert.toNat

/-- QUOTE. -/
def execQuote (s : State) : Host.Outcome State Fault Refusal :=
  .next (s.serveWith 0x34 32 fun s1 b => (0, s1.quoted b ++ Config.quoteSignature (s1.quoted b), s1))

end Sys2Proof.Machine
end

