-- ==== Sys2Proof/Machine/Run.lean ====
section
/-!
DEFINITION. Starting and ending instances: RUN, SPAWN and the host's QUENCH (R33, R48, R50, R52, R53, R280, R323).
-/
namespace Sys2Proof.Machine

/-! ### The checks of a run (R33, R41, R54) -/

/-- Does a range carry out of bit 48, or leave the slot field in space 1? -/
def RangeDesc.overruns (d : RangeDesc) (args : Vector Word 8) : Bool :=
  let h := args[RangeDesc.arg d]?.getD nullHandle
  let last := RangeDesc.boff d + RangeDesc.count d - 1
  decide (2 ^ 37 ≤ (Handle.vbn h).toNat + last)
    || (Handle.space h == 1#3 && decide (511 < (h.extractLsb' 12 9).toNat + last))
/-- Is the argument of a range null or in a reserved space? -/
def RangeDesc.badArg (d : RangeDesc) (args : Vector Word 8) : Bool :=
  decide (1 < (Handle.space (args[RangeDesc.arg d]?.getD nullHandle)).toNat)
/-- Has every watched block a home? A null or reserved argument is another cause. -/
def State.watchable (s : State) (g : Graph) (args : Vector Word 8) : Bool :=
  g.nodes.all fun n => (NodeRec.watched n).all fun d =>
    RangeDesc.badArg d args || (RangeDesc.handles d args).all fun h => (s.placeOf h permR).isSome

/-- The status of a run (R33, R41). A RUN whose halfword at 0x02 is not zero is refused with FORMAT, as R48 with R41 says of its reserved
fields, though R3 lets the part ignore reserved fields of a message: the model's choice between the two (log entry 24). -/
def State.runStatus (s : State) (reserved : Bool) (graph : Nat) (args : Vector Word 8) : Nat :=
  let g := Maps.get s.graphs graph
  firstStatus
    [(reserved, stFormat),
     (graph == 0 || graph == 0xFFFF || (match g with | none => false | some g => g.ranges.any fun d => RangeDesc.overruns d args), stRange),
     ((match g with | none => true | some g => (g.images.any fun i => (Maps.get s.images i.toNat).isNone) || !s.watchable g args), stAbsent),
     ((match g with | none => false | some g => decide (1048576 < s.nodes.length + g.nodes.length)), stNospace),
     ((match g with | none => false | some g => g.ranges.any fun d => RangeDesc.badArg d args), stArgument)]

/-! ### Owners and ready queues (R52, R53) -/

/-- The die at place `i` of those in service, taken in turn. -/
def State.dieInTurn (s : State) (i : Nat) : BitVec 3 :=
  let l := allDies.filter fun d => (s.die d).alive
  l.getD (i % l.length) 0#3

/-- The die that homes a block, when its place is known and on this module. -/
def State.homeDie (s : State) (h : Word) : Option (BitVec 3) :=
  if Handle.space h == 1#3 then
    if h.extractLsb' 30 8 == s.modNo then some (clusterDie (Handle.cluster h)) else none
  else match s.placeOf h permR with
    | some (.dom c _) => some (clusterDie c)
    | _ => none

/-- The owner Belfry of node `i` (R53). -/
def State.ownerOf (s : State) (n : NodeRec) (i : Nat) (args : Vector Word 8) : BitVec 3 :=
  let named : Option (BitVec 3) :=
    match (NodeRec.affk n).toNat with
    | 0 => none
    | 1 => some ((NodeRec.affv n).extractLsb' 0 3)
    | 2 => some ((NodeRec.affv n).extractLsb' 6 3)
    | _ => s.homeDie (RangeDesc.handle (NodeRec.inp n ((NodeRec.affv n).extractLsb' 0 3).toNat) args 0)
  match named with
  | some d => if (s.die d).alive then d else s.dieInTurn i
  | none => s.dieInTurn i

/-- A node instance joins the tail of the ready queue of its priority at its owner (R52). -/
def State.enqueueReady (s : State) (n : BitVec 32) : State :=
  match s.node n with
  | none => s
  | some nd =>
    match s.nodeRec nd with
    | none => s
    | some (r, _) =>
      let d := s.die nd.owner
      let p := NodeRec.prio r
      let q := d.ready[p.toNat]'(p.isLt)
      (s.setDie nd.owner { d with ready := d.ready.set p.toNat (q ++ [n]) p.isLt }).setNode n { nd with stage := .ready }

/-! ### Starting an instance (R48, R50) -/

/-- The handles that a node watches. -/
def NodeRec.watchHandles (r : NodeRec) (args : Vector Word 8) : List Word := (NodeRec.watched r).flatMap fun d => RangeDesc.handles d args

/-- A node instance of a new instance: owner and missing-input count (R50, steps 1 and 2), and the other modules that it watches blocks
of. -/
def State.addNode (s : State) (inst n : BitVec 32) (i : Nat) (r : NodeRec) (args : Vector Word 8) : State :=
  let owner := s.ownerOf r i args
  let away := ((NodeRec.watchHandles r args).filterMap fun h => match s.placeOf h permR with | some (.off m) => some m | _ => none).eraseDups
  let s1 := (s.rouse owner).setNode n
    { inst := inst, idx := i, owner := owner, missing := NodeRec.missing r, live := 0, skip := 0, stage := .waiting, cluster := none,
      anvil := none, away := away }
  if NodeRec.missing r = 0 then s1.enqueueReady n else s1

/-- The watchers of a node instance, for its owner. -/
def State.watchersOf (s : State) (n : BitVec 32) (r : NodeRec) (args : Vector Word 8) : List (BitVec 32 × BitVec 3 × Word) :=
  match s.node n with
  | none => []
  | some nd => (NodeRec.watchHandles r args).map fun h => (n, nd.owner, h)

/-- The instance with its node instances; the reply waits for the watchers. -/
def State.startInstance (s : State) (x : Starting) (i : Instance) (g : Graph) : State :=
  let s1 := s.setInst x.inst i
  let s2 := (numbered (g.nodes.zip i.nodes)).foldl (fun t q => t.addNode x.inst q.2.2 q.1 q.2.1 i.args) s1
  let t := s2.postWatchers ((g.nodes.zip i.nodes).flatMap fun q => s2.watchersOf q.2 q.1 i.args)
  let y : Starting := { x with left := (g.nodes.map NodeRec.missing).sum, todo := t.2 }
  if y.left = 0 then t.1.started y else { t.1 with starting := some y }

/-- May the Keep give out these numbers: none zero or in use, no two the same (R33)? Number 0xFFFF_FFFF names every instance (R323). -/
def State.numbersFree (s : State) (number : BitVec 32) (nodes : List (BitVec 32)) (n : Nat) : Bool :=
  number != 0 && number != 0xFFFFFFFF#32 && (s.inst number).isNone && (s.ending.all fun e => e.number != number) && nodes.length == n && decide (nodes.Nodup)
    && nodes.all fun k => k != 0 && (s.node k).isNone

/-- The eight handles of an argument table. -/
def argTable (b : List Byte) (o : Nat) : Vector Word 8 := Vector.ofFn fun k : Fin 8 => BitVec.ofNat 64 (recField b (o + 8 * k.val) 8)

/-- RUN. -/
def execRun (number : BitVec 32) (nodes : List (BitVec 32)) (s : State) : Host.Outcome State Fault Refusal :=
  .next (s.serve (fun t _ => t == 0x30#8) (fun b => b.length == 80) fun s1 r =>
    let gn := recField r.body 0 2
    let args := argTable r.body 0x10
    let st := s1.runStatus (recField r.body 2 2 != 0) gn args
    if st ≠ 0 then s1.reply r.session r.seq st []
    else match Maps.get s1.graphs gn with
      | none => s
      | some g =>
        if s1.numbersFree number nodes g.nodes.length then
          s1.startInstance { inst := number, left := 0, session := r.session, seq := r.seq, strand := none }
            { graph := BitVec.ofNat 16 gn, args := args, cookie := BitVec.ofNat 64 (recField r.body 8 8), session := r.session,
              root := number, parent := 0, slice := BitVec.ofNat 32 (recField r.body 4 4), started := s1.tick, nodes := nodes, spawned := 0,
              quenched := false } g
        else s)

/-- SPAWN's gD when it is refused (R280). -/
def spawnRefused (st : Nat) : Word := 1#1 ++ 0#27 ++ BitVec.ofNat 4 st ++ 0#32

/-- The reply of a refused SPAWN. -/
def State.refuseSpawn (s : State) (r st : Nat) : State :=
  let s1 := s.updStrand r fun x =>
    match x.wait with
    | .keep (.spawn f rd _ _) => { (x.setReg rd (spawnRefused st)).next f.len with wait := .run }
    | _ => x
  s1.toHeld r

/-- The instance a strand belongs to. -/
def State.ownInstance (s : State) (r : Nat) : Option (BitVec 32 × Instance) :=
  match s.strand r with
  | none => none
  | some st =>
    match s.node st.node with
    | none => none
    | some nd => (s.inst nd.inst).map fun i => (nd.inst, i)

/-- SPAWN_SERVICE (R43, R280): a RUN without a time slice; the instance belongs to the root, with its session and cookie. -/
def execSpawnService (number : BitVec 32) (nodes : List (BitVec 32)) (s : State) : Host.Outcome State Fault Refusal :=
  match s.keepNext with
  | .spawn r graph l :: q =>
    let s1 := { s with keepq := q }
    let args : Vector Word 8 := Vector.ofFn fun k : Fin 8 => l.getD k.val nullHandle
    let st := s1.runStatus false graph.toNat args
    if st ≠ 0 then .next (s1.refuseSpawn r st)
    else match Maps.get s1.graphs graph.toNat with
      | none => .next s
      | some g =>
        if s1.numbersFree number nodes g.nodes.length then
          let up := s1.ownInstance r
          let root := up.elim number fun x => x.2.root
          let parent := up.elim 0#32 Prod.fst
          let i : Instance :=
            { graph := graph, args := args, cookie := (up.elim 0#64 fun x => x.2.cookie), session := (up.elim 0#32 fun x => x.2.session),
              root := root, parent := parent, slice := 0, started := s1.tick, nodes := nodes, spawned := 0, quenched := false }
          let s2 := match s1.inst parent with
            | none => s1
            | some p => s1.setInst parent { p with spawned := p.spawned + 1 }
          .next (s2.startInstance { inst := number, left := 0, session := 0, seq := 0, strand := some r } i g)
        else .next s
  | _ => .next s

/-! ### QUENCH (R323) -/

/-- What FAULT says of an instance that the host ends. -/
def killed : FaultInfo := { idx := 0xFFFF, node := 0, cause := 20, tpc := 0, tval := 0 }

/-- The instances `l` end, and REPLY OK follows once the last has. -/
def State.quenchAll (s : State) (session seq : BitVec 32) (l : List (BitVec 32)) : State :=
  let t := l.foldl (fun t k => t.endInstance k killed) s
  t.oweReply session seq (l.filter fun n => t.ending.any fun e => e.number == n) []

/-- QUENCH. -/
def execQuench (s : State) : Host.Outcome State Fault Refusal :=
  .next (s.serve (fun t _ => t == 0x31#8) (fun b => b.length == 4) fun s1 r =>
    let n := BitVec.ofNat 32 (recField r.body 0 4)
    if n = 0xFFFFFFFF#32 then
      s1.quenchAll r.session r.seq ((s1.instances.filter fun p => p.2.parent == 0).map fun p => BitVec.ofNat 32 p.1)
    else if (s1.inst n).isNone then s1.reply r.session r.seq stAbsent []
    else s1.quenchAll r.session r.seq [n])

end Sys2Proof.Machine
end

