-- ==== Sys2Proof/Machine/Roce.lean ====
section
/-!
DEFINITION. The host's RDMA (R46, R47): WRITE, WRITE with immediate and READ as responder, and the acknowledgements of
operations (R255). The NAK codes are those of RC transport, and PSNs are counted by message length (log entry 26).
-/
namespace Sys2Proof.Machine

/-! ### Packets (R46, R381, R384) -/

/-- NAK codes of RC transport: PSN sequence, invalid request, remote access, remote operational error. -/
def nakSequence : BitVec 8 := 0x60#8
def nakInvalid : BitVec 8 := 0x61#8
def nakAccess : BitVec 8 := 0x62#8
def nakOperational : BitVec 8 := 0x63#8

/-- The queue pair of a packet: its number and its port. -/
def State.pairOf (s : State) (p : Packet) : Option QPair :=
  match Maps.get s.qps p.qpn.toNat with
  | none => none
  | some q => if q.port == p.port then some q else none
/-- Replace a queue pair. -/
def State.setPair (s : State) (n : BitVec 24) (q : QPair) : State := { s with qps := Maps.put s.qps n.toNat q }
/-- A NAK other than for a sequence error: the pair goes to its error state. -/
def State.nak (s : State) (n psn : BitVec 24) (q : QPair) (code : BitVec 8) : State :=
  (s.setPair n { q with err := true }).emit (.roceNak n psn code)
/-- PSNs that a message of `len` bytes takes. -/
def QPair.packets (q : QPair) (len : Nat) : BitVec 24 := BitVec.ofNat 24 (max 1 ((len + q.mtu - 1) / max 1 q.mtu))

/-- A packet reaches its pair: nothing before READY but a NAK, nothing for an unknown pair or in the error state; a repetition of
what was acknowledged is acknowledged again, one of a message that still waits is not answered, a packet ahead of its turn is a sequence
error, whose NAK names the PSN that is due, and `go` has the others. R46 does not say which PSN a NAK carries: the sequence NAK's and, in every
other NAK, the packet's own are the model's choice (log entry 26). -/
def State.roce (s : State) (p : Packet) (go : QPair → State) : State :=
  if !s.ready then (if s.recovery then s else s.emit (.roceNak p.qpn p.psn nakInvalid))
  else match s.pairOf p with
    | none => s
    | some q =>
      if q.err then s
      else if p.psn = q.psn then go q
      else if 0x800000 ≤ (p.psn - q.psn).toNat then
        (if q.msgs.any fun m => decide ((p.psn - m.first).toNat < 0x800000) then s else s.emit (.roceAck p.qpn p.psn))
      else s.emit (.roceNak p.qpn q.psn nakSequence)

/-- Blocks that `len` bytes from `va` touch, first VBN and count; with `atLeast` one although the length is 0. -/
def touched (va : Word) (len : Nat) (atLeast : Bool) : Nat × Nat :=
  let last := (Handle.off va).toNat + len
  ((Handle.vbn va).toNat, if len = 0 then (if atLeast then 1 else 0) else (last + 4095) / 4096)

/-- May the host touch these blocks under the region: SPACE 0, inside the region, the access allowed (R46)? -/
def State.regionOk (s : State) (p : Packet) (len : Nat) (atLeast write : Bool) : Bool :=
  let t := touched p.va len atLeast
  match Maps.get s.regions p.rkey.toNat with
  | none => false
  | some g => Handle.space p.va == 0#3 && (if write then g.write else g.read)
      && (t.2 == 0 || (decide (g.first ≤ t.1) && decide (t.1 + t.2 ≤ g.first + g.count)))


/-- The block that the immediate seals (R46). -/
def sealHandle (va : Word) (len : Nat) : Word := if len = 0 then va else padd49 va (BitVec.ofNat 64 (len - 1))

/-- Send the units of a WRITE, or the reads of a READ, that have not been sent, in order, as far as at most 1,024 operations of the port
stand unacknowledged at one home (R255): what is left, and how many have lost their translation. An operation of a host has the number of
its queue pair for an ordinal (R273). -/
def State.postSome (s : State) (port : Bool) (n : BitVec 24) (id : Nat) (reads : Bool) (l : List (Word × List Byte)) :
    State × List (Word × List Byte) × Nat :=
  match l with
  | [] => (s, [], 0)
  | (h, d) :: r =>
    match s.placeOf h 0#4 with
    | none =>
      let t := s.postSome port n id reads r
      (t.1, t.2.1, t.2.2 + 1)
    | some pl =>
      if s.roomFor (unitPort port) (homeOf pl) 1 then
        (s.sendOp (if reads then .read false else .write (Handle.off h) 8 (Payload.ofBytes d) false) h pl (unitPort port) (.host n id) 0 0#2
          n.toNat 0).postSome port n id reads r
      else (s, (h, d) :: r, 0)

/-- A message of a pair in the error state sends nothing more (R46). -/
def HostMsg.stopped (m : HostMsg) : HostMsg := { m with todo := [], left := m.left - m.todo.length }
/-- The port goes on with the messages of a pair. -/
def State.postMsgs (s : State) (port : Bool) (n : BitVec 24) (l : List HostMsg) : State × List HostMsg :=
  match l with
  | [] => (s, [])
  | m :: r =>
    let t := s.postSome port n m.id m.read.isSome m.todo
    let u := t.1.postMsgs port n r
    (u.1, { m with todo := t.2.1, left := m.left - t.2.2, bad := m.bad || decide (0 < t.2.2) } :: u.2)

/-- The oldest messages of a pair that are READs with all their blocks are answered in order: with the data, or with a NAK when a block
refused (R46, R47). -/
def State.answerReads (s : State) (n : BitVec 24) (q : QPair) (l : List HostMsg) : State :=
  match l with
  | [] => s.setPair n { q with msgs := [] }
  | m :: r =>
    match m.read with
    | none => s.setPair n { q with msgs := m :: r }
    | some (off, len, got) =>
      if m.left != 0 || q.err then s.setPair n { q with msgs := m :: r }
      else if m.bad then s.nak n m.first { q with msgs := r } nakAccess
      else (s.emit (.roceData n m.first (((got.flatMap fun x => Payload.toBytes x.2).drop off).take len))).answerReads n q r

/-- The seal of a WRITE with immediate goes out when the data of its message and every earlier message have taken effect. -/
def State.hostSeal (s : State) (n : BitVec 24) : State :=
  match Maps.get s.qps n.toNat with
  | none => s
  | some q =>
    match q.msgs with
    | [] => s
    | m :: r =>
      match m.sealDue with
      | none => s
      | some (h, x) =>
        if q.err || m.bad || m.left != 0 then s
        else match s.placeOf h 0#4 with
          | none => s.setPair n { q with msgs := { m with bad := true, sealDue := none } :: r }
          | some pl =>
            if s.roomFor (unitPort q.port) (homeOf pl) 1 then
              (s.setPair n { q with msgs := { m with left := 1, sealDue := none } :: r }).sendOp (.seal x) h pl (unitPort q.port)
                (.host n m.id) 0 0#2 n.toNat 0
            else s

/-- What a port can do for a pair: send what is due, answer its READs, seal. -/
def State.servePair (s : State) (n : BitVec 24) : State :=
  match Maps.get s.qps n.toNat with
  | none => s
  | some q =>
    if q.err then s.setPair n { q with msgs := q.msgs.map HostMsg.stopped }
    else
      let t := s.postMsgs q.port n q.msgs
      (t.1.answerReads n q t.2).hostSeal n
/-- The same for every pair: the room that an answer leaves is the port's. -/
def State.servePairs (s : State) : State := s.qps.foldl (fun t q => t.servePair (BitVec.ofNat 24 q.1)) s

/-- The units of a WRITE: their handles and bytes. -/
def hostUnits (va : Word) (data : List Byte) : List (Word × List Byte) :=
  (List.range (data.length / 8)).map fun i => (padd49 va (BitVec.ofNat 64 (8 * i)), (data.drop (8 * i)).take 8)
/-- The blocks of a READ: handles at their first byte. -/
def hostBlocks (va : Word) (len : Nat) : List (Word × List Byte) :=
  (List.range (touched va len false).2).map fun i => (padd49 (Handle.block va) (BitVec.ofNat 64 (4096 * i)), [])

/-- A message is taken in: the PSN goes on, its operations go out, for which the module leaves S4, as their homes may be on other modules
(R363). The region alone has granted the host its access: no permission of the extent is asked for (log entry 26). -/
def State.takeMsg (s : State) (p : Packet) (q : QPair) (len : Nat) (m : HostMsg) : State :=
  ({ s.rouseModule with fresh := s.fresh + 1 }.setPair p.qpn { q with psn := p.psn + q.packets len, msgs := q.msgs ++ [m] }).servePair p.qpn

/-- A WRITE, with its seal if it has one. -/
def State.hostWrite (s : State) (p : Packet) (data : List Byte) (due : Option (Word × Bool)) : State :=
  s.roce p fun q =>
    let us := hostUnits p.va data
    if (Handle.off p.va).toNat % 8 != 0 || data.length % 8 != 0 then s.nak p.qpn p.psn q nakInvalid
    else if !s.regionOk p data.length due.isSome true then s.nak p.qpn p.psn q nakAccess
    else if us.any fun u => (s.placeOf u.1 0#4).isNone then s.nak p.qpn p.psn q nakAccess
    else s.takeMsg p q data.length
      { id := s.fresh, first := p.psn, psn := p.psn + q.packets data.length - 1, left := us.length, applied := 0, bad := false,
        badSeal := false, sealDue := due, todo := us }

/-- ROCE_WRITE. -/
def execRoceWrite (p : Packet) (data : List (BitVec 8)) (s : State) : Host.Outcome State Fault Refusal :=
  .next (s.hostWrite p data none)

/-- ROCE_WRITE_IMM: bits 31:1 of the immediate are zero, bit 0 makes the seal exclusive. -/
def execRoceWriteImm (p : Packet) (data : List (BitVec 8)) (imm : BitVec 32) (s : State) : Host.Outcome State Fault Refusal :=
  if imm.extractLsb' 1 31 != 0 then .next (s.roce p fun q => s.nak p.qpn p.psn q nakInvalid)
  else .next (s.hostWrite p data (some (sealHandle p.va data.length, imm.getLsbD 0)))

/-! ### READ (R46, R47) -/

/-- ROCE_READ: each block is read at its home, here or on another module (R226, R300), which makes it resident and applies its log first
(R244), and the READ is answered in its turn once it has them all. -/
def execRoceRead (p : Packet) (len : Nat) (s : State) : Host.Outcome State Fault Refusal :=
  .next (s.roce p fun q =>
    let bs := hostBlocks p.va len
    if !s.regionOk p len false false then s.nak p.qpn p.psn q nakAccess
    else if bs.any fun u => (s.placeOf u.1 0#4).isNone then s.nak p.qpn p.psn q nakAccess
    else s.takeMsg p q len
      { id := s.fresh, first := p.psn, psn := p.psn + q.packets len - 1, left := bs.length, applied := 0, bad := false, badSeal := false,
        sealDue := none, todo := bs, read := some ((Handle.off p.va).toNat, len, []) })

/-- ROCE_UNSUPPORTED_OP: SEND, atomics and every other operation. -/
def execRoceUnsupportedOp (p : Packet) (s : State) : Host.Outcome State Fault Refusal :=
  .next (s.roce p fun q => s.nak p.qpn p.psn q nakInvalid)

/-- ROCE_UNKNOWN_QP: no effect once the part is ready; before, as every packet (R381). -/
def execRoceUnknownQp (p : Packet) (s : State) : Host.Outcome State Fault Refusal :=
  .next (if (s.pairOf p).isNone then s.roce p fun _ => s else s)

/-- ROCE_WRITE_ACK (R47): the oldest message is answered once all of it has taken effect; in the error state it only goes. -/
def execRoceWriteAck (qpn : BitVec 24) (s : State) : Host.Outcome State Fault Refusal :=
  match Maps.get s.qps qpn.toNat with
  | none => .next s
  | some q =>
    match q.msgs with
    | [] => .next s
    | m :: r =>
      let q' := { q with msgs := r }
      if m.left != 0 || (m.sealDue.isSome && !m.bad && !q.err) then .next s
      else if q.err then .next (s.setPair qpn q')
      else if m.read.isSome then .next s
      else if m.bad then .next (s.nak qpn m.psn q' nakAccess)
      else if m.badSeal then .next (s.nak qpn m.psn q' nakOperational)
      else .next (((s.setPair qpn q').emit (.roceAck qpn m.psn)).servePair qpn)

/-! ### Acknowledgements (R255) -/

/-- A host's message takes the answer to one of its operations: data of a READ; of a WRITE the outcome, which may refuse it. A READ that
brings no data is refused (R46). -/
def HostMsg.answered (m : HostMsg) (o : Op) (x : Reply) : HostMsg :=
  match m.read, x with
  | some (off, len, got), .data d _ _ => { m with left := m.left - 1, read := some (off, len, Maps.put got (Handle.vbn o.h).toNat d) }
  | some _, _ => { m with left := m.left - 1, bad := true }
  | none, x =>
    let isSeal := match o.kind with | .seal _ => true | _ => false
    { m with left := m.left - 1, applied := m.applied + (if Reply.refuses x then 0 else 1), bad := m.bad || (Reply.refuses x && !isSeal),
             badSeal := m.badSeal || (Reply.refuses x && isSeal) }

/-- An answer to an operation of a host's message; the port goes on. -/
def State.hostAnswered (s : State) (n : BitVec 24) (id : Nat) (o : Op) (x : Reply) : State :=
  match Maps.get s.qps n.toNat with
  | none => s.servePairs
  | some q => (s.setPair n { q with msgs := q.msgs.map fun m => if m.id = id then m.answered o x else m }).servePairs

/-- A watcher of a starting instance stands; the last one lets the run be answered (R48, R280). -/
def State.watcherStands (s : State) (n : BitVec 32) : State :=
  match s.starting, s.node n with
  | some x, some nd =>
    if nd.inst = x.inst then
      (if x.left ≤ 1 then s.started { x with left := 0 } else { s with starting := some { x with left := x.left - 1 } })
    else s
  | _, _ => s

/-- The bits and the cause of an answer. -/
def Reply.bits (x : Reply) : BitVec 16 × BitVec 5 :=
  match x with
  | .report b c => (b, c)
  | _ => (0, 0)

/-! ### SENDs at the peer (R304, R306) -/

/-- The place of a SEND's write at the peer (R306). -/
def State.channelPlace (s : State) (hd : Word) : Option Place :=
  match s.placeOf hd (if Handle.space hd == 1#3 then 0#4 else permW) with
  | some (.off _) => none
  | p => p

/-- The write of a SEND is posted here, under the tags of its strand's batch; without a place it has no effect and reports XLATE. -/
def State.postSend (s : State) (m : SendMsg) : State :=
  let u := unitRemote m.frm m.unit
  let o : Op := { kind := .write 0 4096 m.data false, h := m.hd, place := (s.channelPlace m.hd).getD (.off s.modNo), unit := u, seq := m.seq,
                  asker := .channel m.frm m.chan, tracker := remoteTracker m.frm m.tracker, batch := m.batch, ordinal := m.ordinal,
                  node := m.node }
  let s1 := { s with units := Maps.put s.units u (Maps.getD s.units u [] ++ [o]) }
  if (s.channelPlace m.hd).isSome then s1.send (.op o) else s1.noBlock o

/-- The first SEND of a channel that waits at this Lantern. -/
def State.nextSend (s : State) (frm : BitVec 8) (c : Word) : Option SendMsg := s.chanIn.find? fun m => m.frm == frm && m.chan == c
/-- Its write has taken effect. -/
def State.sendPosted (s : State) (frm : BitVec 8) (c : Word) : State :=
  match s.nextSend frm c with
  | none => s
  | some m => { s with chanIn := s.chanIn.erase m }
/-- The next write of the channel is posted. -/
def State.postNext (s : State) (frm : BitVec 8) (c : Word) : State :=
  match s.nextSend frm c with
  | none => s
  | some m => s.postSend m

/-- The outcome of a posted operation reaches its sending unit: the home has tallied it (R266). -/
def State.acknowledged (s : State) (o : Op) (x : Reply) : State :=
  let s1 := s.unack o.unit o.seq
  let b := Reply.bits x
  match o.asker with
  | .batch => s1
  | .circuit _ => { s1 with chanOut := s1.chanOut.filter fun m => !(m.unit == o.unit && m.seq == o.seq) }
  | .copyDest cl cmd i j => s1.destAnswered cl cmd i j b.1 b.2
  | .host q id => s1.hostAnswered q id o x
  | .channel frm c => ((s1.sendPosted frm c).routed frm (.reply (o.unit % 16384) o.seq x)).postNext frm c
  | _ => (match o.kind with | .watcher _ n => s1.watcherStands n | _ => s1)

/-- Does the answer of an operation reach its unit by this event? Others have events of their own. -/
def Asker.posted (a : Asker) : Bool :=
  match a with
  | .batch => true
  | .circuit _ => true
  | .copyDest _ _ _ _ => true
  | .host _ _ => true
  | .channel _ _ => true
  | .nobody => true
  | _ => false

/-- OPERATION_ACK (R255): an acknowledgement of an operation that its unit no longer holds is dropped. -/
def execOperationAck (m : Nat) (s : State) : Host.Outcome State Fault Refusal :=
  match Maps.get s.net m with
  | some (.reply o x) =>
    if !o.asker.posted then .next s
    else if (Maps.getD s.units o.unit []).any fun q => q.seq == o.seq then .next ((s.take m).acknowledged o x)
    else .next (s.take m)
  | _ => .next s

end Sys2Proof.Machine
end

