-- ==== Sys2Proof/Machine/System.lean ====
section
/-!
DEFINITION. Traps and the system instructions (R70, R71, R85, R243, R308, R314 to R318, R325 to R332).
-/
namespace Sys2Proof.Machine

/-! ### Traps of the fetch (R70, R85) -/

/-- ILLEGAL_ENCODING (R85). -/
def execIllegalEncoding (w0 w1 : BitVec 32) (s : State) : Host.Outcome State Fault Refusal :=
  s.issue none 0 fun r _ => s.raise r 0#5 (w1 ++ w0)

/-- OVERLAY_FETCH (R70). -/
def execOverlayFetch (s : State) : Host.Outcome State Fault Refusal :=
  s.issue none 0 fun r st => s.raise r 2#5 (st.pc.zeroExtend 64)

/-! ### TRAP and RETT (R318, R326) -/

/-- TRAP. -/
def execTrap (f : Form) (code : BitVec 8) (s : State) : Host.Outcome State Fault Refusal :=
  s.issue f.gd f.len fun r _ => s.raise r 13#5 (code.zeroExtend 64)

/-- RETT and RETT.S: the length skipped is that of the word at tpc now. -/
def execRett (f : Form) (skip : Bool) (s : State) : Host.Outcome State Fault Refusal :=
  s.issue f.gd f.len fun r st =>
    let t := st.tpc
    let c := s.core st.home
    if t.extractLsb' 0 2 != 0 then s.raise r 3#5 (t.zeroExtend 64)
    else if skip then
      if c.xb.toNat ≤ t.toNat then s.raise r 2#5 (t.zeroExtend 64)
      else if c.ovld.any fun o => o.meets t.toNat 4 then s.retry r
      else
        let w := BitVec.ofNat 32 (Mem.num c.store t.toNat 4)
        s.leaveHandler r st (t + BitVec.ofNat 32 (4 * wordsOf w))
    else s.leaveHandler r st t

/-! ### Special registers (R308, R327) -/

/-- The word of TGENR (R308). -/
def State.tgenWord (s : State) : Word := BitVec.ofBool s.reconf ++ 0#27 ++ s.plan ++ s.tgen

/-- SELF: slot, core, cluster, die and module (R327). -/
def State.selfWord (s : State) (st : Strand) : Word :=
  let k := st.home
  let slot : BitVec 3 := match st.loc with | .slot _ n => n | _ => 0
  0#40 ++ s.modNo ++ coreDie k ++ k.extractLsb' 4 6 ++ k.extractLsb' 0 4 ++ slot

/-- The value RDSR reads (R327). -/
def State.special (s : State) (st : Strand) (n : BitVec 8) : Word :=
  let c := s.core st.home
  match n.toNat with
  | 0 => st.tpc.zeroExtend 64
  | 1 => st.tcause.zeroExtend 64
  | 2 => st.tval
  | 3 => st.fflags.zeroExtend 64
  | 4 => st.rmode.zeroExtend 64
  | 5 => 0#52 ++ st.opens ++ 0#6 ++ st.batch
  | 6 => c.xb.zeroExtend 64
  | 7 => c.trapbase.zeroExtend 64
  | 8 => s.tgenWord
  | 9 => (s.die (coreDie st.home)).cycle
  | 10 => s.selfWord st
  | 11 => st.node.zeroExtend 64
  | 12 => (s.cluster (coreCluster st.home)).l2units.zeroExtend 64
  | _ => c.ringwt.zeroExtend 64

/-- RDSR. -/
def execRdsr (f : Form) (rd : BitVec 4) (sr : BitVec 8) (s : State) : Host.Outcome State Fault Refusal :=
  s.issueOwn f.gd f.len fun st => st.setReg rd (s.special st sr)

/-- WRSR to a register of the strand: reserved bits keep zero (R3, R315). -/
def Strand.writeSpecial (st : Strand) (n : BitVec 8) (v : Word) : Strand :=
  match n.toNat with
  | 0 => { st with tpc := v.extractLsb' 0 32 }
  | 1 => { st with tcause := v.extractLsb' 0 8 &&& 0x9F#8 }
  | 2 => { st with tval := v }
  | 3 => { st with fflags := v.extractLsb' 0 5 }
  | 4 => { st with rmode := v.extractLsb' 0 2 }
  | 5 => { st with batch := v.extractLsb' 0 2 }
  | _ => st

/-- WRSR (R327): RINGWT is privileged and takes 1 to 8 alone. -/
def execWrsr (f : Form) (ra : BitVec 4) (sr : BitVec 8) (s : State) : Host.Outcome State Fault Refusal :=
  s.issue f.gd f.len fun r st =>
    let v := st.reg ra
    if sr = 13#8 then
      s.privilegedOnly r st
        (let c := s.core st.home
         let s1 := if 1 ≤ v.toNat ∧ v.toNat ≤ 8 then s.setCore st.home { c with ringwt := v.extractLsb' 0 4 } else s
         s1.setStrand r (st.next f.len))
    else s.setStrand r ((st.writeSpecial sr v).next f.len)

/-! ### The partition (R221, R243) -/

/-- Does a running instance name this slot: by an argument, or by a block of a range that its graph declares, DONE included? -/
def State.slotNamed (s : State) (cl : BitVec 9) (slot : Nat) : Bool :=
  let hits : Word → Bool := fun h => s.padPlace h == some (.pad cl (BitVec.ofNat 9 slot))
  s.instances.any fun p => p.2.args.toList.any hits ||
    match Maps.get s.graphs p.2.graph.toNat with
    | none => false
    | some g => g.ranges.any fun d => (RangeDesc.handles d p.2.args).any hits

/-- May a slot leave the scratchpad: EMPTY, nothing written, no stubs, not named? -/
def State.slotFree (s : State) (cl : BitVec 9) (slot : Nat) : Bool :=
  let b := Maps.getD (s.cluster cl).pads slot Block.mapped
  b.st == 0 && b.mask == 0 && b.stubs.isEmpty && b.queued.isEmpty && !s.slotNamed cl slot

/-- The slots that leave, from `left` up to those that stand, return EMPTY at the next generation (R243). -/
def Cluster.shrinkPads (c : Cluster) (left : Nat) : Cluster :=
  { c with pads := (List.range (c.padSlots - left)).foldl (fun m i =>
      Maps.put m (left + i) { Block.mapped with gen := (Maps.getD m (left + i) Block.mapped).gen + 1 }) c.pads }

/-- Copies dropped and blocks evicted until no more than `n` stand; none when a block must stay (R243). DESIGN CHOICE (log entry 102): blocks
and copies have no places in the L2 partition, so what stands in the region a growing scratchpad takes is the least recently used copies,
then the least recently used blocks, as many as the room lacks. -/
def State.clearRoom (s : State) (cl : BitVec 9) (n fuel : Nat) : Option State :=
  let c := s.cluster cl
  if c.res.length + c.copies.length ≤ n then some s
  else match fuel with
    | 0 => none
    | fuel + 1 =>
      match leastUsed c.copies Copy.used (fun _ _ => true) with
      | some k => (s.setCluster cl { c with copies := Maps.del c.copies k }).clearRoom cl n fuel
      | none =>
        match leastUsed c.res Resident.used (fun k x => s.evictable cl k x) with
        | none => none
        | some k => match Maps.get c.res k with
          | none => none
          | some x => (s.evict cl k x).clearRoom cl n fuel

/-- WRSR to PARTITION (R243, R327): a move that must wait is tried again at every turn, new blocks kept out of the region. -/
def execWrsrPartition (f : Form) (ra : BitVec 4) (s : State) : Host.Outcome State Fault Refusal :=
  s.issue f.gd f.len fun r st =>
    let v := st.reg ra
    let cl := coreCluster st.home
    let c := s.cluster cl
    let u : BitVec 5 := v.extractLsb' 0 5
    let done : State → State := fun t => t.updStrand r fun st => st.next f.len
    s.privilegedOnly r st
      (if v.toNat < 4 ∨ 16 < v.toNat ∨ u = c.l2units then done s
       else if c.l2units.toNat < u.toNat then
         let left := 512 - 32 * u.toNat
         if (List.range (c.padSlots - left)).all fun i => s.slotFree cl (left + i) then
           done (s.setCluster cl { c.shrinkPads left with l2units := u })
         else done s
       else
         let s1 := s.setCluster cl { c with moving := some (u, r) }
         match (if c.fills.isEmpty then s1.clearRoom cl (32 * u.toNat) (c.res.length + c.copies.length + 1) else none) with
         | some t => done (t.setCluster cl { t.cluster cl with l2units := u, moving := none })
         | none => s1.retry r)

/-! ### The execute boundary and overlays (R71, R329, R330) -/

/-- XBSET. -/
def execXbset (f : Form) (ra : BitVec 4) (s : State) : Host.Outcome State Fault Refusal :=
  s.issue f.gd f.len fun r st =>
    let v := st.reg ra
    let c := s.core st.home
    if v.extractLsb' 0 2 != 0 then s.raise r 3#5 v
    else if v.toNat < c.trapbase.toNat + 512 || c.database.toNat < v.toNat then s.raise r 1#5 v
    else (s.setCore st.home { c with xb := v.extractLsb' 0 32 }).setStrand r (st.next f.len)

/-- The overlay `n` of an image file (R23): load address and body. -/
def overlayOf (image : List Byte) (n : Nat) : BitVec 32 × List Byte :=
  let e := (image.drop (recField image 0x24 4 + 16 * n)).take 16
  (BitVec.ofNat 32 (recField e 8 4), (image.drop (recField e 0 4)).take (recField e 4 4))

/-- OVLD: the copy runs while the strand waits; a second one on the core waits for the first. -/
def execOvld (f : Form) (ra : BitVec 4) (s : State) : Host.Outcome State Fault Refusal :=
  s.issue f.gd f.len fun r st =>
    let n := st.reg ra
    let c := s.core st.home
    let image := Maps.getD s.images c.image.toNat []
    if recField image 0x1E 2 ≤ n.toNat then s.raise r 1#5 n
    else if c.ovld.isSome then s.retry r
    else
      let o := overlayOf image n.toNat
      (s.setCore st.home { c with ovld := some { load := o.1, body := o.2, strand := r } }).setStrand r { st with wait := .overlay (.ovld f ra) }

/-- OVLD_COPY_COMPLETE (R71, R330). -/
def execOvldCopyComplete (core : BitVec 13) (s : State) : Host.Outcome State Fault Refusal :=
  let c := s.core core
  match c.ovld with
  | none => .next s
  | some o =>
    let top := o.load + BitVec.ofNat 32 o.body.length
    let s1 := s.setCore core { c with store := Mem.setBytes c.store o.load.toNat o.body, ovld := none,
                                      xb := if c.xb.toNat < top.toNat then top else c.xb }
    .next (match s1.strand o.strand with
      | none => s1
      | some st =>
        match st.wait with
        | .overlay (.ovld f _) => (s1.setStrand o.strand { st.next f.len with wait := .run }).toHeld o.strand
        | _ => s1)

/-! ### PERF and IDLE (R328, R332) -/

/-- A performance counter. -/
def State.counter (s : State) (k : BitVec 13) (n : BitVec 8) : Word :=
  let v := s.anvil (coreAnvil k)
  match n.toNat with
  | 0 => (s.core k).perf0
  | 1 => (s.core k).perf1
  | 2 => v.perf2
  | 3 => v.perf3
  | 4 => (s.cluster (coreCluster k)).perf4
  | 5 => (s.core k).perf5
  | 6 => (s.die (coreDie k)).perf6
  | 7 => (s.cluster (coreCluster k)).perf7
  | 8 => (s.die (coreDie k)).perf8
  | _ => 0

/-- PERF. -/
def execPerf (f : Form) (rd ra : BitVec 4) (s : State) : Host.Outcome State Fault Refusal :=
  s.issueOwn f.gd f.len fun st => st.setReg rd (s.counter st.home ((st.reg ra).extractLsb' 0 8))

/-- IDLE: the oldest event that the Keep has not been told, or the strand waits for the next. -/
def execIdle (f : Form) (rd : BitVec 4) (s : State) : Host.Outcome State Fault Refusal :=
  s.issue f.gd f.len fun r st => s.privilegedOnly r st
    (match s.keepEvents with
     | e :: q => { s with keepEvents := q }.setStrand r (st.idled f rd e)
     | [] => s.setStrand r { st with wait := .keep (.idle f rd) })

end Sys2Proof.Machine
end

