-- ==== Sys2Proof/Machine/Domain.lean ====
section
/-!
DEFINITION. Beyond the module: SEND, CHMK, RCIR, TGENR, the Lantern's routed and circuit traffic, and the collective that
reconfigures the circuits (R294 to R313, R386).
-/
namespace Sys2Proof.Machine

/-- The modules of the domain; a module that stands alone is its own domain (R294, R380). -/
def State.domainOf (s : State) : List (BitVec 8) := if s.modSet then s.members else [s.modNo]
/-- The leader. -/
def State.leaderNo (s : State) : BitVec 8 := if s.modSet then s.leader else s.modNo
/-- A message of the collective to module `d`; one from the leader to itself stays in the module. -/
def State.tell (s : State) (m : DomainMsg) (d : BitVec 8) : State :=
  if d = s.modNo then { s with toSelf := s.toSelf ++ [m] } else s.emit (.domainMsg d m)
/-- A message to the leader, or from it to every module. -/
def State.tellLeader (s : State) (m : DomainMsg) : State := s.tell m s.leaderNo
def State.tellAll (s : State) (m : DomainMsg) : State := s.domainOf.foldl (fun t d => t.tell m d) s
/-- Does a message go to the leader, and not from it? -/
def DomainMsg.up (m : DomainMsg) : Bool :=
  match m with
  | .gather _ => true
  | .drained => true
  | .locked => true
  | _ => false
/-- A message from module `frm` is taken: from this module itself the first that it has sent in that direction, and no other (log entry
90). -/
def State.takeFrom (s : State) (frm : BitVec 8) (m : DomainMsg) (go : State → State) : State :=
  if frm != s.modNo then go s
  else if s.toSelf.find? (fun x => x.up == m.up) = some m then go { s with toSelf := s.toSelf.erase m } else s
/-- A message from the leader. -/
def State.takeLeader (s : State) (m : DomainMsg) (go : State → State) : State := s.takeFrom s.leaderNo m go

/-! ### Channels (R299, R306, R307) -/

/-- Fields of a channel handle. -/
def Chan.tgen (c : Word) : BitVec 32 := c.extractLsb' 32 32
def Chan.plan (c : Word) : BitVec 4 := c.extractLsb' 28 4
def Chan.peer (c : Word) : BitVec 8 := c.extractLsb' 20 8
def Chan.group (c : Word) : BitVec 4 := c.extractLsb' 16 4
def Chan.mask (c : Word) : BitVec 4 := c.extractLsb' 12 4

/-- Is a fibre in service with a circuit to the peer under the plan in force? -/
def State.circuit (s : State) (fibre : Nat) (peer : BitVec 8) : Bool :=
  let e := s.planEntry s.plan s.modNo fibre
  s.fibresUp.getLsbD fibre && s.planesUp.getLsbD fibre && e.getLsbD 15 && e.extractLsb' 0 8 == peer

/-- The fibres that a channel names. -/
def Chan.fibres (c : Word) : List Nat := ((List.range 4).filter (Chan.mask c).getLsbD).map fun i => 4 * (Chan.group c).toNat + i

/-- The test of R306 that raises TOPOSTALE; a channel over a replaced fibre fails it until CHMK has made it again (R374). -/
def State.staleChannel (s : State) (c : Word) : Bool :=
  c.extractLsb' 8 4 != 0 || Chan.tgen c != s.tgen || Chan.plan c != s.plan || Chan.mask c == 0
    || (Chan.fibres c).any fun k => !s.circuit k (Chan.peer c) || (s.remade.getLsbD k && !s.chanMade.contains c)

/-- The place of a SEND's destination: on the channel's peer, or why not (R306). -/
def State.sendDest (s : State) (r : Nat) (st : Strand) (c hd : Word) (go : Place → State) : State :=
  if Handle.space hd == 1#3 then
    if hd.extractLsb' 38 11 == 0#11 && hd.extractLsb' 30 8 == Chan.peer c then go (.off (Chan.peer c)) else s.toFaultQueue r hd .never
  else match s.xlate (coreCluster st.home) true hd permW with
    | .miss => s.setStrand r { st with wait := .walk hd permW }
    | .ok p => if p = .off (Chan.peer c) then go p else s.toFaultQueue r hd .never
    | _ => s.toFaultQueue r hd (.perm permW)

/-- SEND, up to the read of its source (R306). -/
def execSend (o : XOp) (s : State) : Host.Outcome State Fault Refusal :=
  s.issueX o fun r st =>
    let c := st.reg o.rd
    let hs := st.reg o.ra
    let hd := st.reg o.rb
    if Handle.off hs != 0 then s.raise r 3#5 hs
    else if Handle.off hd != 0 then s.raise r 3#5 hd
    else if s.staleChannel c then s.raise r 9#5 c
    else s.access r st hs permR fun _ => s.sendDest r st c hd fun _ =>
      s.dataRead r st { h := hs, upd := hs } false (.send o)

/-- The number of the SEND accepted last on a channel whose receipt is outstanding. -/
def State.sendBefore (s : State) (c : Word) : Nat := ((s.chanOut.filter fun m => m.chan == c).getLast?).elim 0 SendMsg.num

/-- SEND_ACCEPT (R304, R306): the Lantern takes the data into its queue for the channel and the strand goes on. -/
def execSendAccept (rec : Nat) (s : State) : Host.Outcome State Fault Refusal :=
  match s.strand rec with
  | none => .next s
  | some st =>
    match st.wait with
    | .send (.send o) data =>
      let c := st.reg o.rd
      let p : Place := .off (Chan.peer c)
      let u := unitCore st.home
      if s.reconf || !s.roomFor u (homeOf p) 1 then .next s
      else
        let b := st.batchFor o
        let q := s.openBatch rec b (homeOf p)
        let n := q.2.nextSeq u
        let op : Op := { kind := .write 0 4096 data false, h := st.reg o.rb, place := p, unit := u, seq := n.1, asker := .circuit c,
                         tracker := st.tracker, batch := b, ordinal := BitVec.ofNat 32 q.1, node := st.node }
        let m : SendMsg := { frm := s.modNo, chan := c, hd := op.h, unit := u, seq := n.1, tracker := st.tracker, batch := b,
                             ordinal := op.ordinal, node := st.node, data := data, num := n.2.fresh, prev := s.sendBefore c }
        let s1 := { n.2 with fresh := n.2.fresh + 1, units := Maps.put n.2.units u (Maps.getD n.2.units u [] ++ [op]), chanOut := n.2.chanOut ++ [m] }
        .next (((s1.emit (.send (Chan.peer c) m)).updStrand rec fun st => { st.next xlen with wait := .run }).toHeld rec)
    | _ => .next s

/-- Does the Lantern hold what comes in until GO: after DRAIN, traffic of the next generation (R309)? -/
def State.holdsIn (s : State) (gen : BitVec 32) : Bool := s.rcir.any fun c => c.drain && gen == s.tgen + 1

/-- The number of the SEND taken in last from a module on a channel. -/
def State.lastSend (s : State) (frm : BitVec 8) (c : Word) : Nat :=
  ((s.chanLast.find? fun q => q.1 == frm && q.2.1 == c).map fun q => q.2.2).getD 0

/-- A SEND joins the queue of its channel, and is posted when it is the first there (R304). -/
def State.queueSend (s : State) (m : SendMsg) : State :=
  let s1 := { s with chanIn := s.chanIn ++ [m]
                     chanLast := (s.chanLast.filter fun q => !(q.1 == m.frm && q.2.1 == m.chan)) ++ [(m.frm, m.chan, m.num)] }
  if (s.nextSend m.frm m.chan).isNone then s1.postSend m else s1

/-- A SEND from what its message carries. -/
def SendMsg.of (frm : BitVec 8) (chan hd : Word) (t : OpTags) (o : SendOrder) (data : Payload) : SendMsg :=
  { frm := frm, chan := chan, hd := hd, unit := t.unit, seq := t.seq, tracker := t.tracker, batch := t.batch, ordinal := t.ordinal,
    node := t.node, data := data, num := o.num, prev := o.prev }

/-- SEND_DELIVER (R304): the SENDs of a channel are taken in the order of their acceptance; a repeated one is only receipted. -/
def execSendDeliver (frm : BitVec 8) (chan hd : Word) (tags : OpTags) (order : SendOrder) (data : Payload) (s : State) :
    Host.Outcome State Fault Refusal :=
  .next (
    let m := SendMsg.of frm chan hd tags order data
    let last := s.lastSend m.frm m.chan
    let s1 := s.rouseModule.emit (.routedAck m.frm m.num)
    if s.holdsIn (Chan.tgen m.chan) || decide (last < m.prev) then s
    else if m.num ≤ last then s1
    else s1.queueSend m)

/-- The handle that CHMK forms (R307). -/
def State.channelFor (s : State) (a b : Word) : Word :=
  let peer : BitVec 8 := a.extractLsb' 0 8
  let lg : BitVec 4 := b.extractLsb' 0 4
  let m : BitVec 4 := BitVec.ofNat 4 ((List.range 4).map fun i =>
    if peer != s.modNo && s.circuit (4 * lg.toNat + i) peer then 2 ^ i else 0).sum
  s.tgen ++ s.plan ++ peer ++ lg ++ m ++ 0#4 ++ b.extractLsb' 8 8

/-- CHMK. -/
def execChmk (o : XOp) (s : State) : Host.Outcome State Fault Refusal :=
  s.issueX o fun r st =>
    let c := s.channelFor (st.reg o.ra) (st.reg o.rb)
    if s.reconf then s.setStrand r { st with wait := .go }
    else ({ s with chanMade := if (Chan.fibres c).any s.remade.getLsbD then c :: s.chanMade.erase c else s.chanMade }).setStrand r
      ((st.setReg o.rd c).next xlen)

/-- TGENR (R308). -/
def execTgenr (o : XOp) (s : State) : Host.Outcome State Fault Refusal :=
  s.issueX o fun r st => s.setStrand r ((st.setReg o.rd s.tgenWord).next xlen)

/-! ### Routed traffic (R300 to R302) -/

/-- Whom a remote-reader reference names (R302). -/
def recWake (n : Nat) (src : BitVec 8) (cause : Option (BitVec 5)) (h : Word) : Msg :=
  if n % 2 = 0 then .wake (n / 2) (.off src) cause h
  else .wakeEngine (BitVec.ofNat 9 (n / 2)) (n / 2 / 512 / 4096) (n / 2 / 512 % 4096) cause

/-- An operation of another module that has no block here: it has no effect, and slice 0 keeps its outcome for a repetition
(R255; log entry 89). -/
def State.noBlockOnce (s : State) (o : Op) : State :=
  match s.seen 0#9 o with
  | some x => s.answer o x
  | none => (s.record 0#9 o (.report bXlate 18)).noBlock o

/-- An operation of another module reaches this one and goes to its home here, with its tags (R265, R300). -/
def State.deliverOp (s : State) (src : BitVec 8) (k : OpKind) (h : Word) (u : Nat) (seq : Word) (cl : BitVec 9) (rec : Nat)
    (node ord : BitVec 32) (t : Nat) (b : BitVec 2) : State :=
  let o : Place → Op := fun p => { kind := k, h := h, place := p, unit := unitRemote src u, seq := seq, asker := .remote src cl rec,
                                   tracker := remoteTracker src t, batch := b, ordinal := ord, node := node }
  match s.placeOf h 0#4 with
  | some (.off _) => s.noBlockOnce (o (.off s.modNo))
  | some p => s.send (.op (o p))
  | none => s.noBlockOnce (o (.off s.modNo))

/-- Every slice takes the release of a unit of another module (R255). -/
def State.releaseAll (s : State) (u : Nat) : State := s.clusters.foldl (fun t c => t.releaseWindow (BitVec.ofNat 9 c.1) u) s

/-- The close or sync that module `src` answers (R266). -/
def State.closeAsked (s : State) (src : BitVec 8) (t : Nat) (b : BitVec 2) (rec : Nat) : Option Nat :=
  (s.net.find? fun p => match p.2 with
    | .close h t' b' _ _ q => h == 2048 + src.toNat && t' == t && b' == b && q == rec
    | _ => false).map Prod.fst

/-- The instance of a record, or of a node instance, of this module ends (R200, R256, R368). -/
def State.lostHere (s : State) (rec : Nat) (node : BitVec 32) (cause : BitVec 5) (v : Word) : State :=
  if rec % 2 = 0 && rec != 0 then s.endOwner (rec / 2) (cause.zeroExtend 8) v else s.endNode node cause v

/-- What a frame for this module does. -/
def State.deliverFrame (s : State) (src : BitVec 8) (f : FrameBody) : State :=
  match f with
  | .op k h u seq cl rec node ord t b => s.deliverOp src k h u seq cl rec node ord t b
  | .reply u seq x =>
    match (Maps.getD s.units u []).find? fun o => o.seq == seq with
    | none => s
    | some o => s.send (.reply o x)
  | .wake _ rec h => s.send (recWake rec src none h)
  | .abort _ rec h k => s.send (recWake rec src (some k) h)
  | .fire n => (match s.node n with | none => s | some nd => s.send (.fire nd.owner n))
  | .release u => s.releaseAll (unitRemote src u)
  | .close t b count take rec => s.send (.closeFor src t b count take rec)
  | .closeReply t b take n bits first rec =>
    match s.closeAsked src t b rec with
    | none => s
    | some m => (s.take m).send (.closeReply (2048 + src.toNat) t b take { count := n, bits := bits, first := first } rec)
  | .late cl t b ord bits cause h => s.tally (homeEngine cl) t b { Sum.one ord.toNat 0 bits cause h with count := 0 }
  | .lost rec node cause v => s.lostHere rec node cause v
  | .drop ns => s.dropWatchers (some src) ns
  | .pref h target =>
    match s.placeOf h 0#4 with
    | some (.dom cl blk) => s.prefetchHere h cl blk (some src) target
    | _ => s
  | .copy h cl d => if s.inService cl && s.supplyOk then (s.rouse (clusterDie cl)).placeCopy cl h d else s

/-- A frame for this module is receipted and taken in once (R301); a repeated operation is the business of its home's dedupe window. -/
def State.takeFrame (s : State) (f : Frame) : State :=
  let s1 := s.emit (.routedAck f.src f.num)
  let old := Maps.getD s.heard f.src.toNat []
  if old.contains f.num && !(match f.body with | .op .. => true | _ => false) then s1
  else { s1 with heard := Maps.put s1.heard f.src.toNat (f.num :: old.erase f.num) }.deliverFrame f.src f.body

/-- ROUTED_FORWARD: a frame for another module goes on along its path, a drain notwithstanding; one for this module is taken in. Either
needs the module out of S4 (R363), and waits for GO if it is of the next generation (R309). -/
def execRoutedForward (fr : Frame) (s : State) : Host.Outcome State Fault Refusal :=
  .next (if s.holdsIn fr.gen then s
    else if fr.dst != s.modNo then s.rouseModule.inject fr
    else s.rouseModule.takeFrame fr)

/-- ROUTED_ACK (R301, R304): the Lantern of a module has the frame or the SEND. -/
def execRoutedAck (r : Receipt) (s : State) : Host.Outcome State Fault Refusal :=
  .next { s with kept := s.kept.filter fun f => !(f.dst == r.frm && f.num == r.num)
                 lantern := s.lantern.filter fun f => !(f.src == s.modNo && f.dst == r.frm && f.num == r.num)
                 chanOut := s.chanOut.filter fun m => !(Chan.peer m.chan == r.frm && m.num == r.num) }

/-- ROUTED_RESEND (R301, R304): a frame whose receipt is outstanding goes out again on its present path, and so does a SEND. Without a
path the frame is held, and the loss logged (R311, R391). -/
def execRoutedResend (num : Nat) (s : State) : Host.Outcome State Fault Refusal :=
  .next (match s.kept.find? fun f => f.num == num with
    | some f => (match s.route f.dst with | some k => s.emit (.routed k { f with gen := s.sendGen }) | none => s.holdLost)
    | none =>
      match s.chanOut.find? fun m => m.num == num with
      | some m => s.emit (.send (Chan.peer m.chan) m)
      | none => s)

/-- FLIT_REPLAY (R295, R365): the link delivers every flit once and in order; nothing else is visible. -/
def execFlitReplay (_fibre : BitVec 6) (s : State) : Host.Outcome State Fault Refusal := .next s

/-! ### RCIR (R309, R310) -/

/-- An arrival of this module goes to the leader, under the number of its collective (log entry 90). -/
def State.sendGather (s : State) (round : Nat) (p : BitVec 4) (e : BitVec 32) : State :=
  s.tellLeader (.gather { round := round, plan := p, digest := s.planDigest p, expect := e, theirs := s.tgen })

/-- A strand joins the collective, begins one, or waits for the next (R309). -/
def State.joinRcir (s : State) (r : Nat) (p : BitVec 4) (e : BitVec 32) : State :=
  match s.rcir with
  | none =>
    { s with fresh := s.fresh + 1
             rcir := some { round := s.fresh, plan := p, expect := e, recs := [r], drain := false, drained := false, relocked := false, late := [] } }.sendGather
      s.fresh p e
  | some c =>
    if c.drain then { s with rcir := some { c with late := c.late ++ [r] } }
    else
      let s1 := { s with rcir := some { c with recs := c.recs ++ [r] } }
      if c.plan = p && c.expect = e then s1 else s1.sendGather c.round p e

/-- RCIR: the strand parks. -/
def execRcir (o : XOp) (s : State) : Host.Outcome State Fault Refusal :=
  s.issueX o fun r st =>
    ((s.setStrand r { st with wait := .rcir (.rcir o) }).joinRcir r ((st.reg o.ra).extractLsb' 0 4) ((st.reg o.rb).extractLsb' 0 32)).vacate r

/-- The strands of a collective wake with its status (R310). -/
def State.wakeRcir (s : State) (recs : List Nat) (status : BitVec 4) : State :=
  recs.foldl (fun t r =>
    (t.updStrand r fun st =>
      match st.wait with
      | .rcir (.rcir o) => { (st.setReg o.rd (0#28 ++ status ++ t.tgen)).next xlen with wait := .run }
      | _ => st).toHeld r) s

/-- Strands held for GO start their instruction again (R306, R307). -/
def State.releaseHeld (s : State) : State :=
  { s with strands := Maps.map s.strands fun _ st =>
      match st.wait with
      | .go => { st with wait := .run }
      | .send _ _ => { st with wait := .run }
      | _ => st }

/-- Arrivals that came too late make the next collective (R309). -/
def State.rejoin (s : State) (late : List Nat) : State :=
  late.foldl (fun t r =>
    match t.strand r with
    | none => t
    | some st =>
      match st.wait with
      | .rcir (.rcir o) => t.joinRcir r ((st.reg o.ra).extractLsb' 0 4) ((st.reg o.rb).extractLsb' 0 32)
      | _ => t) s

/-- DRAIN: no new SEND is accepted and no routed traffic injected. -/
def execDrain (plan : BitVec 4) (expect : BitVec 32) (s : State) : Host.Outcome State Fault Refusal :=
  match s.rcir with
  | none => .next s
  | some c =>
    if c.drain || c.plan != plan || c.expect != expect then .next s
    else .next (s.takeLeader (.drain plan expect) fun t => { t with rcir := some { c with drain := true }, reconf := true })

/-- LANTERN_DRAINED: every accepted SEND is delivered and everything sent is acknowledged. -/
def execLanternDrained (s : State) : Host.Outcome State Fault Refusal :=
  match s.rcir with
  | none => .next s
  | some c =>
    if !c.drain || c.drained || !s.kept.isEmpty || !s.chanOut.isEmpty then .next s
    else .next ({ s with rcir := some { c with drained := true } }.tellLeader .drained)

/-- Is a fibre in service that has a circuit under plan `p`? -/
def State.planFibre (s : State) (p : BitVec 4) (k : Nat) : Bool :=
  s.fibresUp.getLsbD k && s.planesUp.getLsbD k && (s.planEntry p s.modNo k).getLsbD 15

/-- Have the fibres of a plan that are in service all relocked? -/
def State.fibresLocked (s : State) (p : BitVec 4) (up : BitVec 64) : Bool :=
  (List.range 64).all fun k => !s.planFibre p k || up.getLsbD k

/-- LANTERN_RELOCK: the planes that did not return are out of service; the fibres of the new plan, or of the plan in force after a
fall-back, are up; the new routing stands, routed traffic resumes, LOCKED is reported. -/
def execLanternRelock (up : BitVec 64) (r : RelockOrder) (s : State) : Host.Outcome State Fault Refusal :=
  match s.rcir with
  | none => .next s
  | some c =>
    let p := if r.fallback then s.plan else c.plan
    let s1 := { s with planesUp := s.planesUp &&& ~~~r.lost }
    if !c.drained || c.relocked || !s1.fibresLocked p up then .next s
    else .next (s.takeLeader (.relock r.fallback r.lost) fun t =>
      { t with planesUp := s1.planesUp, rcir := some { c with relocked := true, plan := p, back := r.fallback } }.flush.tellLeader .locked)

/-- The R370 word of a fibre, the syndrome left open. -/
def State.fibreError (s : State) (k : BitVec 6) : Word :=
  (Config.free 2 s.tick).extractLsb' 0 32 ++ 0#9 ++ (k &&& 31#6) ++ 0#6 ++ (k >>> 5).extractLsb' 0 3 ++ 9#8

/-- FIBRE_RELOCK_TIMEOUT: a fibre that the plan needs is out of service, and the Keep is told. -/
def execFibreRelockTimeout (f : LateFibre) (s : State) : Host.Outcome State Fault Refusal :=
  match s.rcir with
  | none => .next s
  | some c =>
    if !c.drained || c.relocked || !s.planFibre (if f.fallback then s.plan else c.plan) f.fibre.toNat then .next s
    else
      .next (({ s with fibresUp := s.fibresUp &&& ~~~(1#64 <<< f.fibre.toNat) }.holdLost.logError (s.fibreError f.fibre) (f.fibre.zeroExtend 64)
        1 0 (s.hearthClock (f.fibre.getLsbD 5))).tellKeep 3#8 s.errHead.toNat)

/-- GO: the new generation and plan; the strands wake with OK, or PLANE after a fall-back. -/
def execGo (fallback : Bool) (s : State) : Host.Outcome State Fault Refusal :=
  match s.rcir with
  | none => .next s
  | some c =>
    if !c.relocked then .next s
    else .next (s.takeLeader (.go fallback) fun t =>
      let s0 := { t with rcir := none, reconf := false }
      let s1 := if fallback then s0 else { s0 with tgen := c.expect + 1, plan := c.plan, remade := 0, chanMade := [] }
      (((s1.wakeRcir c.recs (if fallback then 2 else 0)).releaseHeld).rejoin c.late).flush)

/-- ABORT: MISMATCH. -/
def execAbort (s : State) : Host.Outcome State Fault Refusal :=
  match s.rcir with
  | none => .next s
  | some c =>
    .next (s.takeLeader .abort fun t =>
      ((({ t with rcir := none, reconf := false }.wakeRcir c.recs 1).releaseHeld).rejoin c.late).flush)

/-! ### The leader (R309, R311, R312) -/

/-- A leader that gathers the next collective: every module has had the end of the one it arrived in. -/
def Leader.done (l : Leader) : Leader := { Leader.reset with ended := l.arrivals.foldl (fun m a => Maps.put m a.1 a.2.round) l.ended }

/-- The leader ends the sequence with MISMATCH. -/
def State.leaderAbort (s : State) : State := { s with lead := s.lead.done }.tellAll .abort

/-- Do all the arrivals allow the switch: one plan, loaded everywhere alike and not the one in force, and everyone's tgen as expected? -/
def State.agreed (s : State) (l : Leader) (a : Arrival) : Bool :=
  !l.bad && (l.arrivals.all fun q => { q.2 with round := a.round } == a) && a.digest.isSome && a.theirs == a.expect && a.plan != s.plan

/-- Every module has arrived: DRAIN when all values agree, else ABORT. -/
def State.leaderDecide (s : State) : State :=
  let l := s.lead
  match l.arrivals with
  | [] => s
  | (_, a) :: _ =>
    if s.agreed l a then
      { s with lead := { l with running := true, plan := a.plan, expect := a.expect, drained := [], configured := [], asked := [], locked := [],
                                fallback := false, lost := 0 } }.tellAll (.drain a.plan a.expect)
    else s.leaderAbort

/-- An arrival at the leader: while the sequence runs, a different arrival of a module that has not drained ends it. -/
def State.arrive (s : State) (frm : BitVec 8) (a : Arrival) : State :=
  let l := s.lead
  let old := Maps.get l.arrivals frm.toNat
  if a.round ≤ Maps.getD l.ended frm.toNat 0 then s
  else if l.running then (if l.drained.contains frm.toNat || old == some a then s else s.leaderAbort)
  else
    let l' := { l with arrivals := if old.isNone then Maps.put l.arrivals frm.toNat a else l.arrivals, bad := l.bad || old.any (· != a) }
    let s1 := { s with lead := l' }
    if s.domainOf.all fun m => (Maps.get l'.arrivals m.toNat).isSome then s1.leaderDecide else s1

/-- RCIR_GATHER: an arrival of a collective whose end its module has had is too late. -/
def execRcirGather (frm : BitVec 8) (round : Nat) (plan : BitVec 4) (digest : Option (BitVec 256)) (gens : Gens) (s : State) :
    Host.Outcome State Fault Refusal :=
  let a : Arrival := { round := round, plan := plan, digest := digest, expect := gens.expect, theirs := gens.theirs }
  .next (if s.leaderNo != s.modNo || !s.domainOf.contains frm then s else s.takeFrom frm (.gather a) fun t => t.arrive frm a)

/-- A CONFIG body: the port pairs of plane `k` with the lower module first, a byte each. -/
def State.planePairs (s : State) (p : BitVec 4) (k : Nat) : List Byte :=
  s.domainOf.flatMap fun m =>
    let e := s.planEntry p m k
    let far : BitVec 8 := e.extractLsb' 0 8
    if e.getLsbD 15 && decide (m.toNat < far.toNat) then [m, far] else []

/-- The plan that the leader configures, and the generation it serves. -/
def State.leadPlan (s : State) : BitVec 4 := if s.lead.fallback then s.plan else s.lead.plan
def State.leadGen (s : State) : BitVec 32 := if s.lead.fallback then s.tgen else s.lead.expect + 1

/-- The address of a plane's controller (R385). -/
def State.planeAddr (s : State) (k : Nat) : BitVec 128 := s.flashReg (0x10108 + 16 * k) ++ s.flashReg (0x10100 + 16 * k)

/-- The key of a plane (R312, R385). -/
def State.planeKey (s : State) (k : Nat) : BitVec 256 :=
  s.flashReg (0x11018 + 32 * k) ++ s.flashReg (0x11010 + 32 * k) ++ s.flashReg (0x11008 + 32 * k) ++ s.flashReg (0x11000 + 32 * k)

/-- The present message to one plane, under its present sequence number: CONFIG, or a QUERY, which has no body; its body is protected
under the plane's key (R312; the nonce: log entry 14). -/
def State.sendUpc (s : State) (k : Nat) : State :=
  let q := s.lead.asked.contains k
  let body := if q then [] else s.planePairs s.leadPlan k
  let n := Maps.getD s.upcSeq k 0
  s.emit (.upc (BitVec.ofNat 6 k) (s.planeAddr k) 7319 1 (if q then 3 else 1) n s.leadGen (BitVec.ofNat 16 body.length) body
    (s.planeKey k, Config.upcNonce k n))
/-- A message to a plane under a new sequence number. -/
def State.newUpc (s : State) (k : Nat) : State := { s with upcSeq := Maps.put s.upcSeq k (Maps.getD s.upcSeq k 0 + 1) }.sendUpc k
/-- CONFIG to all planes. -/
def State.configAll (s : State) : State := (List.range 64).foldl State.newUpc s

/-- Has every module reported DRAINED? -/
def State.allDrained (s : State) : Bool := s.lead.running && s.domainOf.all fun m => s.lead.drained.contains m.toNat

/-- DRAINED: after the last one the planes are configured. One of a sequence that has ended is taken and does nothing. -/
def execDrained (frm : BitVec 8) (s : State) : Host.Outcome State Fault Refusal :=
  let l := s.lead
  .next (if !s.domainOf.contains frm then s else s.takeFrom frm .drained fun t =>
    if !l.running || l.drained.contains frm.toNat then t
    else
      let s1 := { t with lead := { l with drained := l.drained ++ [frm.toNat] } }
      if s1.allDrained then s1.configAll else s1)

/-- A plane has done what it was told, or is waited for no longer; after the last one the modules relock. -/
def State.planeDone (s : State) (k : BitVec 6) : State :=
  let l := s.lead
  let s1 := { s with lead := { l with configured := l.configured ++ [k.toNat] } }
  if s1.lead.configured.length = 64 then s1.tellAll (.relock l.fallback l.lost) else s1

/-- Is the leader waiting for this plane's answer to its present message, a QUERY or not? -/
def State.planeAwaited (s : State) (k : BitVec 6) (seq : BitVec 32) (query : Bool) : Bool :=
  s.allDrained && !s.lead.configured.contains k.toNat && seq == Maps.getD s.upcSeq k.toNat 0 && s.lead.asked.contains k.toNat == query

/-- CONFIGURED (R312): result 0 means done; after another the leader asks for the pairs in force (log entry 88). -/
def execConfigured (plane : BitVec 6) (a : UpcAnswer) (s : State) : Host.Outcome State Fault Refusal :=
  .next (if !s.planeAwaited plane a.seq false then s
    else if a.result = 0 then s.planeDone plane
    else { s with lead := { s.lead with asked := plane.toNat :: s.lead.asked } }.newUpc plane.toNat)

/-- UPC_STATUS (R312): a plane that answers a QUERY with done and with the pairs it is to have is configured; another is configured
again (log entry 88). -/
def execUpcStatus (plane : BitVec 6) (a : UpcAnswer) (s : State) : Host.Outcome State Fault Refusal :=
  .next (if !s.planeAwaited plane a.seq true then s
    else
      let s1 := { s with lead := { s.lead with asked := s.lead.asked.erase plane.toNat } }
      if a.result = 0 && a.pairs == s.planePairs s.leadPlan plane.toNat then s1.planeDone plane else s1.newUpc plane.toNat)

/-- UPC_RETRANSMIT (R312): an unanswered message goes out again under its number. -/
def execUpcRetransmit (plane : BitVec 6) (s : State) : Host.Outcome State Fault Refusal :=
  .next (if s.allDrained && !s.lead.configured.contains plane.toNat then s.sendUpc plane.toNat else s)

/-- PLANE_FALLBACK (R311): every plane is commanded back; a plane that does not return either is waited for no longer, and its fibres
are to go out of service. -/
def execPlaneFallback (plane : BitVec 6) (s : State) : Host.Outcome State Fault Refusal :=
  let l := s.lead
  .next (if !s.allDrained || l.configured.contains plane.toNat then s
    else if l.fallback then { s with lead := { l with lost := l.lost ||| 1#64 <<< plane.toNat } }.planeDone plane
    else { s with lead := { l with fallback := true, configured := [], asked := [] } }.configAll)

/-- LOCKED: after the last one the leader sends GO. -/
def execLocked (frm : BitVec 8) (s : State) : Host.Outcome State Fault Refusal :=
  let l := s.lead
  .next (if !s.domainOf.contains frm then s else s.takeFrom frm .locked fun t =>
    if l.configured.length ≠ 64 || l.locked.contains frm.toNat then t
    else
      let s1 := { t with lead := { l with locked := l.locked ++ [frm.toNat] } }
      if s1.domainOf.all fun m => s1.lead.locked.contains m.toNat then { s1 with lead := l.done }.tellAll (.go l.fallback) else s1)

/-! ### The plan at bring-up (R386) -/

/-- LEADER_PLAN_REQUEST: the answer carries the entries of the plan in force (log entry 91). -/
def execLeaderPlanRequest (frm : BitVec 8) (s : State) : Host.Outcome State Fault Refusal :=
  .next (if s.ready && s.leaderNo == s.modNo && s.domainOf.contains frm then
      s.emit (.domainMsg frm (.planReply s.tgen s.plan (Maps.getD s.plans s.plan.toNat [])))
    else s)


/-- Set the lowest clear bits of a thermometer until `n` bits are set (R382). -/
def raiseBits (w : Word) (n fuel : Nat) : Word :=
  match fuel with
  | 0 => w
  | fuel + 1 =>
    if n ≤ popcount w.toNat 64 then w
    else match (List.range 64).find? fun i => !w.getLsbD i with
      | none => w
      | some i => raiseBits (w ||| (1#64 <<< i)) n fuel

/-- READY (R380, R388): then ROLLBACK is raised to the floor of the stage-1 component that runs (R382). -/
def State.becomeReady (s : State) : State :=
  { s with boot := { s.boot with stage := 7, tready := (Config.free 7 s.tick).extractLsb' 0 32, wantsPlan := false }
           rollback := raiseBits s.rollback s.boot.floor.toNat 64 }

/-- Step 5 of R380 ends with a generation and a plan in force. -/
def State.standUnder (s : State) (gen : BitVec 32) (p : BitVec 4) : State := { s with tgen := gen, plan := p }.becomeReady

/-- LEADER_PLAN_REPLY. -/
def execLeaderPlanReply (gen : BitVec 32) (plan : PlanTable) (s : State) : Host.Outcome State Fault Refusal :=
  .next (if s.boot.stage == 5 && s.boot.wantsPlan then
      { s with plans := Maps.put s.plans plan.plan.toNat (plan.entries.foldl (fun (m : FMap (BitVec 16)) (e : Nat × BitVec 16) => Maps.put m e.1 e.2) []) }.standUnder gen plan.plan
    else s)

/-- LEADER_UNREACHABLE_TIMEOUT: plan 0 and tgen 0. -/
def execLeaderUnreachableTimeout (s : State) : Host.Outcome State Fault Refusal :=
  .next (if s.boot.stage == 5 && s.boot.wantsPlan then s.standUnder 0 0 else s)

end Sys2Proof.Machine
end

