-- ==== Sys2Proof/Machine/Belfry.lean ====
section
/-!
DEFINITION. Placing work: the Belfry's dispatch rounds and hand-overs, the cluster dispatchers, image switches, deques and
stealing (R25, R50 to R65, R237, R275, R277).
-/
namespace Sys2Proof.Machine

/-! ### What a core can take (R56, R60, R65) -/

/-- Window words allocated on a core. -/
def State.usedWords (s : State) (k : BitVec 13) : Nat :=
  (s.strands.map fun p => if p.2.bound && p.2.core == k then p.2.words else 0).sum
/-- Has the core's window file room for so many words? -/
def State.wordsFit (s : State) (k : BitVec 13) (n : Nat) : Bool := decide (s.usedWords k + n ≤ 2048)
/-- The free slots of a core. -/
def Core.freeSlots (c : Core) : List (BitVec 3) :=
  ((List.range 8).map (BitVec.ofNat 3)).filter fun i => (c.slots[i.toNat]'(i.isLt)).isNone
/-- Does the core hold the image, with no switch under way? DESIGN CHOICE (log entry 87): the image is its number, so that a core which
held it before it was unloaded holds a file loaded later under the same number as well. -/
def Core.holds (c : Core) (image : BitVec 16) : Bool := c.switching.isNone && c.image == image
/-- May the core switch to another image (R65)? An OVLD copy whose strand has gone does not stop it: the copy then completes in the new
image's store (log entry 97). -/
def State.maySwitch (s : State) (k : BitVec 13) : Bool :=
  let c := s.core k
  s.canIssue k && c.switching.isNone && c.slots.toList.all Option.isNone && c.deque.isEmpty
    && s.strands.all fun p => !(p.2.bound && p.2.core == k && p.2.words != 0)
/-- Free physical tiles of an Anvil. -/
def Anvil.freeTiles (v : Anvil) : Nat := (v.tiles.toList.filter (· == .free)).length

/-- Has the core's Anvil `n` free tiles, where no self-test fences it (R372)? -/
def State.tilesFor (s : State) (k : BitVec 13) (n : Nat) : Bool :=
  decide (n ≤ (s.anvil (coreAnvil k)).freeTiles) && (n == 0 || !s.fencedAnvil (coreAnvil k))

/-- The core meets R56 for a node, and no self-test fences it (R372). -/
def State.meets (s : State) (k : BitVec 13) (n : NodeRec) : Bool :=
  let c := s.core k
  s.canIssue k && !c.freeSlots.isEmpty && s.wordsFit k (winWords (NodeRec.win n)) && s.tilesFor k (NodeRec.tiles n)
    && (c.holds (NodeRec.image n) || s.maySwitch k)

/-- The clusters of a die. -/
def dieClusters (d : BitVec 3) : List (BitVec 9) := (List.range 64).map fun i => d ++ BitVec.ofNat 6 i

/-- Can the cluster take the node (R56, R58)? -/
def State.canTake (s : State) (cl : BitVec 9) (n : NodeRec) : Bool :=
  s.inService cl && decide ((s.cluster cl).queue.length ≤ 32) && (clusterCores cl).any fun k => s.meets k n

/-- Keep the entries that `p` prefers, if there are any. -/
def prefer {α : Type} (p : α → Bool) (l : List α) : List α := if (l.filter p).isEmpty then l else l.filter p
/-- The first entry of least weight. -/
def least {α : Type} (w : α → Nat) (l : List α) : Option α :=
  l.foldl (fun best x => match best with | none => some x | some y => if w x < w y then some x else some y) none

/-- The cluster that homes block 0 of the input that AFFK 3 names. -/
def State.homeCl (s : State) (n : NodeRec) (args : Vector Word 8) : Option (BitVec 9) :=
  if NodeRec.affk n = 3 then
    match s.placeOf (RangeDesc.handle (NodeRec.inp n ((NodeRec.affv n).extractLsb' 0 3).toNat) args 0) permR with
    | some (.dom c _) => some c
    | some (.pad c _) => some c
    | _ => none
  else none

/-- The cluster R56 chooses for a node on a die. -/
def State.chooseCluster (s : State) (d : BitVec 3) (n : NodeRec) (args : Vector Word 8) : Option (BitVec 9) :=
  let named : BitVec 9 → Bool := fun c => NodeRec.affk n == 2 && c == (NodeRec.affv n).extractLsb' 0 9
  let home := s.homeCl n args
  let l := (dieClusters d).filter fun c => s.canTake c n
  let l1 := prefer (fun c => some c == home) (prefer named l)
  let l2 := prefer (fun c => (clusterCores c).any fun k => (s.core k).holds (NodeRec.image n)) l1
  least (fun c => (s.cluster c).queue.length) l2

/-! ### The Belfry (R52, R55 to R57, R64, R237) -/

/-- Is the block FULL at the handle's generation? One of another module is, as far as its module finds it so (R237). -/
def State.fullNow (s : State) (h : Word) (p : Place) : Bool :=
  match p with
  | .dom cl blk =>
    let b := match Maps.get (s.cluster cl).res blk with | some x => x.b | none => (s.effective cl blk).1
    b.full && b.gen == Handle.gen h
  | .off _ => true
  | .pad _ _ => false
/-- PREF of a node's FULL watched inputs into a cluster (R56, R237). -/
def State.prefInputs (s : State) (n : NodeRec) (args : Vector Word 8) (cl : BitVec 9) : State :=
  ((NodeRec.watched n).flatMap fun d => RangeDesc.handles d args).foldl (fun t h =>
    match (if Handle.space h == 0#3 then t.placeOf h permR else none) with
    | none => t
    | some p => if t.fullNow h p then t.prefetch h p (some cl) else t) s

/-- WATCHER_WAKE (R52): the missing-input count drops; at zero the node instance is ready, at one its inputs are fetched. -/
def execWatcherWake (m : Nat) (s : State) : Host.Outcome State Fault Refusal :=
  match Maps.get s.net m with
  | some (.fire d n) =>
    let s1 := (s.take m).rouse d
    match s1.node n with
    | none => .next s1
    | some nd =>
      if nd.stage ≠ .waiting then .next s1
      else
        let s2 := s1.setNode n { nd with missing := nd.missing - 1 }
        if nd.missing ≤ 1 then .next (s2.enqueueReady n)
        else if nd.missing = 2 then
          match s2.nodeRec nd with
          | none => .next s2
          | some (r, i) =>
            .next (match s2.chooseCluster nd.owner r i.args with
              | none => s2
              | some cl => s2.prefInputs r i.args cl)
        else .next s2
  | _ => .next s

/-- May a node instance be dispatched: its instance is answered and not quenched (R48, R50, R321)? -/
def State.dispatchable (s : State) (n : BitVec 32) : Bool :=
  match s.node n with
  | none => false
  | some nd =>
    (match s.inst nd.inst with | none => false | some i => !i.quenched)
      && match s.starting with | none => true | some x => x.inst != nd.inst

/-- The skip count of a node instance. -/
def State.skips (s : State) (n : BitVec 32) : Nat := (s.node n).elim 0 Node.skip

/-- What a round examines, in order (R55): the first eight of each queue from priority 3 down; an entry with 256 skips, of several the
one nearest the head, shuts out the rest of its queue and the lower ones. DESIGN CHOICE (log entry 86): an entry that may not be
dispatched now, a victim's or one of an instance that is being started, is examined like the others and gains skips. -/
def State.examined (s : State) (d : Die) (p : Nat) : List (BitVec 32) :=
  match p with
  | 0 => []
  | p + 1 =>
    let q := (d.ready[p]?.getD []).take 8
    match q.find? fun n => decide (256 ≤ s.skips n) with
    | some n => [n]
    | none => q ++ s.examined d p

/-- The node record, arguments and cluster for an entry, if it may be dispatched and some cluster can take it. DESIGN CHOICE (log entry
86): one that may not be dispatched has no choice, and is passed over like one that no cluster can take. -/
def State.choice (s : State) (d : BitVec 3) (n : BitVec 32) : Option (NodeRec × Instance × BitVec 9) :=
  match (if s.dispatchable n then s.node n else none) with
  | none => none
  | some nd =>
    match s.nodeRec nd with
    | none => none
    | some (r, i) => (s.chooseCluster d r i.args).map fun c => (r, i, c)

/-- An entry was examined and passed over. -/
def State.skipped (s : State) (n : BitVec 32) : State :=
  match s.node n with
  | none => s
  | some nd => s.setNode n { nd with skip := nd.skip + 1 }

/-- An entry leaves its die's ready queues. -/
def State.unready (s : State) (d : BitVec 3) (n : BitVec 32) : State :=
  s.setDie d { s.die d with ready := (s.die d).ready.map fun (q : List (BitVec 32)) => q.filter (· != n) }

/-- Reserve `k` tiles for a node, the lowest free ones (R56). -/
def reserveTiles (v : Vector TileUse 16) (n : BitVec 32) (k : Nat) : Vector TileUse 16 :=
  match k with
  | 0 => v
  | k + 1 =>
    match (List.finRange 16).find? fun i => v[i.val] == .free with
    | none => v
    | some i => reserveTiles (v.set i.val (.reserved n) i.isLt) n k

/-- The record of a root strand (R64). -/
def rootRecord (n : BitVec 32) (nd : Node) (r : NodeRec) (args : Vector Word 8) (image : List Byte) (tracker : Nat) (cl : BitVec 9) : Strand :=
  let hs := (NodeRec.inputs r ++ NodeRec.outputs r).map fun d => RangeDesc.handle d args 0
  let regs : Vector Word 16 := Vector.ofFn fun i : Fin 16 =>
    if i.val = 0 then n.zeroExtend 64 else if i.val = 1 then nd.inst.zeroExtend 64
    else if i.val < 8 then 0 else hs.getD (i.val - 8) nullHandle
  { Strand.blank with
    regs := regs, pc := Image.entry image (NodeRec.entry r), image := NodeRec.image r, prio := NodeRec.prio r, win := NodeRec.win r
    steal := NodeRec.steal r, node := n, tracker := tracker, core := clusterCore cl 0, root := true, loc := .queue cl }

/-- Dispatch a node instance to a cluster (R56, R64, R363): tiles reserved at one quad, the root strand in the queue, PREF. -/
def State.dispatchNode (s : State) (d : BitVec 3) (n : BitVec 32) (r : NodeRec) (i : Instance) (cl : BitVec 9) (quad : BitVec 2) : State :=
  match s.node n with
  | none => s
  | some nd =>
    let quads := (quad :: [0#2, 1#2, 2#2, 3#2]).map fun q => (cl ++ q : BitVec 11)
    match quads.find? fun a => (quadCores a).any fun k => s.meets k r with
    | none => s
    | some a =>
      let s1 := ((s.rouse d).unready d n).setNode n { nd with stage := .running, cluster := some cl, anvil := some a }
      let v := s1.anvil a
      let q := (s1.setAnvil a { v with tiles := reserveTiles v.tiles n (NodeRec.tiles r) }).newTracker cl
      let id := q.2.fresh
      let image := Maps.getD s.images (NodeRec.image r).toNat []
      let s2 := { q.2 with fresh := id + 1 }.setStrand id (rootRecord n nd r i.args image q.1 cl)
      let c := s2.cluster cl
      (s2.setCluster cl { c with queue := c.queue ++ [id] }).prefInputs r i.args cl

/-- BELFRY_DISPATCH_ROUND (R55); first the Belfry sends what waits for room at a home (R255). -/
def execBelfryDispatchRound (die : BitVec 3) (quad : BitVec 2) (s0 : State) : Host.Outcome State Fault Refusal :=
  if !(s0.die die).alive then .next s0
  else
    let s := s0.pumpBelfry die
    let l := s.examined (s.die die) 4
    let passed := l.takeWhile fun n => (s.choice die n).isNone
    let s1 := passed.foldl (fun t n => t.skipped n) s
    match l.drop passed.length with
    | [] => .next s1
    | n :: _ =>
      match s.choice die n with
      | none => .next s1
      | some (r, i, cl) => .next (s1.dispatchNode die n r i cl quad)

/-- BELFRY_HANDOVER (R57): no cluster of the die can take the entry, and one of the other die can. -/
def execBelfryHandover (die dest : BitVec 3) (node : BitVec 32) (s : State) : Host.Outcome State Fault Refusal :=
  match s.node node with
  | none => .next s
  | some nd =>
    if nd.owner = die && nd.stage = .ready && dest != die && (s.die dest).alive && (s.choice die node).isNone && (s.choice dest node).isSome
    then .next ((((s.rouse dest).unready die node).setNode node { nd with owner := dest, skip := 0 }).enqueueReady node)
    else .next s

/-! ### Records at a dispatcher (R58) -/

/-- Bytes of a record in the spill area (R58): the bare record of R62 and the window words that it carries (log entry 85). -/
def State.recBytes (s : State) (r : Nat) : Nat :=
  match s.strand r with
  | none => 192
  | some st => if st.bound then 192 else 192 + 4 * st.words
/-- Has the queue or its spill area of 96 KiB room for a record? -/
def State.queueRoom (s : State) (cl : BitVec 9) (r : Nat) : Bool :=
  let q := (s.cluster cl).queue
  decide (q.length < 64) || decide (((q.drop 64).map s.recBytes).sum + s.recBytes r ≤ 98304)

/-- A record joins the queue. -/
def State.enqueueRec (s : State) (r : Nat) (st : Strand) (cl : BitVec 9) : State :=
  let s1 := s.unlist r
  let c := s1.cluster cl
  (s1.setCluster cl { c with queue := c.queue ++ [r] }).setStrand r { st with loc := .queue cl }

/-- A record finds no room: it waits in the order of the offers, a migrating or stolen one in the outbound buffer of the core that sent
it. -/
def State.delayRec (s : State) (r : Nat) (st : Strand) (cl : BitVec 9) : State :=
  let c := s.cluster cl
  if c.waiting.contains r then s
  else
    let s1 := s.setCluster cl { c with waiting := c.waiting ++ [r] }
    match st.loc with
    | .migrating _ k => s1.setCore k { s1.core k with outbuf := (s1.core k).outbuf ++ [r] }
    | _ => s1

/-- A record is offered to a dispatcher, whose die it wakes, behind those that already wait for it (R58, R363); a victim's too, which is
saved once it stands in the queue (R322). -/
def State.offerRec (s0 : State) (r : Nat) (st : Strand) (cl : BitVec 9) : State :=
  let s := s0.rouse (clusterDie cl)
  let first := match (s.cluster cl).waiting with | [] => true | w :: _ => w == r
  if first && s.queueRoom cl r then s.enqueueRec r st cl else s.delayRec r st cl

/-- DISPATCHER_ACCEPT (R58). -/
def execDispatcherAccept (rec : Nat) (s : State) : Host.Outcome State Fault Refusal :=
  match s.strand rec with
  | none => .next s
  | some st =>
    match st.loc with
    | .arriving cl => .next (s.offerRec rec st cl)
    | .migrating cl _ => .next (s.offerRec rec st cl)
    | _ => .next s

/-! ### Placement (R59 to R61, R65, R275) -/

/-- The bottom record of a core's deque, when a free slot can take it now. -/
def State.poppable (s : State) (k : BitVec 13) : Option (Nat × Strand) :=
  match (s.core k).deque with
  | [] => none
  | r :: _ =>
    match s.strand r with
    | none => none
    | some st => if s.wordsFit k st.words && !s.victim st then some (r, st) else none

/-- Words that placing a record on a core allocates. -/
def Strand.newWords (st : Strand) : Nat := if st.bound then 0 else st.words

/-- Can the dispatcher put this record on core `k` now? -/
def State.qualifies (s : State) (k : BitVec 13) (st : Strand) : Bool :=
  let c := s.core k
  s.canIssue k && c.holds st.image && !c.freeSlots.isEmpty && (s.poppable k).isNone && s.wordsFit k st.newWords
    && s.tilesFor k st.tcnt

/-- The cores a record may go to, whatever they hold (R59). -/
def State.homesFor (s : State) (cl : BitVec 9) (st : Strand) : List (BitVec 13) :=
  if st.bound then [st.core]
  else if st.root then
    match s.node st.node with
    | some nd =>
      match s.nodeRec nd, nd.anvil with
      | some (r, _), some a => if NodeRec.tiles r = 0 then clusterCores cl else quadCores a
      | _, _ => clusterCores cl
    | none => clusterCores cl
  else clusterCores cl

/-- The core R59 chooses for a record. -/
def State.coreFor (s : State) (cl : BitVec 9) (st : Strand) : Option (BitVec 13) :=
  let l := (s.homesFor cl st).filter fun k => s.qualifies k st
  if st.root then least (fun k => 8 - (s.core k).freeSlots.length) l
  else (prefer (fun k => k == st.core) l).head?

/-- The records of a dispatcher in the order it serves them (R59); it places no victim's (R321). -/
def State.served_ (s : State) (cl : BitVec 9) : List (Nat × Strand) :=
  let q := ((s.cluster cl).queue.filterMap fun r => (s.strand r).map fun st => (r, st)).filter fun x => !s.victim x.2
  [3#2, 2#2, 1#2, 0#2].flatMap fun p =>
    (q.filter fun x => x.2.prio == p && !x.2.root) ++ q.filter fun x => x.2.prio == p && x.2.root

/-- The record the dispatcher places next, and its core. -/
def State.pick (s : State) (cl : BitVec 9) : Option (Nat × Strand × BitVec 13) :=
  (s.served_ cl).findSome? fun x => (s.coreFor cl x.2).map fun k => (x.1, x.2, k)

/-- The physical tiles of a record that comes back with tiles: the lowest free ones of the quad. -/
def takeTiles (v : Vector TileUse 16) (r : Nat) (ts : List (Option Tile)) : Vector TileUse 16 × List (Option Tile) :=
  match ts with
  | [] => (v, [])
  | none :: l => let q := takeTiles v r l; (q.1, none :: q.2)
  | some t :: l =>
    match (List.finRange 16).find? fun i => v[i.val] == .free with
    | none => let q := takeTiles v r l; (q.1, some t :: q.2)
    | some i =>
      let q := takeTiles (v.set i.val (.held r none) i.isLt) r l
      (q.1, some { t with phys := BitVec.ofNat 4 i.val, reserved := false } :: q.2)

/-- A record takes a slot of a core (R60): window words, tiles, the rotation. -/
def State.placeRec (s : State) (r : Nat) (st : Strand) (k : BitVec 13) (slot : BitVec 3) : State :=
  let s1 := (s.unlist r).rouseCore k
  let c := s1.core k
  let a := coreAnvil k
  let v := s1.anvil a
  let q := takeTiles v.tiles r st.tiles.toList
  let s2 := (s1.setCore k { c with slots := c.slots.set slot.toNat (some r) slot.isLt }).setAnvil a { v with tiles := q.1 }
  let tiles : Vector (Option Tile) 8 := Vector.ofFn fun i : Fin 8 => q.2.getD i.val none
  let s3 := s2.setStrand r { st with loc := .slot k slot, core := k, bound := decide (st.words ≠ 0), root := false, tiles := tiles }
  if st.root then
    match s3.node st.node with
    | none => s3
    | some nd => s3.setNode st.node { nd with live := 1 }
  else s3

/-- The slot that is taken: the wanted one, or the lowest free one. -/
def Core.slotFor (c : Core) (slot : BitVec 3) : BitVec 3 :=
  if c.freeSlots.contains slot then slot else c.freeSlots.headD slot

/-- A record at the head of a priority for which no core that holds its image qualifies, and the core that may switch to it:
the one idle longest, of equals the lowest number (R65; log entry 87). -/
def State.switchFor (s : State) (cl : BitVec 9) : Option (BitVec 16 × BitVec 13) :=
  [3#2, 2#2, 1#2, 0#2].findSome? fun p =>
    match (s.served_ cl).find? fun x => x.2.prio == p with
    | none => none
    | some (_, st) =>
      let l := s.homesFor cl st
      if (s.coreFor cl st).isSome || st.bound || l.any fun k => (s.core k).switching == some st.image then none
      else (least (fun k => (s.core k).idleSince) (l.filter s.maySwitch)).map fun k => (st.image, k)

/-- DISPATCHER_PLACE: the next record that qualifies takes a slot. DESIGN CHOICE (log entry 87): only when none does, a core may start to
switch its image (R65). -/
def execDispatcherPlace (cl : BitVec 9) (slot : BitVec 3) (s : State) : Host.Outcome State Fault Refusal :=
  if !s.inService cl then .next s
  else match s.pick cl with
    | some (r, st, k) => .next (s.placeRec r st k ((s.core k).slotFor slot))
    | none =>
      match s.switchFor cl with
      | none => .next s
      | some (image, k) => .next ((s.rouseCore k).setCore k { s.core k with switching := some image })

/-- The core-private store under an image (R25): zeros, the code, the data section. -/
def Image.store (b : List Byte) : Memory :=
  let code := (b.drop (Image.codeoff b)).take (Image.codesz b)
  let data := (b.drop (Image.codeoff b + Image.codesz b)).take (Image.datasz b)
  Mem.setBytes (Mem.setBytes [] 0 code) (Image.database b) data

/-- IMAGE_SWITCH_DONE (R25). -/
def execImageSwitchDone (core : BitVec 13) (s : State) : Host.Outcome State Fault Refusal :=
  let c := s.core core
  match c.switching with
  | none => .next s
  | some i =>
    let b := Maps.getD s.images i.toNat []
    .next (s.setCore core
      { c with store := Image.store b, xb := BitVec.ofNat 32 (Image.codesz b), trapbase := BitVec.ofNat 32 (Image.trapbase b),
               database := BitVec.ofNat 32 (Image.database b), image := i, switching := none })

/-! ### Deques (R275, R277) -/

/-- DEQUE_POP: the bottom record goes to a free slot of its core, the first source of R275. -/
def execDequePop (core : BitVec 13) (slot : BitVec 3) (s : State) : Host.Outcome State Fault Refusal :=
  let c := s.core core
  if c.freeSlots.isEmpty || !s.canIssue core then .next s
  else match s.poppable core with
    | none => .next s
    | some (r, st) => .next (s.placeRec r st core (c.slotFor slot))

/-- How far two cores stand apart: 1 in a quad, 2 in a cluster, 3 on a die, 4 in the module (R27, R277). -/
def distance (a b : BitVec 13) : Nat :=
  if coreAnvil a = coreAnvil b then 1
  else if coreCluster a = coreCluster b then 2
  else if coreDie a = coreDie b then 3
  else 4

/-- The top record of a victim's deque, when the thief may take it (R277): inside the steal domain, its image held, room for its
window words in the same cluster, no record in the outbound buffer of the victim's core, which sends a stolen record to another cluster
(R58; log entry 98). -/
def State.stealable (s : State) (thief victim : BitVec 13) : Option (Nat × Strand) :=
  match (s.core victim).deque.getLast? with
  | none => none
  | some r =>
    match s.strand r with
    | none => none
    | some st =>
      let d := distance thief victim
      if thief != victim && decide (d ≤ st.steal.toNat) && (s.core thief).holds st.image && !s.victim st
          && (if d ≤ 2 then s.wordsFit thief st.words else (s.core victim).outbuf.isEmpty)
      then some (r, st) else none

/-- The victim of one level that a thief takes in turn: the first after the one it took last whose record it may take (R277). -/
def State.victimAt (s : State) (thief : BitVec 13) (level : Nat) (last : BitVec 13) : Option (BitVec 13) :=
  let l := (s.cores.map fun p => BitVec.ofNat 13 p.1).filter fun k => distance thief k == level && (s.stealable thief k).isSome
  match l.find? fun k => decide (last.toNat < k.toNat) with
  | some k => some k
  | none => l.head?

/-- The victim a thief finds, nearest first, and its level. -/
def State.victimOf (s : State) (thief : BitVec 13) : Option (Fin 4 × BitVec 13) :=
  (List.finRange 4).findSome? fun i => (s.victimAt thief (i.val + 1) (s.core thief).victims[i]).map fun k => (i, k)

/-- Would the dispatcher, serving its queue in the order of R59, put one of its next `n` records on the core? -/
def State.serves (cl : BitVec 9) (core : BitVec 13) (n : Nat) (s : State) : Bool :=
  match n with
  | 0 => false
  | n + 1 =>
    match s.pick cl with
    | none => false
    | some (r, st, k) => k == core || (s.placeRec r st k ((s.core k).slotFor 0)).serves cl core n

/-- STEAL_ATTEMPT: only when the thief's own deque and its dispatcher have nothing for the slot, and only from the victim whose turn it is
(R275, R277). -/
def execStealAttempt (core victim : BitVec 13) (slot : BitVec 3) (s : State) : Host.Outcome State Fault Refusal :=
  let c := s.core core
  let cl := coreCluster core
  if c.freeSlots.isEmpty || !s.canIssue core || (s.poppable core).isSome || s.serves cl core (s.cluster cl).queue.length then .next s
  else match s.victimOf core with
    | none => .next s
    | some (i, v) =>
      match (if v = victim then s.stealable core victim else none) with
      | none => .next s
      | some (r, st) =>
        let s1 := s.unlist r
        let k := s1.core core
        let s2 := s1.setCore core { k with perf5 := k.perf5 + 1, victims := k.victims.set i.val victim i.isLt }
        if i.val < 2 then .next (s2.placeRec r st core (c.slotFor slot))
        else .next (s2.setStrand r { st with loc := .migrating (coreCluster core) victim, core := victim })

end Sys2Proof.Machine
end

