-- ==== Sys2Proof/Machine/Quench.lean ====
section
/-!
DEFINITION. Quenching instances for pre-emption and time slices, and resuming them (R320 to R322, R336). The marking of a victim
stops its strands in the same step; SAVEREC of every cluster and the closes after it are one step (log entry 27).
-/
namespace Sys2Proof.Machine

/-! ### Stopping a strand (R322) -/

/-- The record, with its extensions, moves to its cluster's record store. -/
def State.storeRec (s : State) (r : Nat) : State :=
  match s.strand r with
  | none => s
  | some st =>
    if st.inSlot then
      ((s.freeTiles r).unlist r).setStrand r { st with loc := .store st.clusterOf, core := st.home, bound := false }
    else s.setStrand r { st with bound := false }

/-- A record on a fault queue stays there, without core state. -/
def State.storeFaulted (s : State) (r : Nat) : State :=
  match s.strand r with
  | none => s
  | some st =>
    let s1 := if st.inSlot then { s.freeTiles r with cores := Maps.map s.cores fun _ c =>
        { c with slots := c.slots.map fun o => if o == some r then none else o } } else s
    s1.setStrand r { st with loc := .faultq (clusterDie st.clusterOf), core := st.home, bound := false }

/-- Is this a read that a quench abandons? -/
def abandons (i : Instr) : Bool :=
  match i with
  | .probe _ => true
  | .genr _ => true
  | i => readsData i

/-- One strand stops as the table of R322 gives. -/
def State.stop (s : State) (r : Nat) : State :=
  match s.strand r with
  | none => s
  | some st =>
    let here := s.setStrand r { st with wait := .run }
    match st.wait with
    | .run => s
    | .divider _ => s
    | .walk _ _ => here
    | .reply i _ _ => if abandons i then here.abandon r else s.storeRec r
    | .command _ sent _ _ => if sent then s else s.withdraw r
    | .parked _ _ => s.storeRec r
    | .closing _ _ => here
    | .keep _ => s.storeRec r
    | .overlay _ => s.storeRec r
    | .proxy _ => s.storeRec r
    | .send _ _ => here
    | .go => here
    | .rcir _ => s.storeRec r
    | .fault _ _ => s.storeFaulted r
    | .skip => here

/-- The records of an instance. -/
def State.recordsOf (s : State) (n : BitVec 32) : List Nat :=
  (s.strands.filter fun p => match s.node p.2.node with | none => false | some nd => nd.inst == n).map Prod.fst

/-- Steps 1 and 2 of R321 for one instance. -/
def State.quenchInst (s : State) (n : BitVec 32) (waits : List (BitVec 32)) : State :=
  match s.inst n with
  | none => s
  | some i =>
    let s1 := s.setInst n { i with quenched := true }
    let q := match s1.quench with
      | none => { victims := [n], saved := false, waits := waits }
      | some q => { victims := q.victims ++ [n], saved := false, waits := q.waits ++ waits }
    (s1.recordsOf n).foldl (fun t r => t.stop r) { s1 with quench := some q }

/-! ### Whom to quench (R320) -/

/-- The priority of an instance: the highest among its nodes. -/
def State.instPrio (s : State) (i : Instance) : Nat :=
  match Maps.get s.graphs i.graph.toNat with
  | none => 0
  | some g => g.nodes.foldl (fun m n => max m (NodeRec.prio n).toNat) 0
/-- The priority of a node instance. -/
def State.nodePrio (s : State) (n : BitVec 32) : Nat :=
  match s.node n with
  | none => 0
  | some nd => match s.nodeRec nd with | none => 0 | some (r, _) => (NodeRec.prio r).toNat

/-- Is a ready node instance that may be dispatched at the heads of its Belfry's queues with no cluster able to take it? -/
def State.starved (s : State) (n : BitVec 32) : Bool :=
  match s.node n with
  | none => false
  | some nd => nd.stage == .ready && s.dispatchable n && (s.examined (s.die nd.owner) 4).contains n && (s.choice nd.owner n).isNone
/-- The node instances that wait so. -/
def State.starving (s : State) : List (BitVec 32) := (s.nodes.map fun p => BitVec.ofNat 32 p.1).filter s.starved

/-- May a quench begin: none is under way, or its records are saved? -/
def State.mayQuench (s : State) : Bool :=
  match s.quench with
  | none => true
  | some q => q.saved

/-- The running instance of lowest priority below `p`, the one started last among equals. -/
def State.lowestBelow (s : State) (p : Nat) (own : BitVec 32) : Option (BitVec 32) :=
  (s.instances.foldl (fun (best : Option (BitVec 32 × Nat × Nat)) x =>
    let k := BitVec.ofNat 32 x.1
    let v := s.instPrio x.2
    if x.2.quenched || k == own || decide (p ≤ v) then best
    else match best with
      | none => some (k, v, x.2.started)
      | some b => if v < b.2.1 || (v == b.2.1 && decide (b.2.2 ≤ x.2.started)) then some (k, v, x.2.started) else best) none).map Prod.fst

/-- PREEMPT_WAIT_EXPIRY. -/
def execPreemptWaitExpiry (node : BitVec 32) (s : State) : Host.Outcome State Fault Refusal :=
  match s.node node with
  | none => .next s
  | some nd =>
    if s.mayQuench && s.starved node then
      match s.lowestBelow (s.nodePrio node) nd.inst with
      | none => .next s
      | some v => .next (s.quenchInst v [node])
    else .next s

/-- TIME_SLICE_EXPIRY: nothing happens when no node instance of another instance waits. -/
def execTimeSliceExpiry (inst : BitVec 32) (s : State) : Host.Outcome State Fault Refusal :=
  match s.inst inst with
  | none => .next s
  | some i =>
    let w := s.starving.filter fun n => match s.node n with | none => false | some nd => nd.inst != inst
    if i.slice = 0 || i.quenched || !s.mayQuench || w.isEmpty then .next s
    else .next ((s.quenchInst inst w).tellKeep 4 inst.toNat)

/-! ### Saving and resuming (R321, R322) -/

/-- The victims' records. -/
def State.victimRecs (s : State) : List Nat := (s.strands.filter fun p => s.victim p.2).map Prod.fst

/-- Is a record on its way to a dispatcher (R322)? -/
def Strand.inFlight (st : Strand) : Bool :=
  match st.loc with
  | .arriving _ => true
  | .migrating _ _ => true
  | _ => false
/-- Has every victim strand in a slot come to its instruction boundary? -/
def State.halted (s : State) (k : Strand → Bool) : Bool :=
  s.strands.all fun p => !(s.victim p.2 && p.2.inSlot && k p.2) || p.2.wait == .run
/-- Is a victim's record still in flight to a dispatcher's queue, where it is saved (R322)? -/
def State.victimInFlight (s : State) : Bool := s.strands.any fun p => s.victim p.2 && p.2.inFlight

/-- Does a record stand where SAVEREC takes it: in a slot, on a deque, in a dispatcher queue? -/
def Strand.savable (st : Strand) : Bool :=
  match st.loc with
  | .slot _ _ => true
  | .deque _ => true
  | .queue _ => true
  | _ => false

/-- A record goes to the save pool; its core state is free. A root strand is live from now on (R355). -/
def State.saveOne (s : State) (r : Nat) : State :=
  match s.strand r with
  | none => s
  | some st =>
    if st.savable then
      let c := st.clusterOf
      let s1 := ((s.freeTiles r).unlist r).setStrand r
        { st with loc := .saved (clusterDie c) c, core := st.home, bound := false, root := false, wait := .run }
      let s2 := { s1 with savePool := s1.savePool ++ [r] }
      match (if st.root then s2.node st.node else none) with
      | none => s2
      | some nd => s2.setNode st.node { nd with live := 1 }
    else s

/-- QUENCH_DONE: every victim strand has halted; what stands on cores, deques and queues is saved, which makes room for the records that
wait for a queue (R58), and once no victim record is in flight the quench is done. -/
def execQuenchDone (s : State) : Host.Outcome State Fault Refusal :=
  match s.quench with
  | none => .next s
  | some q =>
    if q.saved || !s.halted (fun _ => true) then .next s
    else
      let s1 := s.victimRecs.foldl (fun t r => t.saveOne r) s
      if s1.victimInFlight then .next s1
      else
        let nodes := (s1.nodes.filter fun p => q.victims.contains p.2.inst).map fun p => BitVec.ofNat 32 p.1
        let s2 := s1.freeReservations nodes
        .next ({ s2 with quench := some { q with saved := true } }.tellKeep 5 s2.tick)

/-- A saved or held record returns to the dispatcher of its cluster (R58, R334). -/
def State.releaseRec (s : State) (r : Nat) : State :=
  match s.strand r with
  | none => s
  | some st =>
    match st.loc with
    | .saved _ c => (s.unlist r).toDispatcher r c
    | .held c => (s.unlist r).toDispatcher r c
    | _ => s

/-- QUENCH_RESUME: the quenched instance of highest priority resumes, when the work it made room for has been dispatched, no waiting node
instance has a higher priority, and no self-test that it was quenched for runs (R372, R373). -/
def execQuenchResume (s : State) : Host.Outcome State Fault Refusal :=
  match s.quench with
  | none => .next s
  | some q =>
    let prio : BitVec 32 → Nat := fun n => (s.inst n).elim 0 s.instPrio
    match least (fun n => 3 - prio n) q.victims with
    | none => .next s
    | some v =>
      let blocked := s.tests.any (fun t => t.moved.contains v)
        || q.waits.any (fun n => match s.node n with | none => false | some nd => nd.stage == .ready && s.dispatchable n)
        || s.starving.any fun n => decide (prio v < s.nodePrio n)
      if !q.saved || blocked then .next s
      else
        match s.inst v with
        | none => .next s
        | some i =>
          let left := q.victims.filter (· != v)
          let s1 := { s with quench := if left.isEmpty then none else some { q with victims := left } }.setInst v { i with quenched := false }
          .next ((s1.recordsOf v).foldl (fun t r => t.releaseRec r) s1)

end Sys2Proof.Machine
end

