-- ==== Sys2Proof/Machine/Service.lean ====
section
/-!
DEFINITION. Keeping the part in service: error reports, poison, scrubbing, self-tests and spares, refresh alerts, the loss of a
die (R256, R365 to R377, R379).
-/
namespace Sys2Proof.Machine

/-! ### Units and error records (R370, R371) -/

/-- Does a record name the unit? Of an HBM row its word names the stack and its address the row (R370, R371). -/
def UnitId.names (u : UnitId) (r : BitVec 256) : Bool :=
  r.extractLsb' 0 23 == (UnitId.word u 0).extractLsb' 0 23 && (u.unit != 6#8 || r.extractLsb' 64 24 == u.row)
/-- The latest error record of a unit, by its number. -/
def State.recordOf (s : State) (u : UnitId) : Option Nat :=
  (List.range (min 1024 s.errHead.toNat)).findSome? fun i =>
    let k := s.errHead.toNat - 1 - i
    match Maps.get s.errLog (k % 1024) with
    | none => none
    | some r => if UnitId.names u r then some k else none
/-- The outcome of R372 enters the unit's error records, those that came before and during the test: its records from number `k` on. -/
def State.setOutcome (s : State) (u : UnitId) (k : Nat) (outcome : BitVec 8) : State :=
  (List.range (min 1024 (s.errHead.toNat - k))).foldl (fun t i =>
    match Maps.get t.errLog ((k + i) % 1024) with
    | none => t
    | some r =>
      if UnitId.names u r then
        { t with errLog := Maps.put t.errLog ((k + i) % 1024) (r.extractLsb' 144 112 ++ outcome ++ r.extractLsb' 0 136) }
      else t) s

/-- A test of the unit has ended: its records have their outcome, and the next test needs a new report (R371, R372). -/
def State.closeTest (s : State) (u : UnitId) (k : Nat) (outcome : BitVec 8) : State :=
  let t := s.setOutcome u k outcome
  { t with tested := Maps.put t.tested (UnitId.key u) t.errHead.toNat }

/-! ### Poison (R256, R367, R368) -/


/-- A block's state at its home, resident or not, with its stubs. -/
def State.stateAt (s : State) (cl : BitVec 9) (blk : Nat) : Block :=
  match Maps.get (s.cluster cl).res blk with
  | some x => x.b
  | none => (s.effective cl blk).1
/-- The same when its presence tag is lost: generation by PW or PWCOPY in HBM (R368). -/
def State.stateLost (s : State) (cl : BitVec 9) (blk : Nat) : Block :=
  { s.stateAt cl blk with gen := (s.storedPw blk).extractLsb' 2 12 }

/-- A scratchpad block is poisoned; a lost tag has no copy in HBM and leaves generation 0 (R368). The data lost must be of the
generation that stands (R379). -/
def State.poisonSlot (s : State) (cl : BitVec 9) (slot : BitVec 9) (gen : BitVec 12) (lost : Bool) : State :=
  let c := s.cluster cl
  let b := Maps.getD c.pads slot.toNat Block.mapped
  if b.poisoned || (!lost && b.gen != gen) then s
  else
    let a := (if lost then { b with gen := 0 } else b : Block).poison lost []
    (s.setCluster cl { c with pads := Maps.put c.pads slot.toNat a.b }).spread cl (.pad cl slot) a

/-- Log entries and perhaps the descriptor of a block are lost (R367): the stubs in them are handled as in R256. -/
def State.poisonLog (s : State) (cl : BitVec 9) (blk : Nat) (entries : List Nat) (desc : Bool) : State :=
  match Maps.get (s.cluster cl).logs blk with
  | none => s
  | some l =>
    let gone := (l.entries.zipIdx.filter fun e => desc || entries.contains e.2).flatMap fun e =>
      match e.1 with | .stubs _ _ x => x | _ => []
    let b : Block := if desc then { s.hbmState blk with stubs := l.stubs } else { l.desc with stubs := l.stubs }
    s.poisonBlock cl blk b desc gone

/-- What an uncorrectable error does to what it has struck (R367). -/
def State.strike (s : State) (t : ErrTarget) (word : Word) : State :=
  match t with
  | .nothing => s
  | .strand r => s.endOwner r 19 word
  | .entry ns => ns.foldl (fun t n => t.endNode n 19 word) s
  | .block cl blk gen lost =>
    if lost then s.poisonBlock cl blk (s.stateLost cl blk) true []
    else if (s.stateAt cl blk).gen != gen then s
    else s.poisonBlock cl blk (s.stateAt cl blk) false []
  | .slot cl slot gen lost => s.poisonSlot cl slot gen lost
  | .log cl blk entries desc => s.poisonLog cl blk entries desc
  | .copy cl vbn gen =>
    let c := s.cluster cl
    s.setCluster cl { c with copies := Maps.del c.copies (vbn.toNat * 4096 + gen.toNat) }

/-- Does the error end as a poisoned block (R371): the loss strikes what is still of the block's generation, and it is not poisoned yet
(R367, R379)? -/
def State.poisons (s : State) (t : ErrTarget) : Bool :=
  match t with
  | .block cl blk gen lost => !(s.stateAt cl blk).poisoned && (lost || (s.stateAt cl blk).gen == gen)
  | .slot cl slot gen lost =>
    let b := Maps.getD (s.cluster cl).pads slot.toNat Block.mapped
    !b.poisoned && (lost || b.gen == gen)
  | .log cl blk _ _ => (Maps.get (s.cluster cl).logs blk).isSome && !(s.stateAt cl blk).poisoned
  | _ => false

/-- ERROR_REPORT. -/
def execErrorReport (e : ErrorReport) (s : State) : Host.Outcome State Fault Refusal :=
  let kind : BitVec 8 := if e.corrected then 0 else if s.poisons e.target then 2 else 1
  let s1 := s.noteError (UnitId.at_ e.unit e.addr) e.syndrome e.addr kind
  if e.corrected then .next s1
  else .next ((s1.tellKeep 3 s1.errHead.toNat).strike e.target (UnitId.word e.unit e.syndrome))

/-! ### Scrubbing (R366, R377) -/

/-- Does line `n` of HBM hold what is left of the block's value or state: of a resident block its bytes as they were last written, if
its generation is still the one they belong to (R379); else what making it resident needs? -/
def State.scrubHits (s : State) (cl : BitVec 9) (blk n : Nat) : Bool :=
  match Maps.get (s.cluster cl).res blk with
  | some x => x.b.gen == (s.hbmState blk).gen && (s.hbmState blk).lineUsed n
  | none => s.needsLine cl blk n

/-- HBM_SCRUB: a line that is uncorrectable is handled as if a read had found it: a block that it holds anything of is poisoned
(R367), its partial bytes reported as a merge would report them (R199); of a block that neither the store nor a log holds, what the line
held of its mode, counts and quota is lost, and the rest is kept (R368). While the die that drives the stack is in S3 the HBM refreshes
itself and no controller scrubs (R15, R363). -/
def execHbmScrub (stack : BitVec 5) (line : BitVec 30) (bad : Bool) (s : State) : Host.Outcome State Fault Refusal :=
  let blk := stack.toNat * 2 ^ 24 + line.toNat / 64
  let n := line.toNat % 64
  if (s.die (s.driver stack)).idle = 3 then .next s
  else if !bad then .next (s.activate blk)
  else
    let s1 := { s.activate blk with badLines := s.badLines.filter (· != blk * 64 + n) ++ [blk * 64 + n] }
    let cl := s1.sliceOf blk
    let b := s1.stateAt cl blk
    let hit := !b.poisoned && s1.scrubHits cl blk n
    let s2 := s1.lineError blk (if hit then 2 else 1)
    let resident := (Maps.get (s1.cluster cl).res blk).isSome
    let held := resident || (Maps.get (s1.cluster cl).logs blk).isSome
    let whole := if resident then b.full else (s1.hbmState blk).full
    .next (if hit then (s2.mergeFailed whole b none).poisonBlock cl blk (if held then b else s2.keptItems blk b) false [] else s2)

/-- The rows of a stack that have reached its threshold (R377). -/
def State.hotRows (s : State) (stack : BitVec 5) : List Nat :=
  (s.rowActs.filter fun p => p.1 / 2 ^ 24 == stack.toNat && decide (Config.rowThreshold stack.toNat ≤ p.2)).map Prod.fst

/-- RFM_ALERT: a stack with a row at its threshold raises its alert; the refresh that answers it ends the row's count, and the delay
is counted at the die that drives the stack. -/
def execRfmAlert (stack : BitVec 5) (cycles : Nat) (s : State) : Host.Outcome State Fault Refusal :=
  let d := s.driver stack
  let hot := s.hotRows stack
  if hot.isEmpty then .next s
  else
    let s1 := { s with rowActs := Maps.filter s.rowActs fun k _ => !hot.contains k }
    .next (s1.setDie d { s1.die d with perf8 := (s1.die d).perf8 + BitVec.ofNat 64 cycles })

/-! ### Losing a die (R256, R376) -/

/-- Where a block of a lost die lives from now on. -/
def Place.rehome (p : Place) (d : BitVec 3) : Place :=
  match p with
  | .dom c blk => if clusterDie c == d then .dom (homeCluster (d ^^^ 4#3) (BitVec.ofNat 2 (blk / 2 ^ 24)) (BitVec.ofNat 24 blk)) blk else p
  | p => p
/-- An operation follows its block; at a new home it comes anew. -/
def Op.rehome (o : Op) (d : BitVec 3) : Op :=
  { o with place := o.place.rehome d, came := if o.place.rehome d == o.place then o.came else none }
/-- A message follows its block. -/
def Msg.rehome (m : Msg) (d : BitVec 3) : Msg :=
  match m with
  | .op o => .op (o.rehome d)
  | .reply o r => .reply (o.rehome d) r
  | .wake r p c h => .wake r (p.rehome d) c h
  | m => m
/-- What a strand waits for follows its block. -/
def Wait.rehome (w : Wait) (d : BitVec 3) : Wait :=
  match w with
  | .parked p g => .parked (p.rehome d) g
  | .command i sent pins dest =>
    .command i sent (pins.map fun x => match x with | .parked p g => .parked (p.rehome d) g | x => x) (dest.map fun p => p.rehome d)
  | w => w
/-- A copy command follows its blocks. -/
def CopyCmd.rehome (c : CopyCmd) (d : BitVec 3) : CopyCmd :=
  { c with srcs := c.srcs.map fun x => (x.1, x.2.1.rehome d, x.2.2)
           reqs := c.reqs.map fun q => { q with dests := q.dests.map fun x => (x.1, x.2.1.rehome d, x.2.2) } }
/-- The writes that a block keeps follow it. -/
def Block.rehome (b : Block) (d : BitVec 3) : Block :=
  { b with queued := b.queued.map fun o => o.rehome d, lastWrite := b.lastWrite.map fun o => o.rehome d }

/-- Does a home number belong to the die? -/
def homeOnDie (h : Nat) (d : BitVec 3) : Bool :=
  if h < 512 then h / 64 == d.toNat
  else if h < 1024 then (h - 512) / 64 == d.toNat
  else h == 1024 + d.toNat

/-- The count of an operation that is still on its way moves to its new home (R265). -/
def State.moveCount (s : State) (o : Op) (d : BitVec 3) : State :=
  let old := homeOf o.place
  let new := homeOf (o.place.rehome d)
  if old = new then s
  else match Maps.get s.trackers o.tracker with
    | none => s
    | some t =>
      let b := t.get o.batch
      match Maps.get b.homes old with
      | none => s
      | some n =>
        let hs := if n ≤ 1 then Maps.del b.homes old else Maps.put b.homes old (n - 1)
        { s with trackers := Maps.put s.trackers o.tracker (t.set o.batch { b with homes := Maps.put hs new (Maps.getD hs new 0 + 1) }) }

/-- Places, counts and waits follow the blocks of a lost die; closes asked there are asked again. -/
def State.rehomeAll (s : State) (d : BitVec 3) : State :=
  let ops := s.net.filterMap fun p => match p.2 with | .op o => (match o.asker with | .batch => some o | _ => none) | _ => none
  let s1 := ops.foldl (fun t o => t.moveCount o d) s
  let asked := s1.net.filterMap fun p => match p.2 with | .close h _ _ _ _ r => (if homeOnDie h d then some r else none) | _ => none
  { s1 with
    net := Maps.map (Maps.filter s1.net fun _ m => match m with | .close h _ _ _ _ _ => !homeOnDie h d | _ => true) (fun _ m => m.rehome d)
    units := Maps.map s1.units (fun _ (l : List Op) => l.map fun o => o.rehome d)
    lastWr := Maps.map s1.lastWr (fun _ o => o.rehome d)
    strands := Maps.map s1.strands (fun r st => { st with wait := match st.wait with
      | .closing i b => if asked.contains r then .run else .closing i b
      | w => w.rehome d })
    cores := Maps.map s1.cores (fun _ c => { c with ring := c.ring.map fun x => x.rehome d })
    clusters := Maps.map s1.clusters (fun _ c =>
      { c with res := Maps.map c.res (fun _ x => { x with b := x.b.rehome d }), pads := Maps.map c.pads (fun _ b => b.rehome d),
               eng := { c.eng with active := Maps.map c.eng.active fun _ x => x.rehome d } }) }

/-- Has the instance a node instance with a strand, a record, a batch tracker or a Belfry entry on the die? The first such node
instance. -/
def State.nodeOnDie (s : State) (n : BitVec 32) (d : BitVec 3) : Option (BitVec 32) :=
  match s.nodes.find? fun p => p.2.inst == n && (p.2.owner == d
      || s.strands.any fun q => q.2.node == BitVec.ofNat 32 p.1
          && (clusterDie q.2.clusterOf == d || clusterDie (Maps.getD s.trackers q.2.tracker Tracker.zero).cl == d)) with
  | none => none
  | some p => some (BitVec.ofNat 32 p.1)

/-- Step 1 of R376; the strands that belong to no instance go with the die. -/
def State.endOnDie (s : State) (d : BitVec 3) (word : Word) : State :=
  let s1 := s.instances.foldl (fun t p =>
    match t.nodeOnDie (BitVec.ofNat 32 p.1) d with
    | none => t
    | some n => t.endNode n 19 word) s
  ((s1.strands.filter fun p => clusterDie p.2.clusterOf == d).foldl (fun t p => t.dropStrand p.1) s1).settleEnds

/-- The copy on another die that a lost block is promoted from: the nearest generation from that of its presence word on. -/
def State.promotion (s : State) (d : BitVec 3) (blk : Nat) (gen : BitVec 12) : Option (BitVec 12 × Payload) :=
  let all := s.clusters.flatMap fun p =>
    if clusterDie (BitVec.ofNat 9 p.1) == d then []
    else p.2.copies.filterMap fun q =>
      let vbn := BitVec.ofNat 37 (q.1 / 4096)
      let g := BitVec.ofNat 12 q.1
      match s.walk vbn with
      | some (e, big) =>
        match s.leafPlace e big vbn with
        | .dom _ b => if b = blk && decide ((g - gen).toNat < 2048) then some (g, q.2.data) else none
        | _ => none
      | none => none
  least (fun x => (x.1 - gen).toNat) all

/-- One block that was resident on the lost die, at its new home: its tag went with the die (R368). One that was poisoned has its check
pattern in HBM, and no copy stands in for it (R368; log entry 58). -/
def State.rehomeBlock (s : State) (d : BitVec 3) (blk : Nat) (x : Resident) : State :=
  let h := s.hbmState blk
  let b := { h with stubs := x.b.stubs, queued := x.b.queued }
  let cl := s.sliceOf blk
  if x.b.poisoned || (!x.dirty && !(s.badLine blk 0 && s.badLine blk 1)) then s.spread cl (.dom cl blk) { Act.only b none with
    woken := (b.stubs.filter Stub.isReader).map fun y => (y, none), lost := b.stubs.filter fun y => !y.isReader }
  else match s.promotion d blk h.gen with
    | some (g, data) =>
      let n := { b with st := 1, gen := g, mask := 0, payload := data, poisoned := false, stubs := [], queued := [], lastWrite := none }
      (s.writeBack blk n false).spread cl (.dom cl blk) { Act.only n none with
        woken := (b.stubs.filter Stub.isReader).map fun y => (y, none), lost := b.stubs.filter fun y => !y.isReader
        late := b.queued.map fun w => (w, bPoison, 17#5) }
    | none =>
      let a := b.poison true b.stubs
      (s.writeState blk a.b false).spread cl (.dom cl blk) a

/-- One block whose log is lost with its descriptor: poisoned, its stubs handled as R256 gives. -/
def State.loseLog (s : State) (blk : Nat) (l : Log) : State :=
  let a := Block.poison { s.hbmState blk with stubs := l.stubs } true l.stubs
  let cl := s.sliceOf blk
  (s.writeState blk a.b false).spread cl (.dom cl blk) a

/-- One scratchpad block is lost: its readers find XLATE when they read again, its queued writes report it, its watchers are lost
(R20, R256, R376; log entry 92). -/
def State.losePad (s : State) (cl : BitVec 9) (slot : Nat) (b : Block) : State :=
  s.spread cl (.pad cl (BitVec.ofNat 9 slot)) { Act.only b none with
    woken := (b.stubs.filter Stub.isReader).map fun y => (y, none), lost := b.stubs.filter fun y => !y.isReader
    late := b.queued.map fun w => (w, bXlate, 18#5) }

/-- The clusters of the lost die: their blocks find new homes. -/
def State.loseClusters (s : State) (d : BitVec 3) (old : FMap Cluster) : State :=
  old.foldl (fun t p =>
    if clusterDie (BitVec.ofNat 9 p.1) != d then t
    else
      let t1 := p.2.res.foldl (fun u q => u.rehomeBlock d q.1 q.2) t
      let t2 := p.2.pads.foldl (fun u q => u.losePad (BitVec.ofNat 9 p.1) q.1 q.2) t1
      p.2.logs.foldl (fun u q => u.loseLog q.1 q.2) t2) s

/-- A request for a lost scratchpad reports XLATE (R20, R375, R376). -/
def State.loseRequest (s : State) (m : Nat) (o : Op) : State :=
  match o.asker with
  | .strand r => ((s.take m).unack o.unit o.seq).toFaultQueue r o.h .never
  | .tongs r i => ((s.take m).unack o.unit o.seq).pinReply r i .fault
  | .copySource cl id _ =>
    (match Maps.get (s.cluster cl).eng.active id with
     | none => s.take m
     | some c => ((s.take m).unack o.unit o.seq).failCmd cl c bXlate o.h)
  | _ => ((s.take m).answer o (.report bXlate 18)).tallyOp o bXlate 18
/-- All of them, for the clusters that `gone` names. -/
def State.losePads (s : State) (gone : BitVec 9 → Bool) : State :=
  s.net.foldl (fun t p =>
    match p.2 with
    | .op o => (match o.place with | .pad c _ => (if gone c then t.loseRequest p.1 o else t) | _ => t)
    | _ => t) s

/-- A compute die is lost (R376). -/
def State.loseDie (s : State) (die : BitVec 3) : State :=
  let u : UnitId := { unit := 11, die := die, cluster := 0, index := 0 }
  let word := UnitId.word u ((Config.free 2 s.tick).extractLsb' 0 32)
  let s0 := (s.logError word 0 3 2 (s.die die).cycle).tellKeep 3 s.errHead.toNat
  let s1 := s0.endOnDie die word
  let dead : Nat → Bool := fun c => c / 64 == die.toNat
  let s2 := s1.setDie die { s1.die die with alive := false, secondPort := true, ready := Vector.replicate 4 [], faultq := [], proxy := [] }
  let old := s2.clusters
  let s3 := { s2 with
    clusters := Maps.filter s2.clusters (fun c _ => !dead c)
    cores := Maps.filter s2.cores (fun k _ => !dead (k / 16))
    anvils := Maps.filter s2.anvils (fun a _ => !dead (a / 4)) }
  (((s3.rehomeAll die).losePads fun c => clusterDie c == die).loseClusters die old).shootdown none

/-- DIE_FAILURE (R376). -/
def execDieFailure (die : BitVec 3) (s : State) : Host.Outcome State Fault Refusal :=
  .next (if (s.die die).alive then s.loseDie die else s)

/-! ### Self-tests (R372 to R375) -/

/-- A strand leaves its core for a dispatcher, stopped and saved as R322 gives; one that a divider or an Anvil holds leaves when that is
done with it. -/
def State.evacuate (s : State) (r : Nat) : State :=
  let s1 := s.stop r
  match s1.strand r with
  | none => s1
  | some st => if st.wait = .run then s1.leaveCore r else s1

/-- The strands in the slots and on the deque of a core, and those whose window words it holds. -/
def State.onCore (s : State) (k : BitVec 13) : List Nat :=
  (s.strands.filter fun p => (match p.2.loc with | .slot j _ => j == k | .deque j => j == k | _ => p.2.bound && p.2.core == k)).map Prod.fst

/-- They all leave. -/
def State.evacuateCore (s : State) (k : BitVec 13) : State := (s.onCore k).foldl (fun t r => t.evacuate r) s

/-- The Anvil's queued commands are withdrawn, and the holders of its tiles saved. -/
def State.evacuateAnvil (s : State) (a : BitVec 11) : State :=
  let here := s.strands.filter fun p => coreAnvil p.2.home == a && p.2.inSlot
  here.foldl (fun t p =>
    if 0 < p.2.tcnt then t.evacuate p.1
    else match p.2.wait with
      | .command _ false _ _ => t.withdraw p.1
      | _ => t) s

/-- The instances with a strand in a cluster. -/
def State.instsIn (s : State) (cl : BitVec 9) : List (BitVec 32) :=
  ((s.strands.filter fun p => p.2.clusterOf == cl).filterMap fun p => (s.node p.2.node).map Node.inst).eraseDups
/-- They are quenched, but those that are already. -/
def State.quenchCluster (s : State) (cl : BitVec 9) : State :=
  ((s.instsIn cl).filter fun n => (s.inst n).any fun i => !i.quenched).foldl (fun t n => t.quenchInst n []) s

/-- A fibre goes out of service; frames that have no path any longer are held (R295, R311). -/
def State.fibreOut (s : State) (k : Nat) : State := { s with fibresUp := s.fibresUp &&& ~~~(1#64 <<< k) }.holdLost

/-- The work of a unit is moved aside (R372). -/
def State.moveAside (s : State) (u : UnitId) : State :=
  match u.unit.toNat with
  | 1 => s.evacuateCore (UnitId.cl u ++ u.index.extractLsb' 0 4)
  | 3 => s.evacuateAnvil (UnitId.cl u ++ u.index.extractLsb' 0 2)
  | 4 => s.quenchCluster (UnitId.cl u)
  | 10 => s.quenchCluster (UnitId.cl u)
  | 9 => s.fibreOut (UnitId.fibre u)
  | _ => s
/-- The instances quenched for the test of a unit. -/
def State.movedFor (s : State) (u : UnitId) : List (BitVec 32) := if u.unit = 4 || u.unit = 10 then s.instsIn (UnitId.cl u) else []

/-- SELF_TEST_START: a unit that has reported an error since its last test is fenced and tested; a compute die has no test. -/
def execSelfTestStart (u : UnitId) (s : State) : Host.Outcome State Fault Refusal :=
  match s.recordOf u with
  | none => .next s
  | some k =>
    let first := Maps.getD s.tested (UnitId.key u) 0
    if u.unit = 0 || decide (10 < u.unit.toNat) || decide (k < first) || s.tests.any fun t => UnitId.same t.unit u then .next s
    else
      let t : Test := { unit := u, record := first, second := false, moved := s.movedFor u }
      .next ({ s with tests := s.tests ++ [t] }.moveAside u)

/-- Has the unit reported three errors within 24 hours, by the 2.0 GHz counter of its die? -/
def lasting (times : List Word) : Bool :=
  match times.reverse with
  | c :: _ :: a :: _ => decide ((c - a).toNat ≤ 172800000000000)
  | _ => false

/-- Which spares stand in for a unit, and how many there are (R10 to R13, R372); none where the spec gives no number. The INDEX of a
wavelength is that of its fibre, which has one spare (R13, R370; log entry 57). -/
def UnitId.spares (u : UnitId) : Nat × Option Nat :=
  match u.unit.toNat with
  | 1 => (1 + 16 * (UnitId.cl u).toNat, some 1)
  | 2 => (2 + 16 * (UnitId.cl u).toNat, some 2)
  | 3 => (10 + 16 * u.die.toNat, some 2)
  | 4 => (10 + 16 * u.die.toNat, some 2)
  | 10 => (10 + 16 * u.die.toNat, some 2)
  | 7 => (7 + 16 * (u.die.toNat + 8 * u.index.toNat), some 1)
  | 8 => (8 + 16 * UnitId.fibre u, some 1)
  | 9 => (9 + 16 * (u.die.toNat % 2), some 1)
  | k => (k + 16 * UnitId.key u, none)

/-- The plane that the spare fibre of a hearth die is cabled to (R374, SPAREFIB). -/
def State.sparePlane (s : State) (h : Nat) : Nat := ((s.flashReg 0x10038).toNat >>> (8 * h)) % 64
/-- Is a spare left for the unit? A spare fibre replaces the fibre of its own plane alone. -/
def State.hasSpare (s : State) (u : UnitId) : Bool :=
  let x := UnitId.spares u
  (match x.2 with | none => true | some n => decide (Maps.getD s.spareUse x.1 0 < n))
    && (u.unit != 9 || s.sparePlane (u.die.toNat % 2) == UnitId.fibre u)

/-- A record of a cluster that has gone out of service finds another one. -/
def Strand.resettle (st : Strand) (c : BitVec 9) : Strand :=
  let home := clusterCore c 0
  match st.loc with
  | .arriving _ => { st with loc := .arriving c, core := home }
  | .migrating _ f => { st with loc := .migrating c f }
  | .queue _ => { st with loc := .arriving c, core := home }
  | .held _ => { st with loc := .held c, core := home }
  | .saved d _ => { st with loc := .saved d c, core := home }
  | .store _ => { st with loc := .store c, core := home }
  | .faultq _ => { st with core := home }
  | _ => st

/-- A cluster goes out of service (R375): its scratchpad is lost, its records move to the first cluster of the die that stands. -/
def State.leaveCluster (s : State) (cl : BitVec 9) : State :=
  let pads := (s.cluster cl).pads
  let s1 := { s with badClusters := s.badClusters ++ [cl.toNat] }.setCluster cl { s.cluster cl with pads := [] }
  let s2 := pads.foldl (fun t p => t.losePad cl p.1 p.2) (s1.losePads fun c => c == cl)
  let c := s2.standIn cl
  if c = cl then s2
  else
    let rs := (s2.strands.filter fun p => p.2.clusterOf == cl).map Prod.fst
    let s3 := rs.foldl (fun t r =>
      let t1 := t.evacuate r
      match t1.strand r with
      | none => t1
      | some st =>
        match st.loc with
        | .queue _ => (t1.unlist r).setStrand r (st.resettle c)
        | _ => t1.setStrand r (st.resettle c)) s2
    s3.setCluster cl { s3.cluster cl with waiting := [] }

/-- A spare fibre takes the name of a retired one, with nine wavelengths of its own (R13); channels over it have to be made again (R373,
R374). -/
def State.replaceFibre (s : State) (k : Nat) : State :=
  { s with fibresUp := s.fibresUp ||| (1#64 <<< k), remade := s.remade ||| (1#64 <<< k)
           chanMade := s.chanMade.filter fun c => !(Chan.fibres c).contains k, spareUse := Maps.del s.spareUse (8 + 16 * k) }.flush

/-- A spare site takes the coordinates of a cluster: it has its own spare core and spare banks (R11, R12, R373). -/
def State.replaceSite (s : State) (cl : BitVec 9) : State :=
  { s with spareUse := Maps.del (Maps.del s.spareUse (1 + 16 * cl.toNat)) (2 + 16 * cl.toNat) }

/-- A unit is retired: its spare takes its name, or its cluster, die or fibre goes out of service (R1, R372 to R375). DESIGN CHOICE (log
entry 57): a wavelength for which its fibre has no spare left takes the fibre out of service, and a pseudo-channel for which its stack has
none takes the die that drives the stack. -/
def State.retireUnit (s : State) (u : UnitId) : State × BitVec 8 :=
  let s1 := { s with errTimes := Maps.del s.errTimes (UnitId.key u) }
  let x := (UnitId.spares u).1
  let n := Maps.getD s1.spareUse x 0 + 1
  let used := { s1 with spareUse := Maps.put s1.spareUse x n }
  let k := UnitId.fibre u
  if s1.hasSpare u then
    (if u.unit = 9 then used.replaceFibre k
     else if u.unit = 3 || u.unit = 4 || u.unit = 10 then used.replaceSite (UnitId.cl u)
     else used, 1)
  else if u.unit = 8 then (s1.fibreOut k, 2)
  else if u.unit = 7 then
    let d := s1.driver (u.die ++ u.index.extractLsb' 0 2)
    (if (s1.die d).alive then s1.loseDie d else s1, 2)
  else if u.unit.toNat ≤ 4 || u.unit = 10 then (s1.leaveCluster (UnitId.cl u), 2)
  else (s1, 2)

/-- A die that has lost its last cluster is lost (R375). -/
def State.checkDie (s : State) (d : BitVec 3) : State :=
  if (s.die d).alive && (dieClusters d).all fun c => !s.inService c then s.loseDie d else s

/-- SELF_TEST_COMPLETE: a pass returns the unit, unless errors last; a fibre changes only between reconfigurations (R374). Wavelengths and
fibres are units of the hearth dies (R370), so no compute die is lost with them. -/
def execSelfTestComplete (u : UnitId) (pass : Bool) (s : State) : Host.Outcome State Fault Refusal :=
  match s.tests.find? fun t => UnitId.same t.unit u with
  | none => .next s
  | some t =>
    if u.unit = 9 && s.rcir.isSome then .next s
    else
      let s1 := { s with tests := s.tests.filter fun x => !UnitId.same x.unit u }
      if pass && !t.second && !lasting (Maps.getD s1.errTimes (UnitId.key u) []) then
        .next ((if u.unit = 9 then { s1 with fibresUp := s1.fibresUp ||| (1#64 <<< UnitId.fibre u) }.flush else s1).closeTest u t.record 0)
      else
        let q := s1.retireUnit u
        let s2 := q.1.closeTest u t.record q.2
        .next (if u.unit = 8 || u.unit = 9 then s2 else s2.checkDie u.die)

end Sys2Proof.Machine
end

