-- ==== Sys2Proof/Machine/Bringup.lean ====
section
/-!
DEFINITION. Bring-up, supply, grants and idle states (R15, R16, R187, R362 to R364, R378, R380 to R384, R386).
-/
namespace Sys2Proof.Machine

/-! ### Bring-up (R380 to R386) -/

/-- Step 0: the fabric registers stored now come into force, and what is fused is read. -/
def State.readFuses (s : State) : State :=
  { s with
    modNo := (s.flashReg moduleReg).extractLsb' 0 8, modSet := (s.flashReg moduleReg).getLsbD 8
    domain := s.flashReg 0x10020 ++ s.flashReg 0x10018 ++ s.flashReg 0x10010 ++ s.flashReg 0x10008
    leader := (s.flashReg 0x10028).extractLsb' 0 8, rollback := s.rollback ||| Config.rollback, enrolLock := s.enrolLock || Config.enrolLock }

/-- Why the component in slot `n` of a flash copy does not verify (R382), by the FAIL codes of R388; zero when it does. -/
def State.componentFail (s : State) (copy : List Component) (n : Nat) : BitVec 8 :=
  match copy[n]? with
  | none => 4
  | some c =>
    if !c.readable then 4
    else if !c.signed then 1
    else if c.version.toNat < popcount s.rollback.toNat 64 then 2
    else if c.number.toNat ≠ n then 3
    else 0

/-- A component that verifies is measured (R383); of one that does not, FAIL keeps the reason. -/
def State.verify (s : State) (copy : List Component) (n : Fin 8) : State :=
  if s.componentFail copy n.val = 0 then { s with measure := s.measure.set n.val (shake32 ((copy[n.val]?).elim [] Component.bytes)) n.isLt }
  else { s with boot := { s.boot with fail := s.componentFail copy n.val } }

/-- The stage-1 component of a copy is verified, and runs. -/
def State.runStage1 (s : State) (copyB : Bool) (copy : List Component) : State :=
  let t := s.verify copy 0
  { t with boot := { t.boot with stage := 1, copyB := copyB, floor := (copy[0]?).elim 0 Component.floor } }

/-- The part enters RECOVERY (R381, R384). -/
def State.recover (s : State) : State := { s with boot := { s.boot with stage := 15 } }

/-- Copy B takes over where copy A has failed, or the part enters RECOVERY (R380, R384). -/
def State.tryCopyB (s : State) (o : BootOutcome) : State :=
  if s.componentFail o.copyB 0 = 0 then s.runStage1 true o.copyB else (s.verify o.copyB 0).recover

/-- Step 0: copy A, and on failure copy B. -/
def State.bootRom (s : State) (o : BootOutcome) : State :=
  let s1 := s.readFuses
  if s1.componentFail o.copyA 0 = 0 then s1.runStage1 false o.copyA else (s1.verify o.copyA 0).tryCopyB o

/-- Step 1: the other components of the copy that runs; when one of copy A fails, copy B is tried (log entry 93). -/
def State.bootKeep (s : State) (o : BootOutcome) : State :=
  let copy := if s.boot.copyB then o.copyB else o.copyA
  let s1 := [1, 2, 3, 4, 5].foldl (fun (t : State) (n : Fin 8) => t.verify copy n) s
  if [1, 2, 3, 4, 5].all fun n => s.componentFail copy n == 0 then { s1 with boot := { s1.boot with stage := 2 } }
  else if s.boot.copyB then s1.recover
  else s1.tryCopyB o

/-- A unit that fails its test at bring-up is retired (R372, R381): its spare comes in, or it is out of service. -/
def State.bootRetire (s : State) (u : UnitId) : State :=
  let s1 := s.noteError u ((Config.free 2 s.tick).extractLsb' 0 32) (if u.unit = 6#8 then u.row.zeroExtend 64 else 0) 1
  let s2 := if u.unit = 9 then s1.fibreOut (UnitId.fibre u) else s1
  let q := s2.retireUnit u
  q.1.closeTest u s.errHead.toNat q.2

/-- The units that a step finds failing. -/
def State.bootUnits (s : State) (us : List UnitId) : State := us.foldl (fun t u => t.bootRetire u) s

/-- A die that fails, or has no cluster left, is out of service, and its stacks are on their second port (R9, R375, R381). -/
def State.passDies (s : State) (up : BitVec 8) : State :=
  { s with dies := Vector.ofFn fun i : Fin 8 =>
      let d := s.dies[i]
      let ok := d.alive && up.getLsbD i.val && (dieClusters (BitVec.ofNat 3 i.val)).any s.inService
      { d with alive := ok, secondPort := !ok } }
/-- A step that needs the compute dies ends in the next one, or in RECOVERY when none is left. -/
def State.diesOr (s : State) (next : BitVec 4) : State :=
  if s.dies.toList.any Die.alive then { s with boot := { s.boot with stage := next } } else s.recover

/-- The Keep's tables stand on the first stack in service (log entry 6). -/
def State.placeTables (s : State) : State := { s with ttbase := BitVec.ofNat 64 (s.stacksUp.headD 0) }

/-- Plan 0 stands with these entries (R296). -/
def State.withPlan0 (s : State) (es : List (Nat × BitVec 16)) : State :=
  { s with plans := Maps.put s.plans 0 (es.foldl (fun m e =>
      let v := e.2 &&& 0x80FF#16
      if v = 0 || decide (16384 ≤ e.1) then m else Maps.put m e.1 v) []) }
/-- Plan 0 is provisioned, where the module is one of a domain and the entries pass the tests of R297; else it has no circuits (R344; log
entry 91). -/
def State.provision (s : State) (es : List (Nat × BitVec 16)) : State :=
  let t := s.withPlan0 es
  if s.modSet && t.planOk 0 then t else s.withPlan0 []

/-- Step 5: plan 0 is provisioned. Without a domain the module stands alone; else the fibres have trained, and the leader is asked for
the plan (R297, R344, R380, R386). -/
def State.bootFibres (s : State) (o : BootOutcome) : State :=
  let s1 := s.provision o.plan0
  if !s1.modSet then s1.becomeReady
  else
    let bad := ((List.range 64).filter fun k => !o.fibres.getLsbD k).map fun k =>
      ({ unit := 9, die := BitVec.ofNat 3 (k / 32), cluster := 0, index := BitVec.ofNat 6 (k % 32) } : UnitId)
    let s2 := s1.bootUnits bad
    if s2.leader = s2.modNo then s2.becomeReady
    else { s2 with boot := { s2.boot with wantsPlan := true } }.emit (.domainMsg s2.leader .planRequest)

/-- POWER_GOOD: the step that BOOTSTATUS.STAGE shows ends as the event says, and the next one begins (R380 to R384). -/
def execPowerGood (o : BootOutcome) (s : State) : Host.Outcome State Fault Refusal :=
  .next (if !s.supplyOk then s
    else match s.boot.stage.toNat with
    | 0 => s.bootRom o
    | 1 => s.bootKeep o
    | 2 => if o.hearth then { s.remeasure.bootUnits o.failed with boot := { s.boot with stage := 3 } } else s.recover
    | 3 => (((s.bootUnits o.failed).passDies o.dies).placeTables).diesOr 4
    | 4 => (((s.bootUnits o.failed).passDies o.dies).placeTables).diesOr 5
    | 5 => if s.boot.wantsPlan then s else s.bootFibres o
    | _ => s)

/-! ### Supply (R15) -/

/-- A die in S2 or deeper has no grant (R364). -/
def Die.rest (d : Die) (idle : BitVec 2) : Die := { d with idle := idle, grant := (0, 1), budget := 0 }

/-- Does the Keep run: from step 2 of R380 on, and not in RECOVERY? -/
def State.keepRuns (s : State) : Bool := decide (2 ≤ s.boot.stage.toNat) && !s.recovery

/-- SUPPLY_FAULT: the Keep reports it, and the compute dies are held in S3 (R15; log entry 83). Before the Keep starts, bring-up stands
still (R380). -/
def execSupplyFault (s : State) : Host.Outcome State Fault Refusal :=
  .next (if !s.supplyOk then s
    else if s.keepRuns then
      { s with supplyOk := false, dies := s.dies.map fun (d : Die) => if d.alive then d.rest 3 else d }.emit .supplyReport
    else { s with supplyOk := false })

/-- SUPPLY_RESTORED: the dies are active again. DESIGN CHOICE (log entry 83): also one that stood in S2 or S3 by its own idle entry before
the fault. -/
def execSupplyRestored (s : State) : Host.Outcome State Fault Refusal :=
  .next (if s.supplyOk then s
         else { s with supplyOk := true, dies := s.dies.map fun (d : Die) => if d.alive then { d with idle := 0 } else d })

/-! ### The Bellows (R16, R187, R378) -/

/-- The lesser of a fraction and a whole number of watts. -/
def capWatts (x : Nat × Nat) (cap : Nat) : Nat × Nat := if x.1 ≤ cap * x.2 then x else (cap, 1)
/-- The matrix budget of a grant: floor(312 (W - 150) / 500), from 0 to 312. -/
def budgetOf (w : Nat × Nat) : Nat := min 312 (312 * (w.1 - 150 * w.2) / (500 * w.2))

/-- Does the Bellows grant a die current: in service and not in S2 or deeper? -/
def Die.granted (d : Die) : Bool := d.alive && decide (d.idle.toNat < 2)

/-- BELLOWS_PERIOD: the grants from the demands of the last period, and a new budget for every Anvil. DESIGN CHOICE (log entry 94): when
nobody reported any demand, what is left after the floors is not divided. -/
def execBellowsPeriod (dies : List Nat) (hbm : Nat) (s : State) : Host.Outcome State Fault Refusal :=
  let on : Nat → Bool := fun i => match s.dies[i]? with | some d => d.granted | none => false
  let active := (List.range 8).filter on
  let rest := 8000 - 330 - 600 - 150 * active.length
  let want : Nat → Nat := fun i => dies.getD i 0
  let total := (active.map want).sum + hbm
  let share : Nat → Nat → Nat × Nat := fun floor d => if total = 0 then (floor, 1) else (floor * total + rest * d, total)
  .next { s with
    hbmGrant := capWatts (share 600 hbm) 2600
    dies := Vector.ofFn fun i : Fin 8 =>
      let d := s.dies[i]
      let g := if on i.val then capWatts (share 150 (want i.val)) 650 else (0, 1)
      { d with grant := g, budget := if on i.val then budgetOf g else 0 }
    anvils := Maps.map s.anvils fun _ a => { a with spent := 0 } }

/-! ### Idle states (R363, R364) -/

/-- May a core enter S1: no strand in a slot, an empty deque? -/
def State.coreQuiet (s : State) (k : BitVec 13) : Bool :=
  let c := s.core k
  c.slots.toList.all Option.isNone && c.deque.isEmpty && c.switching.isNone && decide (1 ≤ (s.dieTol[(coreDie k).toNat]'((coreDie k).isLt)).toNat)

/-- May a die enter S2: every core in S1, no queued Anvil or copy command, no tile held or reserved? -/
def State.dieQuiet (s : State) (d : BitVec 3) : Bool :=
  ((List.range 1024).all fun i => s.idleCores.contains (1024 * d.toNat + i))
    && (s.cores.all fun p => p.1 / 1024 != d.toNat || (p.2.cmdq.isEmpty && p.2.ring.isEmpty))
    && (s.clusters.all fun p => p.1 / 64 != d.toNat || p.2.eng.active.isEmpty)
    && s.anvils.all fun p => p.1 / 256 != d.toNat || p.2.tiles.toList.all (· == .free)

/-- May a die go on to S3: no record held there, no node instance in its Belfry, no queued writes at its homes, nothing on the way
to a block, and every log can be applied? -/
def State.dieEmpty (s : State) (d : BitVec 3) : Bool :=
  (s.strands.all fun p => clusterDie p.2.clusterOf != d) && (s.nodes.all fun p => p.2.owner != d)
    && s.clusters.all fun p => p.1 / 64 != d.toNat ||
      ((p.2.res.all fun q => q.2.b.queued.isEmpty) && (p.2.pads.all fun q => q.2.queued.isEmpty) && p.2.fills.isEmpty
        && p.2.logs.all fun q => !s.unreadable (BitVec.ofNat 9 p.1) q.1)

/-- A log is applied by a forced fetch, which PERF counts, and the block written back; its stubs stay as a log (R252, R328). -/
def State.applyLog (s : State) (cl : BitVec 9) (blk : Nat) : State :=
  let b := s.resident cl blk
  let log := evictionLog b s.tick
  let s1 := s.writeBack blk b log.isSome
  let c := s1.cluster cl
  s1.setCluster cl { c with logs := match log with | none => Maps.del c.logs blk | some l => Maps.put c.logs blk l, perf7 := c.perf7 + 1 }
/-- A resident block is written back and leaves residence, as the store is not kept in S3; one with stubs keeps them with its tag (R363). -/
def State.cleanBlock (s : State) (cl : BitVec 9) (blk : Nat) (x : Resident) : State :=
  let s1 := s.writeBack blk x.b false
  let c := s1.cluster cl
  s1.setCluster cl { c with res := if x.b.stubs.isEmpty then Maps.del c.res blk else Maps.put c.res blk { x with dirty := false } }
/-- What a die does before S3: every log applied, every resident block written back; the copies in its stores are not kept. -/
def State.settleDie (s : State) (d : BitVec 3) : State :=
  s.clusters.foldl (fun t p =>
    if p.1 / 64 != d.toNat then t
    else
      let cl := BitVec.ofNat 9 p.1
      let t1 := p.2.logs.foldl (fun u q => u.applyLog cl q.1) t
      let t2 := p.2.res.foldl (fun u q => u.cleanBlock cl q.1 q.2) t1
      t2.setCluster cl { t2.cluster cl with copies := [] }) s

/-- IDLE_STATE_ENTRY: the next deeper state of a unit whose condition holds and whose exit latency is tolerated. -/
def execIdleStateEntry (u : IdleUnit) (s : State) : Host.Outcome State Fault Refusal :=
  match u with
  | .core k => .next (if s.coreQuiet k && !s.idleCores.contains k.toNat then { s with idleCores := s.idleCores ++ [k.toNat] } else s)
  | .die d =>
    let x := s.die d
    let tol := (s.dieTol[d.toNat]'(d.isLt)).toNat
    if !x.alive then .next s
    else if x.idle = 0 then .next (if s.dieQuiet d && decide (10 ≤ tol) then s.setDie d (x.rest 2) else s)
    else if x.idle = 2 then
      .next (if s.dieEmpty d && decide (300 ≤ tol) then (let t := s.settleDie d; t.setDie d ((t.die d).rest 3)) else s)
    else .next s
  | .module =>
    .next (if (s.dies.toList.all fun d => !d.alive || d.idle == 3) && decide (20000 ≤ s.modTol.toNat) && s.qps.all fun p => p.2.msgs.isEmpty
      then { s with modState := 4 } else s)

/-- IDLE_STATE_EXIT; a supply fault holds a die in S3 (R15), and S4 ends with the first die that leaves S3 (R363). -/
def execIdleStateExit (u : IdleUnit) (s : State) : Host.Outcome State Fault Refusal :=
  match u with
  | .core k => .next { s with idleCores := s.idleCores.filter (· != k.toNat) }
  | .die d => .next (if s.supplyOk then s.rouse d else s)
  | .module => .next { s with modState := 0 }

/-! ### What needs the compute dies (R15) -/

/-- Is this an event of a compute die or its HBM, which stands still while the supply is out of its limits? The reports and tests of the
hearth dies' units go on. -/
def onCompute (i : Instr) : Bool :=
  match i with
  | .watcherRegister _ => true
  | .watcherWake _ => true
  | .belfryDispatchRound _ _ => true
  | .belfryHandover _ _ _ => true
  | .dispatcherAccept _ => true
  | .dispatcherPlace _ _ => true
  | .imageSwitchDone _ => true
  | .dequePop _ _ => true
  | .stealAttempt _ _ _ => true
  | .wakeDeliver _ => true
  | .homeRead _ => true
  | .homeWrite _ => true
  | .homeSeal _ => true
  | .homeArrival _ => true
  | .homeAccumulate _ => true
  | .homeArm _ => true
  | .homeRelease _ => true
  | .homeClear _ => true
  | .homeDiscard _ => true
  | .homeProbe _ => true
  | .blockFill _ _ => true
  | .dedupeRelease _ _ => true
  | .dedupeWindowExpiry _ _ => true
  | .operationRetransmit _ _ => true
  | .batchSync _ => true
  | .batchCloseRebroadcast _ => true
  | .closeReply _ => true
  | .readReply _ => true
  | .statusReply _ => true
  | .recordStoreReply _ => true
  | .dividerResult _ => true
  | .vectorDispatch _ => true
  | .matrixDispatch _ => true
  | .vectorResult _ => true
  | .matrixResult _ => true
  | .acctPost _ => true
  | .tongsOperandReply _ => true
  | .copyCommandStart _ => true
  | .copySourceReply _ => true
  | .proxyRequest _ _ => true
  | .walkComplete _ => true
  | .operationAck _ => true
  | .ovldCopyComplete _ => true
  | .doneSealOutcome _ => true
  | .luDiscardStatus _ => true
  | .hbmScrub _ _ _ => true
  | .rfmAlert _ _ => true
  | .errorReport e => !UnitId.onHearth e.unit
  | .selfTestStart u => !UnitId.onHearth u
  | .selfTestComplete u _ => !UnitId.onHearth u
  | .faultQueueService _ => true
  | .preemptWaitExpiry _ => true
  | .timeSliceExpiry _ => true
  | .quenchDone => true
  | .quenchResume => true
  | .quench => true
  | .blockMap _ => true
  | .blockUnmap => true
  | _ => false

/-- What can happen while the part is in RECOVERY: a BUSY for what comes in at Ethernet port 0, and a cold reset (R384). -/
def inRecovery (i : Instr) : Bool :=
  match i with
  | .uhpSegment _ _ => true
  | .ack _ _ => true
  | .coldReset => true
  | _ => false

/-- What can happen before READY (R15, R380, R381, R386): the same, the boot sequence, the supply's ups and downs, the leader's answer, and
packets that are dropped or refused. -/
def beforeReady (i : Instr) : Bool :=
  match i with
  | .powerGood _ => true
  | .supplyFault => true
  | .supplyRestored => true
  | .leaderPlanReply _ _ => true
  | .leaderUnreachableTimeout => true
  | .roceWrite .. => true
  | .roceWriteImm .. => true
  | .roceUnsupportedOp .. => true
  | .roceRead .. => true
  | .roceUnknownQp .. => true
  | i => inRecovery i

/-- May a scheduled row take place as an event now? -/
def State.mayHappen (s : State) (i : Instr) : Bool :=
  i.isEvent && (s.supplyOk || !onCompute i) && (s.ready || (if s.recovery then inRecovery i else beforeReady i))

end Sys2Proof.Machine
end

