-- ==== Sys2Proof/Machine/Fp.lean ====
section
/-!
DEFINITION. Window registers, scalar FP32, conversions and the divider (R104, R108, R122 to R126).
-/
namespace Sys2Proof.Machine

/-- Write a window word and OR flags (R143). -/
def Strand.putW (st : Strand) (i : Word) (v : BitVec 32 × BitVec 5) : Strand := (st.setW i.toNat v.1).orFlags v.2
/-- A window word as a binary32 value. -/
def Strand.fw (st : Strand) (i : Word) : Num := f32 (st.w i.toNat)
/-- A window word by index. -/
def Strand.wv (st : Strand) (i : Word) : BitVec 32 := st.w i.toNat

/-- An operation of two sources (R123): sources are checked before the destination. -/
def State.fp2 (s : State) (f : WForm) (wd wa wb : BitVec 6) (op : Strand → BitVec 32 → BitVec 32 → BitVec 32 × BitVec 5) :
    Host.Outcome State Fault Refusal :=
  s.issueW f (fun st => [st.widx f wa f.ra, st.widx f wb f.rb, st.widx f wd f.rd]) fun r st =>
    s.setStrand r ((st.putW (st.widx f wd f.rd) (op st (st.wv (st.widx f wa f.ra)) (st.wv (st.widx f wb f.rb)))).next f.len)

/-- An operation of one source (R123, R126). -/
def State.fp1 (s : State) (f : WForm) (wd wa : BitVec 6) (op : Strand → BitVec 32 → BitVec 32 × BitVec 5) :
    Host.Outcome State Fault Refusal :=
  s.issueW f (fun st => [st.widx f wa f.ra, st.widx f wd f.rd]) fun r st =>
    s.setStrand r ((st.putW (st.widx f wd f.rd) (op st (st.wv (st.widx f wa f.ra)))).next f.len)

/-- Round an exact result to binary32. -/
def toF32 (mode : BitVec 2) (x : Num × BitVec 5) : BitVec 32 × BitVec 5 :=
  let r := roundTo fmtF32 mode x
  (BitVec.ofNat 32 r.1, r.2)

/-- A fused multiply and add (R123): sources a, b, c, then the destination. -/
def State.fpFma (s : State) (f : WForm) (wd wa wb wc : BitVec 6) (neg : Bool) : Host.Outcome State Fault Refusal :=
  s.issueW f (fun st => [st.widx f wa f.ra, st.widx f wb f.rb, st.widx f wc f.rc, st.widx f wd f.rd]) fun r st =>
    let mode := st.mode f.rm
    let c := st.fw (st.widx f wc f.rc)
    let x := (st.fw (st.widx f wa f.ra)).fma mode (st.fw (st.widx f wb f.rb)) (if neg then c.negate else c)
    s.setStrand r ((st.putW (st.widx f wd f.rd) (toF32 mode x)).next f.len)

/-- A compare (R123, R125): the condition goes to one bit of a register. -/
def State.fpCmp (s : State) (f : WForm) (wa wb : BitVec 6) (gd : BitVec 4) (bit : BitVec 6)
    (c : Num → Num → Bool × BitVec 5) : Host.Outcome State Fault Refusal :=
  s.issueW f (fun st => [st.widx f wa f.ra, st.widx f wb f.rb]) fun r st =>
    let v := c (st.fw (st.widx f wa f.ra)) (st.fw (st.widx f wb f.rb))
    s.setStrand r (((st.setBit gd bit.toNat v.1).orFlags v.2).next f.len)

/-- FADD (R123, R124). -/
def execFadd (f : WForm) (wd wa wb : BitVec 6) (s : State) : Host.Outcome State Fault Refusal :=
  s.fp2 f wd wa wb fun st a b => toF32 (st.mode f.rm) ((f32 a).add (st.mode f.rm) (f32 b))
/-- FSUB (R123, R124). -/
def execFsub (f : WForm) (wd wa wb : BitVec 6) (s : State) : Host.Outcome State Fault Refusal :=
  s.fp2 f wd wa wb fun st a b => toF32 (st.mode f.rm) ((f32 a).add (st.mode f.rm) (f32 b).negate)
/-- FMUL (R123, R124). -/
def execFmul (f : WForm) (wd wa wb : BitVec 6) (s : State) : Host.Outcome State Fault Refusal :=
  s.fp2 f wd wa wb fun st a b => toF32 (st.mode f.rm) ((f32 a).mul (f32 b))
/-- FMIN (R125). -/
def execFmin (f : WForm) (wd wa wb : BitVec 6) (s : State) : Host.Outcome State Fault Refusal :=
  s.fp2 f wd wa wb fun _ a b => let r := minMax fmtF32 false a.toNat b.toNat; (BitVec.ofNat 32 r.1, r.2)
/-- FMAX (R125). -/
def execFmax (f : WForm) (wd wa wb : BitVec 6) (s : State) : Host.Outcome State Fault Refusal :=
  s.fp2 f wd wa wb fun _ a b => let r := minMax fmtF32 true a.toNat b.toNat; (BitVec.ofNat 32 r.1, r.2)
/-- FABS (R125). -/
def execFabs (f : WForm) (wd wa : BitVec 6) (s : State) : Host.Outcome State Fault Refusal :=
  s.fp1 f wd wa fun _ a => (a &&& 0x7FFFFFFF#32, 0)
/-- FNEG (R125). -/
def execFneg (f : WForm) (wd wa : BitVec 6) (s : State) : Host.Outcome State Fault Refusal :=
  s.fp1 f wd wa fun _ a => (a ^^^ 0x80000000#32, 0)
/-- FFMA (R123, R124). -/
def execFfma (f : WForm) (wd wa wb wc : BitVec 6) (s : State) : Host.Outcome State Fault Refusal :=
  s.fpFma f wd wa wb wc false
/-- FFMS (R123, R124). -/
def execFfms (f : WForm) (wd wa wb wc : BitVec 6) (s : State) : Host.Outcome State Fault Refusal :=
  s.fpFma f wd wa wb wc true
/-- FDIV (R104, R123): the divider writes the result. -/
def execFdiv (f : WForm) (wd wa wb : BitVec 6) (s : State) : Host.Outcome State Fault Refusal :=
  s.issueW f (fun st => [st.widx f wa f.ra, st.widx f wb f.rb, st.widx f wd f.rd]) fun r st => s.toDivider r st (.fdiv f wd wa wb)
/-- FSQRT (R104, R123). -/
def execFsqrt (f : WForm) (wd wa : BitVec 6) (s : State) : Host.Outcome State Fault Refusal :=
  s.issueW f (fun st => [st.widx f wa f.ra, st.widx f wd f.rd]) fun r st => s.toDivider r st (.fsqrt f wd wa)
/-- FCLT (R125): any NaN sets invalid. -/
def execFclt (f : WForm) (wa wb : BitVec 6) (gd : BitVec 4) (bit : BitVec 6) (s : State) : Host.Outcome State Fault Refusal :=
  s.fpCmp f wa wb gd bit fun a b => if a.isNan || b.isNan then (false, fInvalid) else (a.lt b, 0)
/-- FCLE (R125): any NaN sets invalid. -/
def execFcle (f : WForm) (wa wb : BitVec 6) (gd : BitVec 4) (bit : BitVec 6) (s : State) : Host.Outcome State Fault Refusal :=
  s.fpCmp f wa wb gd bit fun a b => if a.isNan || b.isNan then (false, fInvalid) else (!b.lt a, 0)
/-- FCEQ (R125): only a signalling NaN sets invalid. -/
def execFceq (f : WForm) (wa wb : BitVec 6) (gd : BitVec 4) (bit : BitVec 6) (s : State) : Host.Outcome State Fault Refusal :=
  s.fpCmp f wa wb gd bit fun a b => (a.eq b, sigFlag a ||| sigFlag b)
/-- WGET (R122). -/
def execWget (f : WForm) (ga : BitVec 4) (wx : BitVec 6) (s : State) : Host.Outcome State Fault Refusal :=
  s.issueW f (fun st => [st.widx f wx f.ra]) fun r st =>
    s.setStrand r ((st.setReg ga ((st.wv (st.widx f wx f.ra)).zeroExtend 64)).next f.len)
/-- WPUT (R122). -/
def execWput (f : WForm) (wx : BitVec 6) (ga : BitVec 4) (s : State) : Host.Outcome State Fault Refusal :=
  s.issueW f (fun st => [st.widx f wx f.rd]) fun r st =>
    s.setStrand r ((st.setW (st.widx f wx f.rd).toNat ((st.reg ga).extractLsb' 0 32)).next f.len)
/-- WMOV (R122). -/
def execWmov (f : WForm) (wx wy : BitVec 6) (s : State) : Host.Outcome State Fault Refusal :=
  s.issueW f (fun st => [st.widx f wy f.ra, st.widx f wx f.rd]) fun r st =>
    s.setStrand r ((st.setW (st.widx f wx f.rd).toNat (st.wv (st.widx f wy f.ra))).next f.len)
/-- FCVTI (R126). -/
def execFcvti (f : WForm) (wd wa : BitVec 6) (s : State) : Host.Outcome State Fault Refusal :=
  s.fp1 f wd wa fun st a =>
    let r := (f32 a).toRange (st.mode f.rm) (-2147483648) 2147483647
    (BitVec.ofInt 32 r.1, r.2)
/-- FCVTF (R126). -/
def execFcvtf (f : WForm) (wd wa : BitVec 6) (s : State) : Host.Outcome State Fault Refusal :=
  s.fp1 f wd wa fun st a => toF32 (st.mode f.rm) (Num.ofInt a.toInt, 0)

/-! ### The divider (R104) -/

/-- The strand with the divider's result written, and the pc after the divide. -/
def Strand.divided (st : Strand) (i : Instr) : Strand :=
  match i with
  | .div f rd ra rb => (st.setReg rd ((st.reg ra).sdiv (st.reg rb))).next f.len
  | .divu f rd ra rb => (st.setReg rd (st.reg ra / st.reg rb)).next f.len
  | .rem f rd ra rb => (st.setReg rd ((st.reg ra).srem (st.reg rb))).next f.len
  | .remu f rd ra rb => (st.setReg rd (st.reg ra % st.reg rb)).next f.len
  | .fdiv f wd wa wb =>
    (st.putW (st.widx f wd f.rd) (toF32 (st.mode f.rm) ((st.fw (st.widx f wa f.ra)).div (st.fw (st.widx f wb f.rb))))).next f.len
  | .fsqrt f wd wa => (st.putW (st.widx f wd f.rd) (toF32 (st.mode f.rm) (st.fw (st.widx f wa f.ra)).sqrt)).next f.len
  | _ => st

/-- DIVIDER_RESULT (R104): the oldest request of the core's divider is served; its strand returns to rotation. -/
def execDividerResult (core : BitVec 13) (s : State) : Host.Outcome State Fault Refusal :=
  let c := s.core core
  match c.divq with
  | [] => .next s
  | r :: q =>
    let s1 := s.setCore core { c with divq := q }
    .next ((s1.updStrand r fun st =>
      match st.wait with
      | .divider i => { st.divided i with wait := .run }
      | _ => st).unitDone r)

end Sys2Proof.Machine
end

