-- ==== Sys2Proof/Machine/Save.lean ====
section
/-!
DEFINITION. The save area: the strand record as bytes (R62, R63), SAVEREC and LOADREC (R333, R334).
-/
namespace Sys2Proof.Machine

/-! ### Records as bytes (R62, R63, R333) -/

/-- The FLAGS halfword (R62). -/
def Strand.flags (st : Strand) : BitVec 16 :=
  st.prio ++ BitVec.ofBool st.anch ++ st.win ++ BitVec.ofNat 3 st.tcnt ++ st.steal ++ 0#4
/-- The 192 bytes of R62. -/
def Strand.recordBytes (st : Strand) : List Byte :=
  st.regs.toList.flatMap (fun v => leBytes 8 v.toNat) ++ st.fd.toList.flatMap (fun v => leBytes 4 v.toNat)
    ++ leBytes 4 st.pc.toNat ++ leBytes 2 st.image.toNat ++ leBytes 2 st.flags.toNat ++ leBytes 4 st.tpc.toNat
    ++ leBytes 1 st.tcause.toNat ++ leBytes 1 st.fflags.toNat ++ leBytes 1 (st.rmode.toNat + 16 * st.batch.toNat)
    ++ leBytes 1 st.opens.toNat ++ leBytes 8 st.tval.toNat ++ leBytes 4 st.node.toNat ++ leBytes 4 0
/-- Fill up to a multiple of 64 bytes. -/
def pad64 (bs : List Byte) : List Byte := bs ++ List.replicate ((64 - bs.length % 64) % 64) 0#8
/-- Bit `i` of a mask over the eight tiles. -/
def tileMask (st : Strand) (p : Tile → Bool) : Nat :=
  ((List.range 8).map fun i => match st.tiles[i]?.getD none with | some t => if p t then 2 ^ i else 0 | none => 0).sum
/-- The record with its extensions (R63). -/
def Strand.savedBytes (st : Strand) : List Byte :=
  let a := st.recordBytes ++ (List.range st.words).flatMap fun i => leBytes 4 (st.w i).toNat
  if st.anch then
    pad64 a ++ st.tags.toList ++ leBytes 1 (tileMask st fun _ => true) ++ leBytes 1 (tileMask st Tile.isInt) ++ leBytes 6 0
      ++ st.vecs.toList.flatMap (fun v => leBytes 128 v.toNat)
      ++ (st.tiles.toList.filterMap id).flatMap fun t => Payload.toBytes t.data
  else a
/-- One entry of the save area (R333): the cluster that it is saved from, the core that it last ran on. -/
def Strand.entry (st : Strand) : List Byte :=
  let body := pad64 st.savedBytes
  leBytes 4 (64 + body.length) ++ leBytes 1 (st.clusterOf.extractLsb' 0 6).toNat ++ leBytes 1 (st.home.extractLsb' 0 4).toNat
    ++ List.replicate 58 0#8 ++ body

/-! ### SAVEREC (R333) -/

/-- Bytes from a handle onwards, cut at block boundaries (R22). -/
def blockPieces (h : Word) (bs : List Byte) (fuel : Nat) : List (Word × List Byte) :=
  match fuel with
  | 0 => []
  | fuel + 1 =>
    if bs.isEmpty then []
    else
      let n := 4096 - (Handle.off h).toNat
      (h, bs.take n) :: blockPieces (padd49 h (BitVec.ofNat 64 n)) (bs.drop n) fuel

/-- Translate several handles in order (R229). -/
def State.accessAll (s : State) (r : Nat) (st : Strand) (perm : BitVec 4) (hs : List Word) (acc : List Place) (go : List Place → State) : State :=
  match hs with
  | [] => go acc.reverse
  | h :: t => s.access r st h perm fun p => s.accessAll r st perm t (p :: acc) go

/-- The cluster of the strand's die that bits 5:0 name. -/
def Strand.clusterOn (st : Strand) (v : Word) : BitVec 9 := coreDie st.home ++ v.extractLsb' 0 6

/-- The victims' records that SAVEREC takes from a cluster. -/
def State.savableIn (s : State) (cl : BitVec 9) : List Nat :=
  (s.strands.filter fun p => s.victim p.2 && p.2.savable && p.2.clusterOf == cl).map Prod.fst

/-- SAVEREC: nothing is written while a victim strand of the cluster has not halted. -/
def execSaverec (f : Form) (rd ra rb : BitVec 4) (s : State) : Host.Outcome State Fault Refusal :=
  s.issue f.gd f.len fun r st => s.privilegedOnly r st
    (let h := st.reg ra
     let cl := st.clusterOn (st.reg rb)
     let recs := s.savableIn cl
     let bytes := recs.flatMap fun q => (s.strand q).elim [] Strand.entry
     let done : State → Word → State := fun t v => t.updStrand r fun st => (st.setReg rd v).next f.len
     if (Handle.off h).toNat % 64 != 0 then s.raise r 3#5 h
     else if !s.halted (fun x => x.clusterOf == cl) then done s (0#12 ++ 2#4 ++ 0#48)
     else
       let ps := blockPieces h bytes (bytes.length / 64 + 1)
       s.accessAll r st permW (ps.map Prod.fst) [] fun places =>
         if places.all fun p => s.roomFor (unitCore st.home) (homeOf p) (places.filter (homeOf · == homeOf p)).length then
           let t := (ps.zip places).foldl (fun u x =>
             u.post r (.write (Handle.off x.1.1) x.1.2.length (Payload.ofBytes x.1.2) false) x.1.1 x.2 st.batch) s
           done (recs.foldl (fun u q => u.saveOne q) t) (0#16 ++ BitVec.ofNat 16 recs.length ++ BitVec.ofNat 32 bytes.length)
         else s.retry r)

/-! ### LOADREC (R334) -/

/-- What LOADREC has of one block: what it has read, or the payload where it is resident in this module on a die that does not sleep; else
the block has to be read first (R204, R222), which wakes its die (R363) and waits for its fill and its log (R252, R261). -/
def State.entryBlock (s : State) (st : Strand) (c : BitVec 9) (h : Word) : Option Payload :=
  match st.loaded.find? fun p => p.1 == Handle.block h with
  | some p => some p.2
  | none =>
  let held : BitVec 9 → Block → Option Payload := fun cl b =>
    if (s.die (clusterDie cl)).idle == 0 && b.full && !b.poisoned && b.gen == Handle.gen h then some b.payload else none
  match s.xlate c true h permR with
  | .ok (.dom cl blk) => (Maps.get (s.cluster cl).res blk).bind fun x => held cl x.b
  | .ok (.pad cl slot) => held cl (Maps.getD (s.cluster cl).pads slot.toNat Block.mapped)
  | _ => none

/-- The `n` bytes from a handle, or the block that is missing. -/
def State.entryBytes (s : State) (st : Strand) (c : BitVec 9) (h : Word) (n fuel : Nat) : List Byte ⊕ Word :=
  match fuel with
  | 0 => .inl []
  | fuel + 1 =>
    if n = 0 then .inl []
    else
      let k := min n (4096 - (Handle.off h).toNat)
      match s.entryBlock st c h with
      | none => .inr h
      | some d =>
        match s.entryBytes st c (padd49 h (BitVec.ofNat 64 k)) (n - k) fuel with
        | .inr x => .inr x
        | .inl bs => .inl (Payload.toBytes (Payload.slice d (Handle.off h).toNat k) |>.take k |>.append bs)

/-- A strand from the record of an entry (R62, R63). -/
def entryStrand (b : List Byte) (tracker : Nat) : Strand :=
  let x := b.drop 64
  let flags : BitVec 16 := BitVec.ofNat 16 (recField x 0xA6 2)
  let win : BitVec 3 := flags.extractLsb' 10 3
  let words := winWords win
  let e := (0xC0 + 4 * words + 63) / 64 * 64
  let anch := flags.getLsbD 13
  let mask := recField x (e + 8) 1
  let kinds := recField x (e + 9) 1
  let tile : Nat → Option Tile := fun i =>
    if anch && mask.testBit i then
      let before := ((List.range i).filter mask.testBit).length
      some { isInt := kinds.testBit i, phys := 0, reserved := false, data := Payload.ofBytes ((x.drop (e + 0x410 + 4096 * before)).take 4096) }
    else none
  { Strand.blank with
    regs := Vector.ofFn fun i : Fin 16 => BitVec.ofNat 64 (recField x (8 * i.val) 8)
    fd := Vector.ofFn fun i : Fin 8 => BitVec.ofNat 32 (recField x (0x80 + 4 * i.val) 4)
    pc := BitVec.ofNat 32 (recField x 0xA0 4), image := BitVec.ofNat 16 (recField x 0xA4 2)
    prio := flags.extractLsb' 14 2, win := win, steal := flags.extractLsb' 4 3
    tpc := BitVec.ofNat 32 (recField x 0xA8 4), tcause := BitVec.ofNat 8 (recField x 0xAC 1), tval := BitVec.ofNat 64 (recField x 0xB0 8)
    fflags := BitVec.ofNat 5 (recField x 0xAD 1), rmode := BitVec.ofNat 2 (recField x 0xAE 1), batch := BitVec.ofNat 2 (recField x 0xAE 1 / 16)
    opens := BitVec.ofNat 4 (recField x 0xAF 1), node := BitVec.ofNat 32 (recField x 0xB8 4)
    window := Vector.ofFn fun i : Fin 64 => if i.val < words then BitVec.ofNat 32 (recField x (0xC0 + 4 * i.val) 4) else 0
    tags := if anch then Vector.ofFn fun i : Fin 8 => BitVec.ofNat 8 (recField x (e + i.val) 1) else Vector.replicate 8 0
    vecs := if anch then Vector.ofFn fun i : Fin 8 => BitVec.ofNat 1024 (recField x (e + 0x10 + 128 * i.val) 128) else Vector.replicate 8 0
    tiles := Vector.ofFn fun i : Fin 8 => tile i.val
    tracker := tracker }

/-- FORMAT of an entry: it is not the one that its record makes. Length, reserved fields and extensions are all in that. DESIGN CHOICE (log
entry 99), where the list of R334 is silent: an entry whose ANCH or TCNT disagrees with its tags and tile mask, or whose padding is not
zero, is FORMAT; one whose PC field is no multiple of 4 is loaded, and its strand fetches at that pc. -/
def entryBad (b : List Byte) : Bool :=
  let st := entryStrand b 0
  let flags : BitVec 16 := BitVec.ofNat 16 (recField b (0x40 + 0xA6) 2)
  decide (4 < st.win.toNat) || decide (4 < st.steal.toNat) || st.tcause &&& 0x60#8 != 0 || st.flags != flags
    || ({ st with core := BitVec.ofNat 13 (recField b 5 1), loc := .store (BitVec.ofNat 9 (recField b 4 1)) }).entry != b

/-- Is a record still on its way into a dispatcher? -/
def State.arriving (s : State) (q : Nat) : Bool :=
  match s.strand q with
  | some st => (match st.loc with | .arriving _ => true | _ => false)
  | none => false

/-- A returning record is offered to its dispatcher (R58). -/
def State.offer (s : State) (q : Nat) : State :=
  match s.strand q with
  | some st => (match st.loc with | .arriving cl => s.offerRec q st cl | _ => s)
  | none => s

/-- The record of an entry, on its way to cluster `cl`: the saved one that it was made from, or a new one with a new tracker. -/
def State.loadedRec (s : State) (b : List Byte) (cl : BitVec 9) : Nat × State :=
  match s.savePool.find? fun q => (s.strand q).any fun st => st.entry == b with
  | some q => (q, (s.unlist q).updStrand q fun st => { st with loc := .arriving cl, wait := .run })
  | none =>
    let t := s.newTracker cl
    let id := t.2.fresh
    (id, { t.2 with fresh := id + 1 }.setStrand id { entryStrand b t.1 with loc := .arriving cl, core := clusterCore cl (recField b 5 1 % 16) })

/-- LOADREC has its record in the dispatcher, or tries again at its next turn (R58). -/
def State.handOver (s : State) (r q : Nat) (done : State → State) : State :=
  let s1 := s.offer q
  if s1.arriving q then (s1.updStrand r fun st => { st with handing := some q }).retry r else done s1

/-- LOADREC: a block of the entry that is not FULL at the handle's generation in this module is read as R204 gives, and the
instruction starts again with its data. -/
def execLoadrec (f : Form) (rd ra rb : BitVec 4) (s : State) : Host.Outcome State Fault Refusal :=
  s.issue f.gd f.len fun r st => s.privilegedOnly r st
    (let h := st.reg ra
     let cl := st.clusterOn (st.reg rb)
     let c := coreCluster st.home
     let done : Word → State → State := fun v t =>
       t.updStrand r fun st => { (st.setReg rd v).next f.len with loaded := [], handing := none }
     let ask : Word → State := fun x => s.access r st x permR fun p =>
       if s.roomFor (unitCore st.home) (homeOf p) 1 then s.request r st (.read false) x p (.loadrec f rd ra rb) x else s.retry r
     if (Handle.off h).toNat % 64 != 0 then s.raise r 3#5 h
     else match s.entryBytes st c h 4 3 with
       | .inr x => ask x
       | .inl l =>
         let len := leNat l
         let bad := done (0#28 ++ 1#4 ++ BitVec.ofNat 32 len) s
         match st.handing with
         | some q => s.handOver r q (done (BitVec.ofNat 64 len))
         | none =>
         if len < 256 || 32768 < len || len % 64 != 0 then bad
         else match s.entryBytes st c h len 10 with
           | .inr x => ask x
           | .inl b =>
             if entryBad b || (Maps.get s.images (recField b 0xE4 2)).isNone then bad
             else
               let q := s.loadedRec b cl
               q.2.handOver r q.1 (done (BitVec.ofNat 64 len)))

end Sys2Proof.Machine
end

