-- ==== Sys2Proof/Machine/Dispatch.lean ====
section
/-!
DEFINITION. One arm for each constructor of `Instr`: a direct call of its meaning.
-/
namespace Sys2Proof.Machine

/-- The effect of an instruction or event. -/
def exec (i : Instr) (s : State) : Host.Outcome State Fault Refusal :=
  match i with
  | .add f rd ra rb => Sys2Proof.Machine.execAdd f rd ra rb s
  | .sub f rd ra rb => Sys2Proof.Machine.execSub f rd ra rb s
  | .mul f rd ra rb => Sys2Proof.Machine.execMul f rd ra rb s
  | .mulh f rd ra rb => Sys2Proof.Machine.execMulh f rd ra rb s
  | .mulhu f rd ra rb => Sys2Proof.Machine.execMulhu f rd ra rb s
  | .div f rd ra rb => Sys2Proof.Machine.execDiv f rd ra rb s
  | .divu f rd ra rb => Sys2Proof.Machine.execDivu f rd ra rb s
  | .rem f rd ra rb => Sys2Proof.Machine.execRem f rd ra rb s
  | .remu f rd ra rb => Sys2Proof.Machine.execRemu f rd ra rb s
  | .and f rd ra rb => Sys2Proof.Machine.execAnd f rd ra rb s
  | .or f rd ra rb => Sys2Proof.Machine.execOr f rd ra rb s
  | .xor f rd ra rb => Sys2Proof.Machine.execXor f rd ra rb s
  | .andn f rd ra rb => Sys2Proof.Machine.execAndn f rd ra rb s
  | .shl f rd ra rb => Sys2Proof.Machine.execShl f rd ra rb s
  | .shr f rd ra rb => Sys2Proof.Machine.execShr f rd ra rb s
  | .sra f rd ra rb => Sys2Proof.Machine.execSra f rd ra rb s
  | .ror f rd ra rb => Sys2Proof.Machine.execRor f rd ra rb s
  | .min f rd ra rb => Sys2Proof.Machine.execMin f rd ra rb s
  | .max f rd ra rb => Sys2Proof.Machine.execMax f rd ra rb s
  | .minu f rd ra rb => Sys2Proof.Machine.execMinu f rd ra rb s
  | .maxu f rd ra rb => Sys2Proof.Machine.execMaxu f rd ra rb s
  | .clz f rd ra => Sys2Proof.Machine.execClz f rd ra s
  | .ctz f rd ra => Sys2Proof.Machine.execCtz f rd ra s
  | .popc f rd ra => Sys2Proof.Machine.execPopc f rd ra s
  | .brev f rd ra => Sys2Proof.Machine.execBrev f rd ra s
  | .abs f rd ra => Sys2Proof.Machine.execAbs f rd ra s
  | .sext f rd ra w1 => Sys2Proof.Machine.execSext f rd ra w1 s
  | .zext f rd ra w1 => Sys2Proof.Machine.execZext f rd ra w1 s
  | .mov f rd ra => Sys2Proof.Machine.execMov f rd ra s
  | .addi f rd ra imm => Sys2Proof.Machine.execAddi f rd ra imm s
  | .andi f rd ra imm => Sys2Proof.Machine.execAndi f rd ra imm s
  | .ori f rd ra imm => Sys2Proof.Machine.execOri f rd ra imm s
  | .xori f rd ra imm => Sys2Proof.Machine.execXori f rd ra imm s
  | .addiLiteral f rd ra lit => Sys2Proof.Machine.execAddiLiteral f rd ra lit s
  | .andiLiteral f rd ra lit => Sys2Proof.Machine.execAndiLiteral f rd ra lit s
  | .oriLiteral f rd ra lit => Sys2Proof.Machine.execOriLiteral f rd ra lit s
  | .xoriLiteral f rd ra lit => Sys2Proof.Machine.execXoriLiteral f rd ra lit s
  | .shli f rd ra n => Sys2Proof.Machine.execShli f rd ra n s
  | .shri f rd ra n => Sys2Proof.Machine.execShri f rd ra n s
  | .srai f rd ra n => Sys2Proof.Machine.execSrai f rd ra n s
  | .rori f rd ra n => Sys2Proof.Machine.execRori f rd ra n s
  | .movi f rd imm => Sys2Proof.Machine.execMovi f rd imm s
  | .movhi f rd imm => Sys2Proof.Machine.execMovhi f rd imm s
  | .ldk f rd lit => Sys2Proof.Machine.execLdk f rd lit s
  | .bfx f rd ra pos len1 => Sys2Proof.Machine.execBfx f rd ra pos len1 s
  | .bfxu f rd ra pos len1 => Sys2Proof.Machine.execBfxu f rd ra pos len1 s
  | .bfi f rd ra pos len1 => Sys2Proof.Machine.execBfi f rd ra pos len1 s
  | .ceq f rd ra rb bit => Sys2Proof.Machine.execCeq f rd ra rb bit s
  | .cne f rd ra rb bit => Sys2Proof.Machine.execCne f rd ra rb bit s
  | .clt f rd ra rb bit => Sys2Proof.Machine.execClt f rd ra rb bit s
  | .cltu f rd ra rb bit => Sys2Proof.Machine.execCltu f rd ra rb bit s
  | .cle f rd ra rb bit => Sys2Proof.Machine.execCle f rd ra rb bit s
  | .cleu f rd ra rb bit => Sys2Proof.Machine.execCleu f rd ra rb bit s
  | .ceqi f rd ra imm bit => Sys2Proof.Machine.execCeqi f rd ra imm bit s
  | .clti f rd ra imm bit => Sys2Proof.Machine.execClti f rd ra imm bit s
  | .ceqiLiteral f rd ra bit lit => Sys2Proof.Machine.execCeqiLiteral f rd ra bit lit s
  | .cltiLiteral f rd ra bit lit => Sys2Proof.Machine.execCltiLiteral f rd ra bit lit s
  | .bset f rd ra bit => Sys2Proof.Machine.execBset f rd ra bit s
  | .bclr f rd ra bit => Sys2Proof.Machine.execBclr f rd ra bit s
  | .binv f rd ra bit => Sys2Proof.Machine.execBinv f rd ra bit s
  | .bmov f rd ra rb bit => Sys2Proof.Machine.execBmov f rd ra rb bit s
  | .sel f rd ra rb bit => Sys2Proof.Machine.execSel f rd ra rb bit s
  | .pmk f rd ra rb => Sys2Proof.Machine.execPmk f rd ra rb s
  | .padd f rd ra rb => Sys2Proof.Machine.execPadd f rd ra rb s
  | .pidx f rd ra rb => Sys2Proof.Machine.execPidx f rd ra rb s
  | .psub f rd ra rb => Sys2Proof.Machine.execPsub f rd ra rb s
  | .pgen f rd ra rb => Sys2Proof.Machine.execPgen f rd ra rb s
  | .pinc f rd ra => Sys2Proof.Machine.execPinc f rd ra s
  | .pfld f rd ra sel => Sys2Proof.Machine.execPfld f rd ra sel s
  | .pblk f rd ra => Sys2Proof.Machine.execPblk f rd ra s
  | .paddi f rd ra imm => Sys2Proof.Machine.execPaddi f rd ra imm s
  | .j f disp => Sys2Proof.Machine.execJ f disp s
  | .jal f disp => Sys2Proof.Machine.execJal f disp s
  | .jr f ra => Sys2Proof.Machine.execJr f ra s
  | .jalr f rd ra => Sys2Proof.Machine.execJalr f rd ra s
  | .bbs f ra bit disp => Sys2Proof.Machine.execBbs f ra bit disp s
  | .bbc f ra bit disp => Sys2Proof.Machine.execBbc f ra bit disp s
  | .bz f ra disp => Sys2Proof.Machine.execBz f ra disp s
  | .bnz f ra disp => Sys2Proof.Machine.execBnz f ra disp s
  | .dbnz f ra disp => Sys2Proof.Machine.execDbnz f ra disp s
  | .nop f => Sys2Proof.Machine.execNop f s
  | .fadd f wd wa wb => Sys2Proof.Machine.execFadd f wd wa wb s
  | .fsub f wd wa wb => Sys2Proof.Machine.execFsub f wd wa wb s
  | .fmul f wd wa wb => Sys2Proof.Machine.execFmul f wd wa wb s
  | .fdiv f wd wa wb => Sys2Proof.Machine.execFdiv f wd wa wb s
  | .fsqrt f wd wa => Sys2Proof.Machine.execFsqrt f wd wa s
  | .fmin f wd wa wb => Sys2Proof.Machine.execFmin f wd wa wb s
  | .fmax f wd wa wb => Sys2Proof.Machine.execFmax f wd wa wb s
  | .fabs f wd wa => Sys2Proof.Machine.execFabs f wd wa s
  | .fneg f wd wa => Sys2Proof.Machine.execFneg f wd wa s
  | .ffma f wd wa wb wc => Sys2Proof.Machine.execFfma f wd wa wb wc s
  | .ffms f wd wa wb wc => Sys2Proof.Machine.execFfms f wd wa wb wc s
  | .fclt f wa wb gd bit => Sys2Proof.Machine.execFclt f wa wb gd bit s
  | .fcle f wa wb gd bit => Sys2Proof.Machine.execFcle f wa wb gd bit s
  | .fceq f wa wb gd bit => Sys2Proof.Machine.execFceq f wa wb gd bit s
  | .wget f ga wx => Sys2Proof.Machine.execWget f ga wx s
  | .wput f wx ga => Sys2Proof.Machine.execWput f wx ga s
  | .wmov f wx wy => Sys2Proof.Machine.execWmov f wx wy s
  | .fcvti f wd wa => Sys2Proof.Machine.execFcvti f wd wa s
  | .fcvtf f wd wa => Sys2Proof.Machine.execFcvtf f wd wa s
  | .ldl f sz rd ra imm => Sys2Proof.Machine.execLdl f sz rd ra imm s
  | .ldlu f sz rd ra imm => Sys2Proof.Machine.execLdlu f sz rd ra imm s
  | .stl f sz rd ra imm => Sys2Proof.Machine.execStl f sz rd ra imm s
  | .wldl f wd ga imm => Sys2Proof.Machine.execWldl f wd ga imm s
  | .wstl f wd ga imm => Sys2Proof.Machine.execWstl f wd ga imm s
  | .ld o => Sys2Proof.Machine.execLd o s
  | .ldv o => Sys2Proof.Machine.execLdv o s
  | .wld o => Sys2Proof.Machine.execWld o s
  | .st o => Sys2Proof.Machine.execSt o s
  | .stv o => Sys2Proof.Machine.execStv o s
  | .fill o => Sys2Proof.Machine.execFill o s
  | .fillLiteral o lit => Sys2Proof.Machine.execFillLiteral o lit s
  | .wait o => Sys2Proof.Machine.execWait o s
  | .probe o => Sys2Proof.Machine.execProbe o s
  | .seal o => Sys2Proof.Machine.execSeal o s
  | .seale o => Sys2Proof.Machine.execSeale o s
  | .arm o => Sys2Proof.Machine.execArm o s
  | .clr o => Sys2Proof.Machine.execClr o s
  | .clrx o => Sys2Proof.Machine.execClrx o s
  | .rel o => Sys2Proof.Machine.execRel o s
  | .genr o => Sys2Proof.Machine.execGenr o s
  | .acc o => Sys2Proof.Machine.execAcc o s
  | .acct o => Sys2Proof.Machine.execAcct o s
  | .acnt o => Sys2Proof.Machine.execAcnt o s
  | .pref o => Sys2Proof.Machine.execPref o s
  | .discard o => Sys2Proof.Machine.execDiscard o s
  | .migr o => Sys2Proof.Machine.execMigr o s
  | .cpy o => Sys2Proof.Machine.execCpy o s
  | .cpys o => Sys2Proof.Machine.execCpys o s
  | .cpyx o => Sys2Proof.Machine.execCpyx o s
  | .cpyh o => Sys2Proof.Machine.execCpyh o s
  | .hadd o => Sys2Proof.Machine.execHadd o s
  | .hcas o => Sys2Proof.Machine.execHcas o s
  | .vadd o => Sys2Proof.Machine.execVadd o s
  | .vsub o => Sys2Proof.Machine.execVsub o s
  | .vmul o => Sys2Proof.Machine.execVmul o s
  | .vfma o => Sys2Proof.Machine.execVfma o s
  | .vfms o => Sys2Proof.Machine.execVfms o s
  | .vmin o => Sys2Proof.Machine.execVmin o s
  | .vmax o => Sys2Proof.Machine.execVmax o s
  | .vabs o => Sys2Proof.Machine.execVabs o s
  | .vneg o => Sys2Proof.Machine.execVneg o s
  | .vand o => Sys2Proof.Machine.execVand o s
  | .vor o => Sys2Proof.Machine.execVor o s
  | .vxor o => Sys2Proof.Machine.execVxor o s
  | .vshl o => Sys2Proof.Machine.execVshl o s
  | .vshr o => Sys2Proof.Machine.execVshr o s
  | .vsra o => Sys2Proof.Machine.execVsra o s
  | .vcvt o => Sys2Proof.Machine.execVcvt o s
  | .vscl o => Sys2Proof.Machine.execVscl o s
  | .vrcp o => Sys2Proof.Machine.execVrcp o s
  | .vrsq o => Sys2Proof.Machine.execVrsq o s
  | .vexp2 o => Sys2Proof.Machine.execVexp2 o s
  | .vlog2 o => Sys2Proof.Machine.execVlog2 o s
  | .vtanh o => Sys2Proof.Machine.execVtanh o s
  | .vred o => Sys2Proof.Machine.execVred o s
  | .vcmp o => Sys2Proof.Machine.execVcmp o s
  | .vsel o => Sys2Proof.Machine.execVsel o s
  | .vperm o => Sys2Proof.Machine.execVperm o s
  | .vbcast o => Sys2Proof.Machine.execVbcast o s
  | .vbcastLiteral o lit => Sys2Proof.Machine.execVbcastLiteral o lit s
  | .vins o => Sys2Proof.Machine.execVins o s
  | .vext o => Sys2Proof.Machine.execVext o s
  | .viota o => Sys2Proof.Machine.execViota o s
  | .vzero o => Sys2Proof.Machine.execVzero o s
  | .vtag o => Sys2Proof.Machine.execVtag o s
  | .vsettToDescriptor o => Sys2Proof.Machine.execVsettToDescriptor o s
  | .vsettFromDescriptor o => Sys2Proof.Machine.execVsettFromDescriptor o s
  | .vpack o => Sys2Proof.Machine.execVpack o s
  | .vunpk o => Sys2Proof.Machine.execVunpk o s
  | .tacq o => Sys2Proof.Machine.execTacq o s
  | .trel o => Sys2Proof.Machine.execTrel o s
  | .tzero o => Sys2Proof.Machine.execTzero o s
  | .tld o => Sys2Proof.Machine.execTld o s
  | .tst o => Sys2Proof.Machine.execTst o s
  | .taddr o => Sys2Proof.Machine.execTaddr o s
  | .taddc o => Sys2Proof.Machine.execTaddc o s
  | .tscl o => Sys2Proof.Machine.execTscl o s
  | .tmaxr o => Sys2Proof.Machine.execTmaxr o s
  | .tsumr o => Sys2Proof.Machine.execTsumr o s
  | .texpr o => Sys2Proof.Machine.execTexpr o s
  | .trdv o => Sys2Proof.Machine.execTrdv o s
  | .twrv o => Sys2Proof.Machine.execTwrv o s
  | .mma o => Sys2Proof.Machine.execMma o s
  | .mmas o => Sys2Proof.Machine.execMmas o s
  | .mmai o => Sys2Proof.Machine.execMmai o s
  | .topk o => Sys2Proof.Machine.execTopk o s
  | .topkm o => Sys2Proof.Machine.execTopkm o s
  | .fence f scope => Sys2Proof.Machine.execFence f scope s
  | .bsel f b => Sys2Proof.Machine.execBsel f b s
  | .bclose f rd b q => Sys2Proof.Machine.execBclose f rd b q s
  | .fork f ra win => Sys2Proof.Machine.execFork f ra win s
  | .join f ra => Sys2Proof.Machine.execJoin f ra s
  | .yield f => Sys2Proof.Machine.execYield f s
  | .spawn f rd ra rb => Sys2Proof.Machine.execSpawn f rd ra rb s
  | .endStrand f => Sys2Proof.Machine.execEndStrand f s
  | .send o => Sys2Proof.Machine.execSend o s
  | .chmk o => Sys2Proof.Machine.execChmk o s
  | .rcir o => Sys2Proof.Machine.execRcir o s
  | .tgenr o => Sys2Proof.Machine.execTgenr o s
  | .trap f code => Sys2Proof.Machine.execTrap f code s
  | .rett f skip => Sys2Proof.Machine.execRett f skip s
  | .rdsr f rd sr => Sys2Proof.Machine.execRdsr f rd sr s
  | .wrsr f ra sr => Sys2Proof.Machine.execWrsr f ra sr s
  | .wrsrPartition f ra => Sys2Proof.Machine.execWrsrPartition f ra s
  | .xbset f ra => Sys2Proof.Machine.execXbset f ra s
  | .ovld f ra => Sys2Proof.Machine.execOvld f ra s
  | .tlbi f ra all => Sys2Proof.Machine.execTlbi f ra all s
  | .idle f rd => Sys2Proof.Machine.execIdle f rd s
  | .saverec f rd ra rb => Sys2Proof.Machine.execSaverec f rd ra rb s
  | .loadrec f rd ra rb => Sys2Proof.Machine.execLoadrec f rd ra rb s
  | .mapb f rd ra rb => Sys2Proof.Machine.execMapb f rd ra rb s
  | .perf f rd ra => Sys2Proof.Machine.execPerf f rd ra s
  | .illegalEncoding w0 w1 => Sys2Proof.Machine.execIllegalEncoding w0 w1 s
  | .overlayFetch => Sys2Proof.Machine.execOverlayFetch s
  | .powerGood o => Sys2Proof.Machine.execPowerGood o s
  | .coldReset => Sys2Proof.Machine.execColdReset s
  | .supplyFault => Sys2Proof.Machine.execSupplyFault s
  | .supplyRestored => Sys2Proof.Machine.execSupplyRestored s
  | .bellowsPeriod dies hbm => Sys2Proof.Machine.execBellowsPeriod dies hbm s
  | .openSession port seq body number => Sys2Proof.Machine.execOpenSession port seq body number s
  | .confirm session seq sigOk => Sys2Proof.Machine.execConfirm session seq sigOk s
  | .confirmTimeout session => Sys2Proof.Machine.execConfirmTimeout session s
  | .close => Sys2Proof.Machine.execClose s
  | .uhpSegment port dg => Sys2Proof.Machine.execUhpSegment port dg s
  | .ack port dg => Sys2Proof.Machine.execAck port dg s
  | .uhpRetransmit session seq => Sys2Proof.Machine.execUhpRetransmit session seq s
  | .uhpUnknownType => Sys2Proof.Machine.execUhpUnknownType s
  | .imageLoad => Sys2Proof.Machine.execImageLoad s
  | .imageUnload => Sys2Proof.Machine.execImageUnload s
  | .graphInstall => Sys2Proof.Machine.execGraphInstall s
  | .graphRemove => Sys2Proof.Machine.execGraphRemove s
  | .blockMap frames => Sys2Proof.Machine.execBlockMap frames s
  | .blockUnmap => Sys2Proof.Machine.execBlockUnmap s
  | .region rkey => Sys2Proof.Machine.execRegion rkey s
  | .qp port qpn psn => Sys2Proof.Machine.execQp port qpn psn s
  | .qpDestroy => Sys2Proof.Machine.execQpDestroy s
  | .run number nodes => Sys2Proof.Machine.execRun number nodes s
  | .quench => Sys2Proof.Machine.execQuench s
  | .latency => Sys2Proof.Machine.execLatency s
  | .quote => Sys2Proof.Machine.execQuote s
  | .resetWrite => Sys2Proof.Machine.execResetWrite s
  | .planloadWrite => Sys2Proof.Machine.execPlanloadWrite s
  | .hostkeyWrite => Sys2Proof.Machine.execHostkeyWrite s
  | .registerWrite => Sys2Proof.Machine.execRegisterWrite s
  | .roceWrite p data => Sys2Proof.Machine.execRoceWrite p data s
  | .roceWriteImm p data imm => Sys2Proof.Machine.execRoceWriteImm p data imm s
  | .roceRead p len => Sys2Proof.Machine.execRoceRead p len s
  | .roceUnsupportedOp p => Sys2Proof.Machine.execRoceUnsupportedOp p s
  | .roceUnknownQp p => Sys2Proof.Machine.execRoceUnknownQp p s
  | .roceWriteAck qpn => Sys2Proof.Machine.execRoceWriteAck qpn s
  | .watcherRegister m => Sys2Proof.Machine.execWatcherRegister m s
  | .watcherWake m => Sys2Proof.Machine.execWatcherWake m s
  | .belfryDispatchRound die quad => Sys2Proof.Machine.execBelfryDispatchRound die quad s
  | .belfryHandover die dest node => Sys2Proof.Machine.execBelfryHandover die dest node s
  | .dispatcherAccept rec => Sys2Proof.Machine.execDispatcherAccept rec s
  | .dispatcherPlace cl slot => Sys2Proof.Machine.execDispatcherPlace cl slot s
  | .imageSwitchDone core => Sys2Proof.Machine.execImageSwitchDone core s
  | .dequePop core slot => Sys2Proof.Machine.execDequePop core slot s
  | .stealAttempt core victim slot => Sys2Proof.Machine.execStealAttempt core victim slot s
  | .wakeDeliver m => Sys2Proof.Machine.execWakeDeliver m s
  | .homeRead m => Sys2Proof.Machine.execHomeRead m s
  | .homeWrite m => Sys2Proof.Machine.execHomeWrite m s
  | .homeSeal m => Sys2Proof.Machine.execHomeSeal m s
  | .homeArrival m => Sys2Proof.Machine.execHomeArrival m s
  | .homeAccumulate m => Sys2Proof.Machine.execHomeAccumulate m s
  | .homeArm m => Sys2Proof.Machine.execHomeArm m s
  | .homeRelease m => Sys2Proof.Machine.execHomeRelease m s
  | .homeClear m => Sys2Proof.Machine.execHomeClear m s
  | .homeDiscard m => Sys2Proof.Machine.execHomeDiscard m s
  | .homeProbe m => Sys2Proof.Machine.execHomeProbe m s
  | .blockFill cl blk => Sys2Proof.Machine.execBlockFill cl blk s
  | .dedupeRelease home u => Sys2Proof.Machine.execDedupeRelease home u s
  | .dedupeWindowExpiry cl u => Sys2Proof.Machine.execDedupeWindowExpiry cl u s
  | .operationRetransmit u seq => Sys2Proof.Machine.execOperationRetransmit u seq s
  | .batchSync m => Sys2Proof.Machine.execBatchSync m s
  | .batchCloseRebroadcast rec => Sys2Proof.Machine.execBatchCloseRebroadcast rec s
  | .closeReply m => Sys2Proof.Machine.execCloseReply m s
  | .readReply m => Sys2Proof.Machine.execReadReply m s
  | .statusReply m => Sys2Proof.Machine.execStatusReply m s
  | .recordStoreReply m => Sys2Proof.Machine.execRecordStoreReply m s
  | .dividerResult core => Sys2Proof.Machine.execDividerResult core s
  | .vectorDispatch anvil => Sys2Proof.Machine.execVectorDispatch anvil s
  | .matrixDispatch anvil => Sys2Proof.Machine.execMatrixDispatch anvil s
  | .vectorResult rec => Sys2Proof.Machine.execVectorResult rec s
  | .matrixResult rec => Sys2Proof.Machine.execMatrixResult rec s
  | .acctPost rec => Sys2Proof.Machine.execAcctPost rec s
  | .tongsOperandReply m => Sys2Proof.Machine.execTongsOperandReply m s
  | .copyCommandStart cl => Sys2Proof.Machine.execCopyCommandStart cl s
  | .copySourceReply m => Sys2Proof.Machine.execCopySourceReply m s
  | .proxyRequest die req => Sys2Proof.Machine.execProxyRequest die req s
  | .proxyReply die req ok data => Sys2Proof.Machine.execProxyReply die req ok data s
  | .proxyRetry die req expired => Sys2Proof.Machine.execProxyRetry die req expired s
  | .spawnService number nodes => Sys2Proof.Machine.execSpawnService number nodes s
  | .faultQueueService die => Sys2Proof.Machine.execFaultQueueService die s
  | .preemptWaitExpiry node => Sys2Proof.Machine.execPreemptWaitExpiry node s
  | .timeSliceExpiry inst => Sys2Proof.Machine.execTimeSliceExpiry inst s
  | .quenchDone => Sys2Proof.Machine.execQuenchDone s
  | .quenchResume => Sys2Proof.Machine.execQuenchResume s
  | .doneSealOutcome m => Sys2Proof.Machine.execDoneSealOutcome m s
  | .luDiscardStatus m => Sys2Proof.Machine.execLuDiscardStatus m s
  | .idleStateEntry u => Sys2Proof.Machine.execIdleStateEntry u s
  | .idleStateExit u => Sys2Proof.Machine.execIdleStateExit u s
  | .routedForward fr => Sys2Proof.Machine.execRoutedForward fr s
  | .routedAck r => Sys2Proof.Machine.execRoutedAck r s
  | .routedResend num => Sys2Proof.Machine.execRoutedResend num s
  | .flitReplay fibre => Sys2Proof.Machine.execFlitReplay fibre s
  | .sendAccept rec => Sys2Proof.Machine.execSendAccept rec s
  | .sendDeliver frm chan hd tags order data => Sys2Proof.Machine.execSendDeliver frm chan hd tags order data s
  | .rcirGather frm round plan digest gens => Sys2Proof.Machine.execRcirGather frm round plan digest gens s
  | .drain plan expect => Sys2Proof.Machine.execDrain plan expect s
  | .lanternDrained => Sys2Proof.Machine.execLanternDrained s
  | .drained frm => Sys2Proof.Machine.execDrained frm s
  | .configured plane a => Sys2Proof.Machine.execConfigured plane a s
  | .upcStatus plane a => Sys2Proof.Machine.execUpcStatus plane a s
  | .upcRetransmit plane => Sys2Proof.Machine.execUpcRetransmit plane s
  | .planeFallback plane => Sys2Proof.Machine.execPlaneFallback plane s
  | .lanternRelock up r => Sys2Proof.Machine.execLanternRelock up r s
  | .fibreRelockTimeout f => Sys2Proof.Machine.execFibreRelockTimeout f s
  | .locked frm => Sys2Proof.Machine.execLocked frm s
  | .go fallback => Sys2Proof.Machine.execGo fallback s
  | .abort => Sys2Proof.Machine.execAbort s
  | .errorReport e => Sys2Proof.Machine.execErrorReport e s
  | .selfTestStart u => Sys2Proof.Machine.execSelfTestStart u s
  | .selfTestComplete u pass => Sys2Proof.Machine.execSelfTestComplete u pass s
  | .hbmScrub stack line bad => Sys2Proof.Machine.execHbmScrub stack line bad s
  | .rfmAlert stack cycles => Sys2Proof.Machine.execRfmAlert stack cycles s
  | .dieFailure die => Sys2Proof.Machine.execDieFailure die s
  | .walkComplete rec => Sys2Proof.Machine.execWalkComplete rec s
  | .operationAck m => Sys2Proof.Machine.execOperationAck m s
  | .ovldCopyComplete core => Sys2Proof.Machine.execOvldCopyComplete core s
  | .leaderPlanRequest frm => Sys2Proof.Machine.execLeaderPlanRequest frm s
  | .leaderPlanReply gen plan => Sys2Proof.Machine.execLeaderPlanReply gen plan s
  | .leaderUnreachableTimeout => Sys2Proof.Machine.execLeaderUnreachableTimeout s

end Sys2Proof.Machine
end

