-- ==== Sys2Proof/Machine/Step.lean ====
section
/-!
DEFINITION. One step: the next move of the schedule, else the one the part makes.
-/
namespace Sys2Proof.Machine

/-- After an instruction or event nobody issues any more. -/
def finish (o : Host.Outcome State Fault Refusal) : Host.Outcome State Fault Refusal :=
  match o with
  | .next t => .next { t with cur := none }
  | .fault r => .fault r
  | .refused r => .refused r

/-- A move: an event takes place, another module's extent enters or leaves the tables, which stand in HBM (R15), or another module has
entered one of this module's, or a core has one turn (R101). A scheduled row that is no event, or that cannot take place now, changes
nothing. -/
def runMove (m : Move) (s : State) : Host.Outcome State Fault Refusal :=
  match m with
  | .event i => if s.mayHappen i then exec i s else .next s
  | .peerExtent frm vbn e => .next (if s.ready && s.supplyOk then s.peerExtent frm vbn e else s)
  | .extentEntered frm vbn => .next (if s.ready then s.extentEntered frm vbn else s)
  | .turn k =>
    match s.turnOf k with
    | .unused => .next (s.countTurn k false)
    | .skip r => .next ((s.countTurn k false).updStrand r fun st => { st with wait := .run })
    | .run r i => exec i { s.countTurn k true with cur := some r }

/-- One step of the machine. -/
def step (s : State) : Host.Outcome State Fault Refusal :=
  finish (runMove s.nextMove.1 { s.advance with schedule := s.nextMove.2, cur := none })

/-- The state with the instruction whose bits are `w` stored where the next step fetches (log entry 16). -/
def State.withFetchWord (s : State) (nbits w : Nat) : State := s.withCode (tableWords (w % 2 ^ nbits))

end Sys2Proof.Machine
end

