-- ==== Sys2Proof/Safety.lean ====
section
/-!
DEFINITION. What counts as a safe run, and the invariant that every step keeps.
-/
namespace Sys2Proof.Machine

/-- A step goes on: it ends in no fault and no refusal. -/
def State.goesOn (s : State) : Prop := ∃ t, step s = .next t

/-- The invariant: HBM and every core-private store in canonical form (no byte listed twice or out of order, no zero byte
listed), and BOOTSTATUS.STAGE one of the values that R388 gives. -/
structure State.Inv (s : State) : Prop where
  hbm : Memory.wf s.hbm = true
  stores : ∀ p ∈ s.cores, Memory.wf p.2.store = true
  stage : s.boot.stage ≤ 7#4 ∨ s.boot.stage = 15#4

/-- The strand keeps its place when a unit is done with it: its instance has not ended, and no self-test and no loss drives it from its
core or from the Anvil of its tiles (R319, R372, R375). -/
def State.stays (s : State) (st : Strand) : Prop :=
  st.ended = false ∧ s.fenced st.home = false ∧ s.inService (coreCluster st.home) = true ∧ s.fencedAnvil (coreAnvil st.home) = false

/-- Is the operation on its way under number `k`: over the mesh to its home on this module, or as routed traffic to the module
that is its home (R300), in the Lantern's queue or sent, under whichever topology generation (R309), and kept for its receipt (R301)? -/
def State.onWay (s : State) (k : Nat) (o : Op) : Prop :=
  match o.place with
  | .off m => ∃ g, ({ src := s.modNo, dst := m, num := k, body := s.opBody o, gen := g } : Frame) ∈ s.lantern ++ s.kept
  | _ => Maps.get s.net k = some (.op o)

end Sys2Proof.Machine
end

