-- ==== Sys2Proof/Certificates/Slice0/Obligations.lean ====
section
/-!
DEFINITION. The statements for the provers. Each docstring says which rules of the spec it formalises.
-/
open Sys2Proof Sys2Proof.Machine

/-- Two-source integer and pointer instructions write the result of their formula (R110, R119, R83, R80). For ADD, SUB, MUL, MULH, MULHU, AND, OR, XOR, ANDN, SHL, SHR, SRA, ROR, MIN, MAX, MINU, MAXU, PMK, PADD, PIDX, PSUB and PGEN, at every state with an issuing strand: if the guard holds, exec answers the next state in which rd holds the result of the table (signed and high products by exact integers), the pc has moved past the instruction and nothing else has changed; with a false guard only the pc moves. -/
def Obligations.ThreeRegisterResults : Prop :=
  ∀ p ∈ ([(.add, fun a b => a + b), (.sub, fun a b => a - b), (.mul, fun a b => a * b),
      (.mulh, fun a b => BitVec.ofInt 64 (a.toInt * b.toInt / 2 ^ 64)), (.mulhu, fun a b => BitVec.ofNat 64 (a.toNat * b.toNat / 2 ^ 64)),
      (.and, fun a b => a &&& b), (.or, fun a b => a ||| b), (.xor, fun a b => a ^^^ b), (.andn, fun a b => a &&& ~~~b),
      (.shl, fun a b => a <<< (b.toNat % 64)), (.shr, fun a b => BitVec.ofNat 64 (a.toNat / 2 ^ (b.toNat % 64))),
      (.sra, fun a b => BitVec.ofInt 64 (a.toInt / 2 ^ (b.toNat % 64))), (.ror, fun a b => a.rotateRight (b.toNat % 64)),
      (.min, fun a b => if a.toInt ≤ b.toInt then a else b), (.max, fun a b => if a.toInt ≤ b.toInt then b else a),
      (.minu, fun a b => if a.toNat ≤ b.toNat then a else b), (.maxu, fun a b => if a.toNat ≤ b.toNat then b else a),
      (.pmk, fun a b => BitVec.ofNat 64 (a.toNat % 2 ^ 12 * 2 ^ 52 + b.toNat % 2 ^ 52)),
      (.padd, fun a b => BitVec.ofNat 64 (a.toNat / 2 ^ 49 * 2 ^ 49 + (a.toNat + b.toNat) % 2 ^ 49)),
      (.pidx, fun a b => BitVec.ofNat 64 (a.toNat / 2 ^ 49 * 2 ^ 49 + (a.toNat + b.toNat * 4096) % 2 ^ 49)),
      (.psub, fun a b => (a - b).extractLsb' 0 49 |>.signExtend 64),
      (.pgen, fun a b => BitVec.ofNat 64 (b.toNat % 2 ^ 12 * 2 ^ 52 + a.toNat % 2 ^ 52))] :
      List ((Form → BitVec 4 → BitVec 4 → BitVec 4 → Instr) × (Word → Word → Word))),
    ∀ (f : Form) (rd ra rb : BitVec 4) (s : State) (r : Nat) (st : Strand), s.issuing = some (r, st) →
      exec (p.1 f rd ra rb) s = .next (s.setStrand r
        (if st.guardOk f.gd then
          { st with regs := st.regs.set rd.toNat (p.2 (st.reg ra) (st.reg rb)) rd.isLt, pc := st.pc + BitVec.ofNat 32 f.len }
        else { st with pc := st.pc + BitVec.ofNat 32 f.len }))

/-- One-source, immediate, literal and constant instructions write the result of their formula (R73, R111, R112, R113, R114, R115, R118, R119, R120, R83). For CLZ, CTZ, POPC, BREV, ABS, MOV, SEXT, ZEXT, ADDI, ANDI, ORI, XORI, SHLI, SHRI, SRAI, RORI, BFX, BFXU, BSET, BCLR, BINV, PINC, PBLK and PADDI: if the guard holds, exec answers the next state in which rd holds the result and the pc has moved past the instruction, and nothing else has changed; with a false guard only the pc moves. ADDI, ANDI, ORI and XORI with a literal, LDK, MOVI, MOVHI, BFI, SEL and PFLD each write rd by the formula of their rule, move the pc past the instruction (the literal forms by their own length) and change nothing else; with a false guard only the pc moves. BFI is stated bit by bit through the merge of its field, SEL takes its predicate from rd. -/
def Obligations.OneSourceAndConstantResults : Prop :=
  (∀ (w n bit : BitVec 6) (imm : BitVec 12),
  ∀ p ∈ ([(.clz, fun a => BitVec.ofNat 64 (64 - Nat.size a.toNat)), (.ctz, fun a => if a = 0 then 64 else BitVec.ofNat 64 (padicValNat 2 a.toNat)),
      (.popc, fun a => BitVec.ofNat 64 ((List.range 64).countP a.getLsbD)), (.brev, fun a => a.reverse),
      (.abs, fun a => BitVec.ofInt 64 |a.toInt|), (.mov, fun a => a),
      (fun f rd ra => .sext f rd ra w, fun a => (a.setWidth (w.toNat + 1)).signExtend 64),
      (fun f rd ra => .zext f rd ra w, fun a => BitVec.ofNat 64 (a.toNat % 2 ^ (w.toNat + 1))),
      (fun f rd ra => .addi f rd ra imm, fun a => a + imm.signExtend 64), (fun f rd ra => .andi f rd ra imm, fun a => a &&& imm.signExtend 64),
      (fun f rd ra => .ori f rd ra imm, fun a => a ||| imm.signExtend 64), (fun f rd ra => .xori f rd ra imm, fun a => a ^^^ imm.signExtend 64),
      (fun f rd ra => .shli f rd ra n, fun a => BitVec.ofNat 64 (a.toNat * 2 ^ n.toNat)),
      (fun f rd ra => .shri f rd ra n, fun a => BitVec.ofNat 64 (a.toNat / 2 ^ n.toNat)),
      (fun f rd ra => .srai f rd ra n, fun a => BitVec.ofInt 64 (a.toInt / 2 ^ n.toNat)),
      (fun f rd ra => .rori f rd ra n, fun a => a.rotateRight n.toNat),
      (fun f rd ra => .bfx f rd ra n w, fun a => (a.extractLsb' n.toNat (w.toNat + 1)).signExtend 64),
      (fun f rd ra => .bfxu f rd ra n w, fun a => BitVec.ofNat 64 (a.toNat / 2 ^ n.toNat % 2 ^ (w.toNat + 1))),
      (fun f rd ra => .bset f rd ra bit, fun a => a ||| BitVec.ofNat 64 (2 ^ bit.toNat)),
      (fun f rd ra => .bclr f rd ra bit, fun a => a &&& ~~~BitVec.ofNat 64 (2 ^ bit.toNat)),
      (fun f rd ra => .binv f rd ra bit, fun a => a ^^^ BitVec.ofNat 64 (2 ^ bit.toNat)),
      (.pinc, fun a => a + BitVec.ofNat 64 (2 ^ 52)), (.pblk, fun a => BitVec.ofNat 64 (a.toNat / 4096 * 4096)),
      (fun f rd ra => .paddi f rd ra imm, fun a => BitVec.ofNat 64 (a.toNat / 2 ^ 49 * 2 ^ 49 + (a + imm.signExtend 64).toNat % 2 ^ 49))] :
      List ((Form → BitVec 4 → BitVec 4 → Instr) × (Word → Word))),
    ∀ (f : Form) (rd ra : BitVec 4) (s : State) (r : Nat) (st : Strand), s.issuing = some (r, st) →
      exec (p.1 f rd ra) s = .next (s.setStrand r
        (if st.guardOk f.gd then
          { st with regs := st.regs.set rd.toNat (p.2 (st.reg ra)) rd.isLt, pc := st.pc + BitVec.ofNat 32 f.len }
        else { st with pc := st.pc + BitVec.ofNat 32 f.len }))) ∧
  (∀ (f : Form) (rd ra rb sel : BitVec 4) (pos len1 bit : BitVec 6) (imm : BitVec 20) (lit : Word),
  ∀ p ∈ ([(.addiLiteral f rd ra lit, f.litLen, fun st => st.reg ra + lit), (.andiLiteral f rd ra lit, f.litLen, fun st => st.reg ra &&& lit),
      (.oriLiteral f rd ra lit, f.litLen, fun st => st.reg ra ||| lit), (.xoriLiteral f rd ra lit, f.litLen, fun st => st.reg ra ^^^ lit),
      (.ldk f rd lit, f.litLen, fun _ => lit), (.movi f rd imm, f.len, fun _ => imm.signExtend 64),
      (.movhi f rd imm, f.len, fun st => BitVec.ofNat 64 (imm.toNat * 2 ^ 44 + (st.reg rd).toNat % 2 ^ 44)),
      (.bfi f rd ra pos len1, f.len, fun st => BitVec.ofFnLE fun i : Fin 64 =>
        if pos.toNat ≤ i.val ∧ i.val < pos.toNat + len1.toNat + 1 then (st.reg ra).getLsbD (i.val - pos.toNat) else (st.reg rd).getLsbD i.val),
      (.sel f rd ra rb bit, f.len, fun st => if (st.reg rd).getLsbD bit.toNat then st.reg ra else st.reg rb),
      (.pfld f rd ra sel, f.len, fun st => BitVec.ofNat 64 (match sel.toNat with
        | 0 => (st.reg ra).toNat / 2 ^ 52
        | 1 => (st.reg ra).toNat / 2 ^ 49 % 2 ^ 3
        | 2 => (st.reg ra).toNat / 2 ^ 12 % 2 ^ 37
        | 3 => (st.reg ra).toNat % 2 ^ 12
        | 4 => (st.reg ra).toNat / 2 ^ 30 % 2 ^ 8
        | 5 => (st.reg ra).toNat / 2 ^ 27 % 2 ^ 3
        | 6 => (st.reg ra).toNat / 2 ^ 21 % 2 ^ 6
        | _ => (st.reg ra).toNat / 2 ^ 12 % 2 ^ 9))] : List (Instr × Nat × (Strand → Word))),
    ∀ (s : State) (r : Nat) (st : Strand), s.issuing = some (r, st) →
      exec p.1 s = .next (s.setStrand r
        (if st.guardOk f.gd then
          { st with regs := st.regs.set rd.toNat (p.2.2 st) rd.isLt, pc := st.pc + BitVec.ofNat 32 p.2.1 }
        else { st with pc := st.pc + BitVec.ofNat 32 p.2.1 })))

/-- A compare writes exactly the named bit of rd, and branches and jumps move the pc by displacement or to a register (R107, R116, R117, R118, R83, R121, R69). CEQ, CNE, CLT, CLTU, CLE, CLEU, BMOV, CEQI, CLTI and their literal forms: if the guard holds, the named bit of rd takes the condition, every other bit of rd and everything else stays, and the pc moves past the instruction; with a false guard only the pc moves. With a guard that holds: J and JAL go to the pc plus four times the signed displacement, JAL leaving the address after it in g7; BBS, BBC, BZ and BNZ go there when their condition holds and else past themselves; DBNZ counts its register down and goes there while the new value is not zero; JR and JALR go to the address in ra when its bits 1:0 and 63:32 are zero, JALR leaving the link in rd after ra is read, and raise ALIGN otherwise; NOP goes on. With a false guard each of them only moves the pc past itself. -/
def Obligations.ComparesAndBranches : Prop :=
  (∀ (f : Form) (rd ra rb : BitVec 4) (bit : BitVec 6) (imm : BitVec 8) (lit : Word),
  ∀ p ∈ ([(.ceq f rd ra rb bit, f.len, fun st => st.reg ra = st.reg rb), (.cne f rd ra rb bit, f.len, fun st => st.reg ra ≠ st.reg rb),
      (.clt f rd ra rb bit, f.len, fun st => (st.reg ra).toInt < (st.reg rb).toInt),
      (.cltu f rd ra rb bit, f.len, fun st => (st.reg ra).toNat < (st.reg rb).toNat),
      (.cle f rd ra rb bit, f.len, fun st => (st.reg ra).toInt ≤ (st.reg rb).toInt),
      (.cleu f rd ra rb bit, f.len, fun st => (st.reg ra).toNat ≤ (st.reg rb).toNat),
      (.bmov f rd ra rb bit, f.len, fun st => (st.reg ra).getLsbD ((st.reg rb).toNat % 64) = true),
      (.ceqi f rd ra imm bit, f.len, fun st => (st.reg ra).toInt = imm.toInt), (.clti f rd ra imm bit, f.len, fun st => (st.reg ra).toInt < imm.toInt),
      (.ceqiLiteral f rd ra bit lit, f.litLen, fun st => st.reg ra = lit),
      (.cltiLiteral f rd ra bit lit, f.litLen, fun st => (st.reg ra).toInt < lit.toInt)] : List (Instr × Nat × (Strand → Prop))),
    ∀ (s : State) (r : Nat) (st : Strand), s.issuing = some (r, st) →
      ∃ v : Word, (v.getLsbD bit.toNat = true ↔ p.2.2 st) ∧ (∀ i < 64, i ≠ bit.toNat → v.getLsbD i = (st.reg rd).getLsbD i) ∧
        exec p.1 s = .next (s.setStrand r
          (if st.guardOk f.gd then { st with regs := st.regs.set rd.toNat v rd.isLt, pc := st.pc + BitVec.ofNat 32 p.2.1 }
          else { st with pc := st.pc + BitVec.ofNat 32 p.2.1 }))) ∧
  (∀ (f : Form) (rd ra : BitVec 4) (bit : BitVec 6) (d14 : BitVec 14) (d20 : BitVec 20) (d24 : BitVec 24) (s : State) (r : Nat) (st : Strand),
    s.issuing = some (r, st) →
    let past : BitVec 32 := st.pc + BitVec.ofNat 32 f.len
    let dest : Int → BitVec 32 := fun d => BitVec.ofInt 32 (st.pc.toNat + 4 * d)
    let goes : Instr → Strand → Prop := fun i t => exec i s = .next (s.setStrand r (if st.guardOk f.gd then t else { st with pc := past }))
    goes (.j f d24) { st with pc := dest d24.toInt } ∧
    goes (.jal f d24) { st with pc := dest d24.toInt, regs := st.regs.set 7 (BitVec.ofNat 64 past.toNat) (by decide) } ∧
    goes (.bbs f ra bit d14) { st with pc := if (st.reg ra).getLsbD bit.toNat then dest d14.toInt else past } ∧
    goes (.bbc f ra bit d14) { st with pc := if (st.reg ra).getLsbD bit.toNat then past else dest d14.toInt } ∧
    goes (.bz f ra d20) { st with pc := if st.reg ra = 0 then dest d20.toInt else past } ∧
    goes (.bnz f ra d20) { st with pc := if st.reg ra = 0 then past else dest d20.toInt } ∧
    goes (.dbnz f ra d20) { st with pc := if st.reg ra = 1 then past else dest d20.toInt, regs := st.regs.set ra.toNat (st.reg ra - 1) ra.isLt } ∧
    goes (.nop f) { st with pc := past } ∧
    ((st.reg ra).toNat % 4 = 0 ∧ (st.reg ra).toNat < 2 ^ 32 →
      goes (.jr f ra) { st with pc := BitVec.ofNat 32 (st.reg ra).toNat } ∧
      goes (.jalr f rd ra) { st with pc := BitVec.ofNat 32 (st.reg ra).toNat, regs := st.regs.set rd.toNat (BitVec.ofNat 64 past.toNat) rd.isLt }) ∧
    (¬((st.reg ra).toNat % 4 = 0 ∧ (st.reg ra).toNat < 2 ^ 32) → st.guardOk f.gd = true →
      exec (.jr f ra) s = .next (s.raise r 3 (st.reg ra)) ∧ exec (.jalr f rd ra) s = .next (s.raise r 3 (st.reg ra))))

/-- Integer and FP divides go to the divider of their core, which writes the exact result of their rule (R104, R110, R103, R123, R124). With a guard that holds and a zero divisor each of the four raises DIVZ with the dividend; with another divisor exec answers the state in which the strand waits for the divider of its core and stands at the end of its queue. When the divider serves that strand, rd takes the quotient truncated toward zero or the remainder with the sign of the dividend (modulo 2^64), the pc moves past the divide and the strand, which no self-test or loss drives from its core, is in rotation again; one whose instance has ended meanwhile is gone. With a guard that holds and indices in range, FDIV and FSQRT put their strand at the end of the queue of its core's divider. When it is served, and no self-test or loss drives the strand from its core, the destination word is the quotient or the root rounded once in the mode of the instruction, the flags are ORed, the pc moves past the instruction and the strand is in rotation again. The exact operations are the model's (log entry 28). -/
def Obligations.DividersComplete : Prop :=
  (∀ p ∈ ([(.div, fun a b => BitVec.ofInt 64 (a.toInt.tdiv b.toInt)), (.rem, fun a b => BitVec.ofInt 64 (a.toInt.tmod b.toInt)),
      (.divu, fun a b => BitVec.ofNat 64 (a.toNat / b.toNat)), (.remu, fun a b => BitVec.ofNat 64 (a.toNat % b.toNat))] :
      List ((Form → BitVec 4 → BitVec 4 → BitVec 4 → Instr) × (Word → Word → Word))),
    ∀ (f : Form) (rd ra rb : BitVec 4) (s : State) (r : Nat) (st : Strand),
      (s.issuing = some (r, st) → st.guardOk f.gd = true →
        (st.reg rb = 0 → exec (p.1 f rd ra rb) s = .next (s.raise r 4 (st.reg ra))) ∧
        (st.reg rb ≠ 0 → exec (p.1 f rd ra rb) s =
          .next ((s.setCore st.home { s.core st.home with divq := (s.core st.home).divq ++ [r] }).setStrand r { st with wait := .divider (p.1 f rd ra rb) }))) ∧
      (∀ (k : BitVec 13) (q : List Nat), (s.core k).divq = r :: q → s.strand r = some st → st.wait = .divider (p.1 f rd ra rb) → st.reg rb ≠ 0 →
        (s.stays st → exec (.dividerResult k) s = .next ((s.setCore k { s.core k with divq := q }).setStrand r
          { st with regs := st.regs.set rd.toNat (p.2 (st.reg ra) (st.reg rb)) rd.isLt, pc := st.pc + BitVec.ofNat 32 f.len, wait := .run })) ∧
        (st.ended = true → Maps.wf s.strands = true → ∃ t, exec (.dividerResult k) s = .next t ∧ t.strand r = none ∧ t.hbm = s.hbm))) ∧
  (∀ (f : WForm) (wd wa wb : BitVec 6) (s : State) (r : Nat) (st : Strand),
    let a := f32 (st.w (st.widx f wa f.ra).toNat)
    let b := f32 (st.w (st.widx f wb f.rb).toNat)
    (∀ p ∈ ([(.fdiv f wd wa wb, a.div b), (.fsqrt f wd wa, a.sqrt)] : List (Instr × (Machine.Num × BitVec 5))),
      (s.issuing = some (r, st) → st.guardOk f.gd = true → (st.widx f wd f.rd).toNat < st.words → (st.widx f wa f.ra).toNat < st.words →
        (st.widx f wb f.rb).toNat < st.words →
        exec p.1 s = .next ((s.setCore st.home { s.core st.home with divq := (s.core st.home).divq ++ [r] }).setStrand r { st with wait := .divider p.1 })) ∧
      (∀ (k : BitVec 13) (q : List Nat), (s.core k).divq = r :: q → s.strand r = some st → st.wait = .divider p.1 → s.stays st →
        exec (.dividerResult k) s = .next ((s.setCore k { s.core k with divq := q }).setStrand r
          { st with window := st.window.setIfInBounds (st.widx f wd f.rd).toNat (roundF32 (st.mode f.rm) p.2.1).1,
                    fflags := st.fflags ||| ((roundF32 (st.mode f.rm) p.2.1).2 ||| p.2.2), pc := st.pc + BitVec.ofNat 32 f.len, wait := .run }))))

/-- Scalar FP32 and window moves write their window word, OR their flags and change nothing else (R108, R122, R123, R124, R125, R126, R143, R142). For FADD, FSUB, FMUL, FMIN, FMAX, FABS, FNEG, FCVTI, FCVTF, WMOV, FFMA and FFMS, with a guard that holds and every window index below the allocation: exec answers the next state in which the destination word is the exact result of the operation rounded once in the mode of the instruction (a whole number for FCVTI, a bit change for FABS, FNEG and WMOV, an operand for FMIN and FMAX), the flags raised are ORed into FFLAGS and the pc has moved past the instruction. The exact operations and the rounding are the model's (log entry 28). -/
def Obligations.WindowArithmeticResults : Prop :=
  ∀ (f : WForm) (wd wa wb wc : BitVec 6) (s : State) (r : Nat) (st : Strand), s.issuing = some (r, st) → st.guardOk f.gd = true →
    (st.widx f wd f.rd).toNat < st.words → (st.widx f wa f.ra).toNat < st.words →
    let a := st.w (st.widx f wa f.ra).toNat
    let b := st.w (st.widx f wb f.rb).toNat
    let c := st.w (st.widx f wc f.rc).toNat
    let m := st.mode f.rm
    let gives : Instr → BitVec 32 × BitVec 5 → Prop := fun i v => exec i s = .next (s.setStrand r
      { st with window := st.window.setIfInBounds (st.widx f wd f.rd).toNat v.1, fflags := st.fflags ||| v.2, pc := st.pc + BitVec.ofNat 32 f.len })
    let once : Machine.Num × BitVec 5 → BitVec 32 × BitVec 5 := fun x => ((roundF32 m x.1).1, (roundF32 m x.1).2 ||| x.2)
    let pick : Bool → BitVec 32 × BitVec 5 := fun low =>
      (if (f32 a).isNan then (if (f32 b).isNan then 0x7FC00000#32 else b) else if (f32 b).isNan then a
        else if (if low then (f32 b).below (f32 a) else (f32 a).below (f32 b)) then b else a, sigFlag (f32 a) ||| sigFlag (f32 b))
    gives (.fabs f wd wa) (a &&& 0x7FFFFFFF, 0) ∧ gives (.fneg f wd wa) (a ^^^ 0x80000000, 0) ∧
    gives (.fcvtf f wd wa) (roundF32 m (Machine.Num.ofInt a.toInt)) ∧
    gives (.fcvti f wd wa) (let v := Machine.Num.toRange m (-2 ^ 31) (2 ^ 31 - 1) (f32 a); (BitVec.ofInt 32 v.1, v.2)) ∧
    (gives (.wmov f wd wa) (a, 0)) ∧
    ((st.widx f wb f.rb).toNat < st.words →
      gives (.fadd f wd wa wb) (once ((f32 a).add m (f32 b))) ∧ gives (.fsub f wd wa wb) (once ((f32 a).add m (f32 b).negate)) ∧
      gives (.fmul f wd wa wb) (once ((f32 a).mul (f32 b))) ∧ gives (.fmin f wd wa wb) (pick true) ∧ gives (.fmax f wd wa wb) (pick false) ∧
      ((st.widx f wc f.rc).toNat < st.words →
        gives (.ffma f wd wa wb wc) (once ((f32 a).fma m (f32 b) (f32 c))) ∧
        gives (.ffms f wd wa wb wc) (once ((f32 a).fma m (f32 b) (f32 c).negate))))

/-- FP compares write one bit, WGET and WPUT move words, and a window index at or past the allocation raises WBOUND (R108, R122, R123, R125, R107, R143, R90). With a guard that holds and every window index below the allocation: FCLT, FCLE and FCEQ set the named bit of the register to their condition, false with a NaN, and OR the invalid flag for any NaN (FCEQ for a signalling one only); WGET zero-extends the word into the register; WPUT writes the low 32 bits of the register to the word. The pc moves past the instruction and nothing else changes. With a guard that holds, every instruction on window fields one of whose indices is not below the allocation raises WBOUND with the 64-bit index, the first of first source, second source, third source and destination that is out of range, whatever else would trap. -/
def Obligations.WindowComparesMovesAndBounds : Prop :=
  (∀ (f : WForm) (wa wb wx : BitVec 6) (g : BitVec 4) (bit : BitVec 6) (s : State) (r : Nat) (st : Strand),
    s.issuing = some (r, st) → st.guardOk f.gd = true →
    let past : BitVec 32 := st.pc + BitVec.ofNat 32 f.len
    ((st.widx f wa f.ra).toNat < st.words → (st.widx f wb f.rb).toNat < st.words →
      let x := f32 (st.w (st.widx f wa f.ra).toNat)
      let y := f32 (st.w (st.widx f wb f.rb).toNat)
      ∀ p ∈ ([(.fclt f wa wb g bit, !x.isNan && !y.isNan && x.lt y, if x.isNan || y.isNan then 1#5 else 0#5),
          (.fcle f wa wb g bit, !x.isNan && !y.isNan && !y.lt x, if x.isNan || y.isNan then 1#5 else 0#5),
          (.fceq f wa wb g bit, !x.isNan && !y.isNan && !x.lt y && !y.lt x, if x.isSig || y.isSig then 1#5 else 0#5)] :
          List (Instr × Bool × BitVec 5)),
        ∃ v : Word, v.getLsbD bit.toNat = p.2.1 ∧ (∀ i < 64, i ≠ bit.toNat → v.getLsbD i = (st.reg g).getLsbD i) ∧
          exec p.1 s = .next (s.setStrand r { st with regs := st.regs.set g.toNat v g.isLt, fflags := st.fflags ||| p.2.2, pc := past })) ∧
    ((st.widx f wx f.ra).toNat < st.words → exec (.wget f g wx) s = .next (s.setStrand r
      { st with regs := st.regs.set g.toNat (BitVec.ofNat 64 (st.w (st.widx f wx f.ra).toNat).toNat) g.isLt, pc := past })) ∧
    ((st.widx f wx f.rd).toNat < st.words → exec (.wput f wx g) s = .next (s.setStrand r
      { st with window := st.window.setIfInBounds (st.widx f wx f.rd).toNat (BitVec.ofNat 32 (st.reg g).toNat), pc := past }))) ∧
  (∀ (f : WForm) (wd wa wb wc : BitVec 6) (g : BitVec 4) (bit : BitVec 6) (imm : BitVec 12) (s : State) (r : Nat) (st : Strand),
    s.issuing = some (r, st) → st.guardOk f.gd = true →
    let d := st.widx f wd f.rd
    let a := st.widx f wa f.ra
    let b := st.widx f wb f.rb
    let c := st.widx f wc f.rc
    ∀ x ∈ ([(.fadd f wd wa wb, [a, b, d]), (.fsub f wd wa wb, [a, b, d]), (.fmul f wd wa wb, [a, b, d]), (.fdiv f wd wa wb, [a, b, d]),
        (.fmin f wd wa wb, [a, b, d]), (.fmax f wd wa wb, [a, b, d]), (.fsqrt f wd wa, [a, d]), (.fabs f wd wa, [a, d]), (.fneg f wd wa, [a, d]),
        (.fcvti f wd wa, [a, d]), (.fcvtf f wd wa, [a, d]), (.wmov f wd wa, [a, d]), (.ffma f wd wa wb wc, [a, b, c, d]),
        (.ffms f wd wa wb wc, [a, b, c, d]), (.fclt f wa wb g bit, [a, b]), (.fcle f wa wb g bit, [a, b]), (.fceq f wa wb g bit, [a, b]),
        (.wget f g wa, [a]), (.wput f wd g, [d]), (.wldl f wd g imm, [d]), (.wstl f wd g imm, [d])] : List (Instr × List Word)),
      ∀ i, x.2.find? (fun i => decide (st.words ≤ i.toNat)) = some i → exec x.1 s = .next (s.raise r 5 i))

/-- Rounding a value that a binary32, binary16 or bfloat16 code holds gives that code back without a flag (R124, R132, R138). For F32, F16 and B16, every code that is no NaN and every rounding mode: writing the value of the code to the format answers the code itself and raises no flag. So rounding changes no representable number, subnormals, infinities and signed zeros included. -/
def Obligations.RoundingKeepsRepresentableValues : Prop :=
  ∀ f ∈ [fmtF32, fmtF16, fmtB16], ∀ (mode : BitVec 2) (code : Nat), code < 2 ^ f.bits → (f.decode code).isNan = false →
    f.round mode (f.decode code) = (code, 0)

/-- LDL, LDLU, STL, WLDL and WSTL move bytes between registers and the core-private store, which read back, or trap (R68, R127, R128, R2). With a guard that holds and, for the window forms, an index in range: an address that is no multiple of the size raises ALIGN, else one below XB or whose access passes 32 KiB raises PRIV, each with the address. Otherwise loads write the little-endian bytes of the store, sign-extended by LDL and zero-extended by LDLU, and leave the store alone; stores write exactly the bytes of the access, low byte first, at the address that register and immediate give, and no register. For every memory in canonical form: after storing a list of bytes at an address, byte i of the list reads at the address plus i, every byte outside reads as before, and the memory is still canonical; two canonical memories in which every byte reads the same are the same data. -/
def Obligations.CoreStoreAccessAndReadBack : Prop :=
  (∀ (f : Form) (wf : WForm) (sz : BitVec 2) (rd ra : BitVec 4) (wd : BitVec 6) (imm : BitVec 12) (s : State) (r : Nat) (st : Strand),
    s.issuing = some (r, st) →
    let a := st.reg ra + imm.signExtend 64
    let k := s.core st.home
    let n := 2 ^ sz.toNat
    let w := (st.widx wf wd wf.rd).toNat
    let past : BitVec 32 := st.pc + BitVec.ofNat 32 f.len
    let wpast : BitVec 32 := st.pc + BitVec.ofNat 32 wf.len
    let legal : Nat → Prop := fun n => a.toNat % n = 0 ∧ k.xb.toNat ≤ a.toNat ∧ a.toNat + n ≤ 0x8000
    (st.guardOk f.gd = true →
      (legal n → exec (.ldl f sz rd ra imm) s = .next (s.setStrand r
          { st with regs := st.regs.set rd.toNat ((BitVec.ofNat (8 * n) (Mem.num k.store a.toNat n)).signExtend 64) rd.isLt, pc := past }) ∧
        exec (.ldlu f sz rd ra imm) s = .next (s.setStrand r
          { st with regs := st.regs.set rd.toNat (BitVec.ofNat 64 (Mem.num k.store a.toNat n)) rd.isLt, pc := past }) ∧
        exec (.stl f sz rd ra imm) s = .next ((s.setCore st.home { k with store := Mem.setBytes k.store a.toNat (leBytes n (st.reg rd).toNat) }).setStrand r
          { st with pc := past })) ∧
      (a.toNat % n ≠ 0 → ∀ i ∈ [.ldl f sz rd ra imm, .ldlu f sz rd ra imm, .stl f sz rd ra imm], exec i s = .next (s.raise r 3 a)) ∧
      (a.toNat % n = 0 → ¬legal n → ∀ i ∈ [.ldl f sz rd ra imm, .ldlu f sz rd ra imm, .stl f sz rd ra imm], exec i s = .next (s.raise r 1 a))) ∧
    (st.guardOk wf.gd = true → w < st.words →
      (legal 4 → exec (.wldl wf wd ra imm) s = .next (s.setStrand r
          { st with window := st.window.setIfInBounds w (BitVec.ofNat 32 (Mem.num k.store a.toNat 4)), pc := wpast }) ∧
        exec (.wstl wf wd ra imm) s = .next ((s.setCore st.home { k with store := Mem.setBytes k.store a.toNat (leBytes 4 (st.w w).toNat) }).setStrand r
          { st with pc := wpast })) ∧
      (a.toNat % 4 ≠ 0 → ∀ i ∈ [.wldl wf wd ra imm, .wstl wf wd ra imm], exec i s = .next (s.raise r 3 a)) ∧
      (a.toNat % 4 = 0 → ¬legal 4 → ∀ i ∈ [.wldl wf wd ra imm, .wstl wf wd ra imm], exec i s = .next (s.raise r 1 a)))) ∧
  (∀ (m : Memory) (a : Nat) (bs : List Byte), Memory.wf m = true →
    (∀ i (h : i < bs.length), Mem.byte (Mem.setBytes m a bs) (a + i) = bs[i]) ∧
    (∀ k, k < a ∨ a + bs.length ≤ k → Mem.byte (Mem.setBytes m a bs) k = Mem.byte m k) ∧ Memory.wf (Mem.setBytes m a bs) = true ∧
    (∀ m', Memory.wf m' = true → (∀ k, Mem.byte m k = Mem.byte m' k) → m = m'))

/-- ST, STV, FILL, SEAL, SEALE, REL and ACC post their operations, advance pointer and pc, and change no memory (R94, R213, R214, R218, R258, R255, R265, R262). With a guard that holds, an aligned handle that translates, the tags the rule asks for and room for the operations at their home: exec answers a next state in which operation k of the instruction (one; one per row for FILL, with the row's handle and the pattern in every 8-byte unit) is on its way to the home (over the mesh, or through the Lantern to another module) under the next sequence number of the core and the next ordinal of the batch, the pointer register holds the new pointer, the batch is open and the pc has moved past the instruction. No other register of the strand, no other strand, no block, no byte of HBM and no core-private store changes. -/
def Obligations.PostedOperations : Prop :=
  ∀ (o : XOp) (lit : Word) (s : State) (r : Nat) (st : Strand) (p : Place), s.issuing = some (r, st) → st.guardOk o.gd = true →
    let b : BitVec 2 := if o.bx then o.bn else st.batch
    let rows := o.imm6.toNat + 1
    let e := fun size => st.ea o size
    let row := if o.am = 2 then padd49 (st.reg o.ra) (BitVec.ofNat 64 (128 * rows)) else (e 128).upd
    let pattern : Word → Payload := fun w => BitVec.ofNat 32768 ((List.range 16).map fun j => w.toNat * 2 ^ (64 * j)).sum
    let fill : Word → List (OpKind × Word) := fun w => (List.range rows).map fun k =>
      let h := padd49 (e 128).h (BitVec.ofNat 64 (128 * k))
      (.write (Handle.off h) 128 (pattern w) false, h)
    let src := st.vec (o.rd.extractLsb' 0 3)
    let tag := st.tag (o.rd.extractLsb' 0 3)
    let q := o.mod.getLsbD 0
    ∀ x ∈ ([(.st o, 12, 8, permW, (e 8).upd, [(.write (Handle.off (e 8).h) 8 (BitVec.ofNat 32768 (st.reg o.rd).toNat) q, (e 8).h)], true),
        (.stv o, 12, 128, permW, (e 128).upd, [(.write (Handle.off (e 128).h) 128 (BitVec.ofNat 32768 src.toNat) q, (e 128).h)], tag.extractLsb' 4 4 != 0),
        (.fill o, 12, 128, permW, row, fill (st.reg o.rb), decide (((Handle.off (e 128).h).toNat / 128) + rows ≤ 32)),
        (.fillLiteral o lit, 20, 128, permW, row, fill lit, decide (((Handle.off (e 128).h).toNat / 128) + rows ≤ 32)),
        (.seal o, 12, 1, permW, (e 1).upd, [(.seal false, (e 1).h)], true),
        (.seale o, 12, 1, permW, (e 1).upd, [(.seal true, (e 1).h)], true),
        (.rel o, 12, 1, permW, (e 1).upd, [(.release, (e 1).h)], true),
        (.acc o, 12, 128, permA, (e 128).upd,
          [(.accum (Handle.off (e 128).h) 128 o.fmt (o.imm6.extractLsb' 0 2) q (BitVec.ofNat 32768 src.toNat), (e 128).h)],
          tag.extractLsb' 4 4 != 0 && tag == tagOf o.fmt 0)] :
        List (Instr × Nat × Nat × BitVec 4 × Word × List (OpKind × Word) × Bool)),
      let len := x.2.1
      let ops := x.2.2.2.2.2.1
      x.2.2.2.2.2.2 = true → (Handle.off (e x.2.2.1).h).toNat % x.2.2.1 = 0 →
      s.xlate (coreCluster st.home) true (e x.2.2.1).h x.2.2.2.1 = .ok p → s.roomFor (unitCore st.home) (homeOf p) ops.length = true →
      ∃ t, exec x.1 s = .next t ∧
        t.strand r = some { st with regs := st.regs.set o.ra.toNat x.2.2.2.2.1 o.ra.isLt, pc := st.pc + BitVec.ofNat 32 len,
                                    opens := st.opens ||| (1#4 <<< b.toNat) } ∧
        (∀ k (hk : k < ops.length), t.onWay (s.fresh + k)
          { kind := ops[k].1, h := ops[k].2, place := p, unit := unitCore st.home,
            seq := Maps.getD s.seqs (unitCore st.home) 0 + BitVec.ofNat 64 k, asker := .batch, tracker := st.tracker, batch := b,
            ordinal := BitVec.ofNat 32 (((Maps.getD s.trackers st.tracker Tracker.zero).get b).next + k), node := st.node }) ∧
        (∀ q, q ≠ r → t.strand q = s.strand q) ∧ t.hbm = s.hbm ∧ t.cores = s.cores ∧ t.clusters = s.clusters

/-- Decoding the words of a scalar instruction answers the instruction (R72, R73, R75, R76, R79, R83, R85, R87, R88, R109). Every well-formed instruction of the list, with every operand at every value that its encoding admits, is the one its words decode to: decode of encode answers it. The list is every scalar instruction in its base form, its guarded extended form and, where it has one, its literal form: arithmetic, constants, bit fields, compares, pointers, branches and core-private accesses. -/
def Obligations.ScalarEncodingRoundTrip : Prop :=
  ∀ (f : Form) (a b c : BitVec 4) (u v : BitVec 6) (i : BitVec 12) (j : BitVec 12) (k : BitVec 8) (z : BitVec 2) (lit : Word),
  ∀ q ∈ ([.add f a b c, .sub f a b c, .mul f a b c, .mulh f a b c, .mulhu f a b c, .div f a b c, .divu f a b c, .rem f a b c,
      .remu f a b c, .and f a b c, .or f a b c, .xor f a b c, .andn f a b c, .shl f a b c, .shr f a b c, .sra f a b c,
      .ror f a b c, .min f a b c, .max f a b c, .minu f a b c, .maxu f a b c, .pmk f a b c, .padd f a b c, .pidx f a b c,
      .psub f a b c, .pgen f a b c, .pfld f a b c, .clz f a b, .ctz f a b, .popc f a b, .brev f a b, .abs f a b, .mov f a b,
      .pinc f a b, .pblk f a b, .jalr f a b, .sext f a b u, .zext f a b u, .shli f a b u, .shri f a b u, .srai f a b u,
      .rori f a b u, .bset f a b u, .bclr f a b u, .binv f a b u, .addi f a b i, .andi f a b i, .ori f a b i, .xori f a b i,
      .paddi f a b i, .addiLiteral f a b lit, .andiLiteral f a b lit, .oriLiteral f a b lit, .xoriLiteral f a b lit,
      .movi f a (i ++ k), .movhi f a (i ++ k), .bz f a (i ++ k), .bnz f a (i ++ k), .dbnz f a (i ++ k), .ldk f a lit,
      .bfx f a b u v, .bfxu f a b u v, .bfi f a b u v, .ceq f a b c u, .cne f a b c u, .clt f a b c u, .cltu f a b c u,
      .cle f a b c u, .cleu f a b c u, .bmov f a b c u, .sel f a b c u, .ceqi f a b k u, .clti f a b k u,
      .ceqiLiteral f a b u lit, .cltiLiteral f a b u lit, .j f (i ++ j), .jal f (i ++ j), .jr f a, .bbs f a u (k ++ v),
      .bbc f a u (k ++ v), .ldl f z a b i, .ldlu f z a b i, .stl f z a b i] : List Instr),
    WellFormed q = true → decode (encode q) = some q

/-- Decoding the words of a sync or system instruction answers the instruction (R72, R75, R76, R79, R83, R85, R87, R268, R326). Every well-formed instruction of the list, with every operand at every value that its encoding admits, is the one its words decode to: decode of encode answers it. The list is the sync and system instructions: ordering, strands, traps, special registers, and those of the Keep. -/
def Obligations.SystemEncodingRoundTrip : Prop :=
  ∀ (f : Form) (a b c : BitVec 4) (k : BitVec 8) (t : BitVec 3) (z : BitVec 2) (x : Bool),
  ∀ q ∈ ([.nop f, .yield f, .endStrand f, .spawn f a b c, .saverec f a b c, .loadrec f a b c, .mapb f a b c, .perf f a b,
      .join f a, .wrsrPartition f a, .xbset f a, .ovld f a, .idle f a, .fence f t, .bsel f z, .bclose f a z x, .fork f a t,
      .trap f k, .rett f x, .rdsr f a k, .wrsr f a k, .tlbi f a x] : List Instr),
    WellFormed q = true → decode (encode q) = some q

/-- Decoding the words of a window instruction answers the instruction (R72, R75, R76, R78, R79, R85, R87). Every well-formed instruction of the list, with every operand at every value that its encoding admits, is the one its words decode to: decode of encode answers it. The list is the instructions on window fields in their base and extended forms, with relative fields, index and rounding mode. -/
def Obligations.WindowEncodingRoundTrip : Prop :=
  ∀ (f : WForm) (u v w x : BitVec 6) (a : BitVec 4) (i : BitVec 12),
  ∀ q ∈ ([.fadd f u v w, .fsub f u v w, .fmul f u v w, .fdiv f u v w, .fmin f u v w, .fmax f u v w, .fsqrt f u v, .fabs f u v,
      .fneg f u v, .wmov f u v, .fcvti f u v, .fcvtf f u v, .ffma f u v w x, .ffms f u v w x, .fclt f u v a w,
      .fcle f u v a w, .fceq f u v a w, .wget f a u, .wput f u a, .wldl f u a i, .wstl f u a i] : List Instr),
    WellFormed q = true → decode (encode q) = some q

/-- Decoding the words of an extended-only instruction answers the instruction (R72, R76, R77, R79, R80, R85, R89, R162, R183, R212). Every well-formed instruction of the list, with every operand at every value that its encoding admits, is the one its words decode to: decode of encode answers it. The list is every extended-only member: block access, copies, vectors, tiles, matrix, fabric, and the two with a literal. -/
def Obligations.ExtendedEncodingRoundTrip : Prop :=
  ∀ (o : XOp) (lit : Word),
  ∀ q ∈ ([.ld o, .ldv o, .wld o, .st o, .stv o, .fill o, .wait o, .probe o, .seal o, .seale o, .arm o, .clr o, .clrx o, .rel o,
      .genr o, .acc o, .acct o, .acnt o, .pref o, .discard o, .migr o, .cpy o, .cpys o, .cpyx o, .cpyh o, .hadd o, .hcas o,
      .vadd o, .vsub o, .vmul o, .vfma o, .vfms o, .vmin o, .vmax o, .vabs o, .vneg o, .vand o, .vor o, .vxor o, .vshl o,
      .vshr o, .vsra o, .vcvt o, .vscl o, .vrcp o, .vrsq o, .vexp2 o, .vlog2 o, .vtanh o, .vred o, .vcmp o, .vsel o,
      .vperm o, .vbcast o, .vins o, .vext o, .viota o, .vzero o, .vtag o, .vsettToDescriptor o, .vsettFromDescriptor o,
      .vpack o, .vunpk o, .tacq o, .trel o, .tzero o, .tld o, .tst o, .taddr o, .taddc o, .tscl o, .tmaxr o, .tsumr o,
      .texpr o, .trdv o, .twrv o, .mma o, .mmas o, .mmai o, .topk o, .topkm o, .send o, .chmk o, .rcir o, .tgenr o,
      .fillLiteral o lit, .vbcastLiteral o lit] : List Instr),
    WellFormed q = true → decode (encode q) = some q

/-- Words of the spec's worked examples decode to the instructions they stand for, and changed ones do not decode (R72, R73, R75, R76, R77, R78, R79, R87). One word or group of words of each kind of encoding, as the spec's worked examples give them, decodes to its instruction: ADD, BFXU, DBNZ, RETT, FADD, a guarded WLDL with a relative field, LDK with its literal, STV.q with post-increment, ST.d with a register offset, ACCT.f32.c, MMA.f16, TST.f32 with a batch. A reserved major, and an unused field that is not zero, do not decode. -/
def Obligations.DecodeSamples : Prop :=
  let x : XOp := { rd := 0, ra := 0, rb := 0, imm12 := 0, gd := none, fmt := 0, fd := 0, rm := 0, mod := 0, rc := 0, re := 0,
                   lme := false, lmr := 0, scope := 0, bx := false, bn := 0, am := 0, bit := 0, imm6 := 0 }
  let b : Form := { ext := false, gd := none }
  let w : WForm := { ext := false, gd := none, rm := 0, rd := false, ra := false, rb := false, rc := false, idx := 0 }
  (∀ p ∈ ([([0x0112B000], .add b 1 2 11), ([0x0B1AD0B1], .bfxu b 1 10 52 11), ([0x1B5FFFFE], .dbnz b 5 0xFFFFE), ([0x3F000100], .rett b false),
        ([0x200420C0], .fadd w 1 2 3), ([0xA40D0040, 0x00980000, 0x82000000],
          .wldl { w with ext := true, gd := some { sense := false, reg := 6, bit := 0 }, rd := true, idx := 2 } 3 4 16),
        ([0x4A400000, 0x89ABCDEF, 0x01234567], .ldk b 4 0x0123456789ABCDEF),
        ([0xA90B0000, 0x02000001, 0x00002000], .stv { x with ra := 11, mod := 1, am := 2 }),
        ([0xA92B0000, 0x01000300, 0x07001000], .st { x with rd := 2, ra := 11, fmt := 3, re := 7, am := 1 }),
        ([0xAB080000, 0x02000801, 0], .acct { x with ra := 8, fmt := 8, mod := 1 }),
        ([0xB9089000, 0x01000900, 0x00002000], .mma { x with ra := 8, rb := 9, fmt := 9, am := 2 }),
        ([0xB80A0000, 0x05000800, 0], .tst { x with ra := 10, fmt := 8 })] : List (List (BitVec 32) × Instr)), decode p.1 = some p.2) ∧
    decode [0x0F000000] = none ∧ decode [0xA90B0000, 0x02000001, 0x00002001] = none ∧ decode [0xA40D0040, 0x00980000, 0x02000000] = none

/-- A turn runs the instruction that the bytes at the pc decode to, and a scheduled event takes place (R70, R72, R101, R15, R263, R274). When the next move is the turn of a core whose slot of the current phase holds a running strand, the supply is up, no self-test is on the core, its cluster is in service, the strand is no victim of a quench, no overlay copy runs, and the words at the pc (as many as bits 31:30 of the first word say) lie below XB and decode to i, then step is exec of i in the state in which time has advanced, the phase has moved on, the issued turn is counted and this strand issues; a next state of exec loses the mark of the issuing strand, and a fault or a refusal stays one. The next move is the first of the schedule, or with an empty schedule the one that Config names (the order of independent events is open in the spec; the schedule is the model's own field, log entry 2). An event that may take place runs as exec of its row; one that may not leaves the state as it was but for the passing of time. An extent of another module enters the tables in READY, with the supply up, and word that another module has one of this module's is taken in READY (log entry 36). A turn whose slot is empty moves the phase on and counts one turn not issued. -/
def Obligations.StepRunsInstructionsAndEvents : Prop :=
  (∀ (s : State) (k : BitVec 13) (r : Nat) (st : Strand) (i : Instr), s.nextMove.1 = .turn k →
    (s.core k).slots[(s.core k).phase.toNat]'((s.core k).phase.isLt) = some r → s.strand r = some st → st.wait = .run →
    s.supplyOk = true → s.fenced k = false → s.inService (coreCluster k) = true → s.victim st = false → (s.core k).ovld = none →
    let c := s.core k
    let a := st.pc.toNat
    let w0 := BitVec.ofNat 32 (Mem.num c.store a 4)
    let n := [1, 3, 3, 5].getD (w0.toNat / 2 ^ 30) 0
    a + 4 * n ≤ c.xb.toNat → decode ((List.range n).map fun j => BitVec.ofNat 32 (Mem.num c.store (a + 4 * j) 4)) = some i →
      let t : State := { s.advance with schedule := s.nextMove.2, cur := none }
      let u : State := t.setCore k { c with phase := c.phase + 1, perf0 := c.perf0 + 1 }
      step s = match exec i { u with cur := some r } with
        | .next v => .next { v with cur := none }
        | .fault x => .fault x
        | .refused x => .refused x) ∧
  (∀ (s : State) (m : Move) (l : List Move), s.schedule = m :: l →
    let t : State := { s.advance with schedule := l, cur := none }
    (∀ i, m = .event i → t.mayHappen i = true → step s = match exec i t with
      | .next v => .next { v with cur := none }
      | .fault x => .fault x
      | .refused x => .refused x) ∧
    (∀ i, m = .event i → t.mayHappen i = false → step s = .next t) ∧
    (∀ frm vbn e, m = .peerExtent frm vbn e → step s = .next (if s.boot.stage = 7 ∧ s.supplyOk = true then
      { t.peerExtent frm vbn e with cur := none } else t)) ∧
    (∀ frm vbn, m = .extentEntered frm vbn → step s = .next (if s.boot.stage = 7 then { t.extentEntered frm vbn with cur := none } else t)) ∧
    (∀ k, m = .turn k → (s.core k).slots[(s.core k).phase.toNat]'((s.core k).phase.isLt) = none →
      step s = .next (t.setCore k { s.core k with phase := (s.core k).phase + 1, perf1 := (s.core k).perf1 + 1 })))

/-- A word placed by withFetchWord is the next instruction that a turn runs (R70, R101). With the supply up, cluster 0 in service, no self-test on core 0 and no node instance of number 0: in the state that withFetchWord makes from a word which the decoder reads as i, the next move is the turn of core 0 and that turn runs i. (withFetchWord is the model's own helper, log entry 16.) -/
def Obligations.PlacedWordIsRun : Prop :=
  ∀ (s : State) (nbits w : Nat) (i : Instr), s.supplyOk = true → s.fenced 0 = false → s.inService 0 = true → s.node 0 = none →
    decodeTableWord nbits w = some i →
      let t := s.withFetchWord nbits w
      t.nextMove.1 = .turn 0 ∧ t.turnOf 0 = .run s.fresh i

/-- A fetch past XB or of an undefined word traps, and a trap while ACTIVE is set ends the instance (R70, R85, R71, R317, R319). The fetch of an instruction answers OVERLAY_FETCH when the first word, or the whole instruction, does not lie below XB, whatever the words hold; with no overlay copy on those bytes it answers the decoded instruction, or ILLEGAL_ENCODING with word 0 and, for an instruction of more than one word with length 10 or 11, word 1. With ACTIVE set, TRAP, an illegal encoding or an overlay fetch of a strand whose node instance belongs to a running instance answers a next state in which that instance and the strand are gone, and no instance stands that did not stand before. -/
def Obligations.FetchAndActiveTraps : Prop :=
  (∀ (c : Core) (pc : BitVec 32), c.ovld = none →
    let a := pc.toNat
    let word := fun j => BitVec.ofNat 32 (Mem.num c.store (a + 4 * j) 4)
    let n := [1, 3, 3, 5].getD ((word 0).toNat / 2 ^ 30) 0
    (c.xb.toNat < a + 4 ∨ c.xb.toNat < a + 4 * n → c.fetch pc = some .overlayFetch) ∧
    (a + 4 * n ≤ c.xb.toNat → (decode ((List.range n).map word) = none →
        c.fetch pc = some (.illegalEncoding (word 0) (if 2 ≤ (word 0).toNat / 2 ^ 30 then word 1 else 0))) ∧
      ∀ i, decode ((List.range n).map word) = some i → c.fetch pc = some i)) ∧
  (∀ (f : Form) (code : BitVec 8) (w0 w1 : BitVec 32) (s : State) (r : Nat) (st : Strand) (nd : Node) (i : Instance),
    s.issuing = some (r, st) → st.guardOk f.gd = true → st.wait = .run → st.tcause.getLsbD 7 = true → Maps.wf s.strands = true →
    s.node st.node = some nd → s.inst nd.inst = some i →
    ∀ p ∈ ([.trap f code, .illegalEncoding w0 w1, .overlayFetch] : List Instr),
      ∃ t, exec p s = .next t ∧ t.inst nd.inst = none ∧ t.strand r = none ∧ ∀ n, s.inst n = none → t.inst n = none)

/-- TRAP, an illegal encoding and an overlay fetch enter the handler, and RETT returns from it (R316, R92, R314, R326, R318, R72). While ACTIVE is clear: TRAP takes cause 13 with its code, ILLEGAL_ENCODING cause 0 with the words, OVERLAY_FETCH cause 2 with the pc. tpc takes the pc of the instruction, tcause ACTIVE and the cause, tval the value, and the pc goes to TRAPBASE plus 16 times the cause. Nothing else changes. With tpc a multiple of 4, RETT continues at tpc and clears ACTIVE; RETT.S, with tpc below XB and no overlay copy on the core, continues after the instruction whose first word stands at tpc now. Nothing else changes. With tpc misaligned both raise ALIGN with tpc, and RETT.S with tpc aligned and at or past XB raises OVERLAY with tpc. -/
def Obligations.TrapEntryAndReturn : Prop :=
  (∀ (f : Form) (code : BitVec 8) (w0 w1 : BitVec 32) (s : State) (r : Nat) (st : Strand) (k : BitVec 13) (n : BitVec 3),
    s.issuing = some (r, st) → st.guardOk f.gd = true → st.loc = .slot k n → st.tcause.getLsbD 7 = false →
    ∀ p ∈ ([(.trap f code, 13, BitVec.ofNat 64 code.toNat), (.illegalEncoding w0 w1, 0, w1 ++ w0),
        (.overlayFetch, 2, BitVec.ofNat 64 st.pc.toNat)] : List (Instr × Nat × Word)),
      exec p.1 s = .next (s.setStrand r { st with
        tpc := st.pc, tcause := BitVec.ofNat 8 (128 + p.2.1), tval := p.2.2,
        pc := BitVec.ofNat 32 ((s.core k).trapbase.toNat + 16 * p.2.1), wait := .run })) ∧
  (∀ (f : Form) (s : State) (r : Nat) (st : Strand), s.issuing = some (r, st) → st.guardOk f.gd = true →
    let c := s.core st.home
    let at_ := [1, 3, 3, 5].getD (Mem.num c.store st.tpc.toNat 4 / 2 ^ 30) 0
    (st.tpc.toNat % 4 = 0 → exec (.rett f false) s = .next (s.setStrand r { st with
      pc := st.tpc, tcause := BitVec.ofNat 8 (st.tcause.toNat % 128) })) ∧
    (st.tpc.toNat % 4 = 0 → st.tpc.toNat < c.xb.toNat → c.ovld = none → exec (.rett f true) s = .next (s.setStrand r { st with
      pc := st.tpc + BitVec.ofNat 32 (4 * at_), tcause := BitVec.ofNat 8 (st.tcause.toNat % 128) })) ∧
    (st.tpc.toNat % 4 = 0 → c.xb.toNat ≤ st.tpc.toNat → exec (.rett f true) s = .next (s.raise r 2 (BitVec.ofNat 64 st.tpc.toNat))) ∧
    (st.tpc.toNat % 4 ≠ 0 → ∀ skip, exec (.rett f skip) s = .next (s.raise r 3 (BitVec.ofNat 64 st.tpc.toNat))))

/-- RDSR, TGENR and PERF read their registers, WRSR writes its register and leaves reserved bits zero (R327, R308, R328, R315, R86). RDSR writes rd with the special register of its number, TGENR with the topology register, PERF with the counter that the low byte of ra names, or zero past the table; the pc moves past the instruction and nothing else changes. WRSR to numbers 0 to 5 writes tpc, tcause (bits 6:5 stay zero), tval, FFLAGS, RMODE and the current batch; to RINGWT, by a privileged strand with a value of 1 to 8, the weight of the core's ring, which another value leaves as it is. The pc moves past the instruction and nothing else changes. -/
def Obligations.SpecialRegisters : Prop :=
  (∀ (f : Form) (o : XOp) (rd ra : BitVec 4) (s : State) (r : Nat) (st : Strand) (k : BitVec 13) (n : BitVec 3), s.issuing = some (r, st) →
    st.guardOk f.gd = true → st.guardOk o.gd = true → st.loc = .slot k n →
    let c := s.core k
    let topology := BitVec.ofNat 64 (s.tgen.toNat + 2 ^ 32 * s.plan.toNat + 2 ^ 63 * s.reconf.toNat)
    let special : List Word := [BitVec.ofNat 64 st.tpc.toNat, BitVec.ofNat 64 st.tcause.toNat, st.tval, BitVec.ofNat 64 st.fflags.toNat,
      BitVec.ofNat 64 st.rmode.toNat, BitVec.ofNat 64 (st.batch.toNat + 2 ^ 8 * st.opens.toNat), BitVec.ofNat 64 c.xb.toNat,
      BitVec.ofNat 64 c.trapbase.toNat, topology, (s.die (coreDie k)).cycle, BitVec.ofNat 64 (n.toNat + 8 * k.toNat + 2 ^ 16 * s.modNo.toNat),
      BitVec.ofNat 64 st.node.toNat, BitVec.ofNat 64 (s.cluster (coreCluster k)).l2units.toNat, BitVec.ofNat 64 c.ringwt.toNat]
    let counters : List Word := [c.perf0, c.perf1, (s.anvil (coreAnvil k)).perf2, (s.anvil (coreAnvil k)).perf3,
      (s.cluster (coreCluster k)).perf4, c.perf5, (s.die (coreDie k)).perf6, (s.cluster (coreCluster k)).perf7, (s.die (coreDie k)).perf8]
    let write := fun (d : BitVec 4) v len =>
      Host.Outcome.next (s.setStrand r { st with regs := st.regs.set d.toNat v d.isLt, pc := st.pc + BitVec.ofNat 32 len })
    (∀ sr : BitVec 8, sr.toNat < 14 → exec (.rdsr f rd sr) s = write rd (special.getD sr.toNat 0) f.len) ∧
      exec (.tgenr o) s = write o.rd topology 12 ∧
      exec (.perf f rd ra) s = write rd (counters.getD ((st.reg ra).toNat % 256) 0) f.len) ∧
  (∀ (f : Form) (ra : BitVec 4) (s : State) (r : Nat) (st : Strand), s.issuing = some (r, st) → st.guardOk f.gd = true →
    let v := st.reg ra
    let c := s.core st.home
    let pc := st.pc + BitVec.ofNat 32 f.len
    (∀ p ∈ ([(0, { st with tpc := BitVec.ofNat 32 v.toNat, pc := pc }), (1, { st with tcause := BitVec.ofNat 8 v.toNat &&& 0x9F, pc := pc }),
          (2, { st with tval := v, pc := pc }), (3, { st with fflags := BitVec.ofNat 5 v.toNat, pc := pc }),
          (4, { st with rmode := BitVec.ofNat 2 v.toNat, pc := pc }), (5, { st with batch := BitVec.ofNat 2 v.toNat, pc := pc })] :
          List (BitVec 8 × Strand)), exec (.wrsr f ra p.1) s = .next (s.setStrand r p.2)) ∧
      (st.image = 0xFFFF → 1 ≤ v.toNat → v.toNat ≤ 8 →
        exec (.wrsr f ra 13) s = .next ((s.setCore st.home { c with ringwt := BitVec.ofNat 4 v.toNat }).setStrand r { st with pc := pc })) ∧
      (st.image = 0xFFFF → v.toNat < 1 ∨ 8 < v.toNat → exec (.wrsr f ra 13) s = .next (s.setStrand r { st with pc := pc })))

/-- A privileged form of an unprivileged strand is a PRIV trap (R86, R243, R331, R332, R333, R334). TLBI, IDLE, MAPB, SAVEREC, LOADREC and WRSR to PARTITION or RINGWT, issued by a strand whose image is not 0xFFFF while ACTIVE is clear, enter the handler of cause 1 with tval zero and change nothing else. -/
def Obligations.PrivilegedForms : Prop :=
  ∀ (f : Form) (a b c : BitVec 4) (x : Bool) (s : State) (r : Nat) (st : Strand) (k : BitVec 13) (n : BitVec 3),
    s.issuing = some (r, st) → st.guardOk f.gd = true → st.loc = .slot k n → st.tcause.getLsbD 7 = false → st.image ≠ 0xFFFF →
    ∀ i ∈ ([.tlbi f a x, .idle f a, .mapb f a b c, .saverec f a b c, .loadrec f a b c, .wrsrPartition f a, .wrsr f a 13] : List Instr),
      exec i s = .next (s.setStrand r { st with tpc := st.pc, tcause := 129, tval := 0, wait := .run,
                                                pc := BitVec.ofNat 32 ((s.core k).trapbase.toNat + 16) })

/-- XBSET moves the execute boundary of the core within its limits (R329). XBSET with v a multiple of 4 from TRAPBASE + 512 to DATABASE writes XB of the core, moves the pc past the instruction and changes nothing else: the strand stays in rotation. A v that is no multiple of 4 raises ALIGN, and one outside the limits PRIV, with v. -/
def Obligations.XbsetMovesTheBoundary : Prop :=
  ∀ (f : Form) (ra : BitVec 4) (s : State) (r : Nat) (st : Strand), s.issuing = some (r, st) → st.guardOk f.gd = true →
    let v := st.reg ra
    let c := s.core st.home
    (v.toNat % 4 ≠ 0 → exec (.xbset f ra) s = .next (s.raise r 3 v)) ∧
    (v.toNat % 4 = 0 → v.toNat < c.trapbase.toNat + 512 ∨ c.database.toNat < v.toNat → exec (.xbset f ra) s = .next (s.raise r 1 v)) ∧
    (v.toNat % 4 = 0 → c.trapbase.toNat + 512 ≤ v.toNat → v.toNat ≤ c.database.toNat →
      exec (.xbset f ra) s = .next ((s.setCore st.home { c with xb := BitVec.ofNat 32 v.toNat }).setStrand r
        { st with pc := st.pc + BitVec.ofNat 32 f.len }))

/-- BSEL sets the batch that later posted operations use, and opens or closes none (R270). BSEL sets the current batch, moves the pc past the instruction and changes nothing else: no batch is opened or closed. A posted operation that names no batch with BX then uses it, one that names a batch uses that one. -/
def Obligations.BselSelectsTheBatch : Prop :=
  ∀ (f : Form) (b : BitVec 2) (s : State) (r : Nat) (st : Strand), s.issuing = some (r, st) → st.guardOk f.gd = true →
    let st' : Strand := { st with batch := b, pc := st.pc + BitVec.ofNat 32 f.len }
    exec (.bsel f b) s = .next (s.setStrand r st') ∧ st'.opens = st.opens ∧
      ∀ o : XOp, st'.batchFor o = if o.bx then o.bn else b

/-- TLBI removes the extent of one VBN, or every extent, from every TLB of the module (R331). By a privileged strand, and with the TLBs in canonical form: TLBI with param 0 answers a next state in which no cluster translates any VBN of the 2 MiB extent that holds reg(ra)[48:12], while any other VBN translates as before, but for one that a 1 GiB extent served which holds reg(ra)[48:12] too; with param 1 no cluster translates any VBN. The pc moves past the instruction; cores, other strands and HBM do not change. -/
def Obligations.TlbiRemovesTranslations : Prop :=
  ∀ (f : Form) (ra : BitVec 4) (all : Bool) (s : State) (r : Nat) (st : Strand), s.issuing = some (r, st) → st.guardOk f.gd = true →
    st.image = 0xFFFF → (∀ c, Maps.wf (s.cluster c).tlb = true) →
    let vbn := (st.reg ra).toNat / 4096 % 2 ^ 37
    ∃ t, exec (.tlbi f ra all) s = .next t ∧ t.strands = Maps.put s.strands r { st with pc := st.pc + BitVec.ofNat 32 f.len } ∧
      t.cores = s.cores ∧ t.hbm = s.hbm ∧
      ∀ (c : BitVec 9) (v : BitVec 37), (all = true ∨ v.toNat / 512 = vbn / 512 → (t.cluster c).lookup v = none) ∧
        (all = false → v.toNat / 512 ≠ vbn / 512 → (t.cluster c).lookup v =
          if v.toNat / 2 ^ 18 = vbn / 2 ^ 18 then ((s.cluster c).lookup v).filter fun e => !e.2 else (s.cluster c).lookup v)

/-- IDLE takes a Keep event, WRSR to PARTITION moves the L2 boundary, and OVLD brings an overlay in (R332, R325, R243, R221, R327, R330, R71, R23). By a privileged strand: with events standing, IDLE takes the oldest, writes gD with its kind in bits 7:0 and its reference above, and goes on; with none it leaves the rotation, keeping its slot, and the next event told completes it. Nothing else changes. (The numbering of references is open in the spec: a free value, log entry 23.) By a privileged strand: a value outside 4 to 16, or the present one, changes nothing. A larger L2 part whose slots are all free takes effect at once: these slots, and no others, return EMPTY at their next generation; with one of them not free nothing changes. A smaller one, with no fill in progress and no more blocks and copies in the L2 part than it will hold, takes effect at once too. The pc moves past the instruction; nothing else changes. OVLD with n below NOVL and no copy running on the core starts the copy of overlay n of the core's image, as its table gives it, and the strand leaves the rotation; with n at or beyond NOVL it raises PRIV with n. OVLD_COPY_COMPLETE stores the body at its load address, sets XB to at least its end, and the strand, in its slot, goes on past its OVLD. Nothing else changes. -/
def Obligations.IdlePartitionAndOverlay : Prop :=
  (∀ (f : Form) (rd : BitVec 4) (s : State) (r : Nat) (st : Strand), s.issuing = some (r, st) → st.guardOk f.gd = true → st.image = 0xFFFF →
    let done := fun e : KeepEvent => ({ st with
      regs := st.regs.set rd.toNat (e.ref ++ e.kind) rd.isLt, wait := .run, pc := st.pc + BitVec.ofNat 32 f.len } : Strand)
    (∀ e q, s.keepEvents = e :: q → exec (.idle f rd) s = .next ({ s with keepEvents := q }.setStrand r (done e))) ∧
    (s.keepEvents = [] → ∃ t, exec (.idle f rd) s = .next t ∧ t = s.setStrand r { st with wait := .keep (.idle f rd) } ∧
      (s.idler = none → Maps.wf s.strands = true → ∀ kind ref, ∃ e : KeepEvent, e.kind = kind ∧
        t.tellKeep kind ref = t.setStrand r (done e)))) ∧
  (∀ (f : Form) (ra : BitVec 4) (s : State) (r : Nat) (st : Strand), s.issuing = some (r, st) → st.guardOk f.gd = true → st.image = 0xFFFF →
    let cl := coreCluster st.home
    let c := s.cluster cl
    let v := st.reg ra
    let u : BitVec 5 := BitVec.ofNat 5 v.toNat
    let go := fun t : State => Host.Outcome.next (t.setStrand r { st with pc := st.pc + BitVec.ofNat 32 f.len })
    (v.toNat < 4 ∨ 16 < v.toNat ∨ v.toNat = c.l2units.toNat → exec (.wrsrPartition f ra) s = go s) ∧
    (4 ≤ v.toNat → v.toNat ≤ 16 → c.l2units.toNat < v.toNat →
      (∀ slot, 512 - 32 * v.toNat ≤ slot → slot < 512 - 32 * c.l2units.toNat → s.slotFree cl slot = true) →
      ∃ pads, exec (.wrsrPartition f ra) s = go (s.setCluster cl { c with l2units := u, pads }) ∧
        ∀ slot, Maps.getD pads slot Block.mapped = if 512 - 32 * v.toNat ≤ slot ∧ slot < 512 - 32 * c.l2units.toNat then
          { Block.mapped with gen := (Maps.getD c.pads slot Block.mapped).gen + 1 } else Maps.getD c.pads slot Block.mapped) ∧
    (4 ≤ v.toNat → v.toNat ≤ 16 → c.l2units.toNat < v.toNat →
      (∃ slot, 512 - 32 * v.toNat ≤ slot ∧ slot < 512 - 32 * c.l2units.toNat ∧ s.slotFree cl slot = false) → exec (.wrsrPartition f ra) s = go s) ∧
    (4 ≤ v.toNat → v.toNat ≤ 16 → v.toNat < c.l2units.toNat → c.fills = [] → c.res.length + c.copies.length ≤ 32 * v.toNat →
      exec (.wrsrPartition f ra) s = go (s.setCluster cl { c with l2units := u, moving := none }))) ∧
  (∀ (f : Form) (ra : BitVec 4) (s : State) (r : Nat) (st : Strand), st.guardOk f.gd = true →
    let c := s.core st.home
    let image := Maps.getD s.images c.image.toNat []
    let n := st.reg ra
    let entry := recField image 0x24 4 + 16 * n.toNat
    let o : Overlay := {
      load := BitVec.ofNat 32 (recField image (entry + 8) 4), strand := r, body := (image.drop (recField image entry 4)).take (recField image (entry + 4) 4) }
    (s.issuing = some (r, st) → recField image 0x1E 2 ≤ n.toNat → exec (.ovld f ra) s = .next (s.raise r 1 n)) ∧
    (s.issuing = some (r, st) → n.toNat < recField image 0x1E 2 → c.ovld = none →
      exec (.ovld f ra) s = .next ((s.setCore st.home { c with ovld := some o }).setStrand r { st with wait := .overlay (.ovld f ra) })) ∧
    (∀ k x slot, s.strand r = some st → st.loc = .slot k slot → st.wait = .overlay (.ovld f ra) → c.ovld = some x → x.strand = r →
      let top := x.load + BitVec.ofNat 32 x.body.length
      exec (.ovldCopyComplete k) s = .next ((s.setCore k { c with
        store := Mem.setBytes c.store x.load.toNat x.body
        ovld := none
        xb := BitVec.ofNat 32 (max c.xb.toNat top.toNat) }).setStrand r { st with pc := st.pc + BitVec.ofNat 32 f.len, wait := .run })))

/-- Loads, WAIT and the block control instructions send one operation and wait for its reply (R103, R204, R213, R215, R216, R217, R218, R226, R238, R260, R262). LD, LDV, WLD, WAIT, PROBE, GENR, ARM, CLR, CLRX, DISCARD and ACNT, with a guard that holds, an aligned operand, a legal descriptor or word range where they need one, a translation that grants the permission of the instruction, room towards the home and, for a load, no remote-data copy that serves it: exec answers a next state in which the operation is on its way to the home, over the mesh or through the Lantern to another module, under the next sequence number of the core, and the strand waits for the reply with its registers and pc unchanged. A consuming load opens the current batch and carries its next ordinal. No other strand, no core, cluster or byte of HBM changes. -/
def Obligations.SynchronousOperationsIssue : Prop :=
  ∀ (o : XOp) (s : State) (r : Nat) (st : Strand) (p : Place), s.issuing = some (r, st) → st.guardOk o.gd = true →
    let e := st.ea o
    let consume := o.mod.getLsbD 1
    let perm : BitVec 4 := if consume then 3 else 1
    let free := consume || (s.copyFor (coreCluster st.home) (e 1).h p).isNone
    let words := o.bit.toNat + 1
    let skip := if o.am = 2 then padd49 (st.reg o.ra) (BitVec.ofNat 64 (4 * words)) else (e 4).upd
    let u := unitCore st.home
    ∀ x ∈ ([(.ld o, 2 ^ o.fmt.toNat, perm, (e (2 ^ o.fmt.toNat)).upd, .read consume, free),
        (.ldv o, 128, perm, (e 128).upd, .read consume, free && (o.fmt != 0xB || descOk (st.desc o.fd))),
        (.wld o, 4, perm, skip, .read consume, free && decide (o.imm6.toNat + words ≤ st.words)
          && decide ((Handle.off (e 4).h).toNat + 4 * words ≤ 4096)),
        (.wait o, 1, 1, (e 1).upd, .wait, true), (.probe o, 1, 1, (e 1).upd, .probe, true), (.genr o, 1, 1, (e 1).upd, .probe, true),
        (.arm o, 1, 2, (e 1).upd, .arm (st.reg o.rb), true), (.clr o, 1, 2, (e 1).upd, .clear false, true),
        (.clrx o, 1, 2, (e 1).upd, .clear true, true), (.discard o, 1, 2, (e 1).upd, .discard, true),
        (.acnt o, 1, 4, (e 1).upd, .arrival, true)] : List (Instr × Nat × BitVec 4 × Word × OpKind × Bool)),
      x.2.2.2.2.2 = true → (Handle.off (e x.2.1).h).toNat % x.2.1 = 0 →
      s.xlate (coreCluster st.home) true (e x.2.1).h x.2.2.1 = .ok p → s.roomFor u (homeOf p) 1 = true →
      ∃ t, exec x.1 s = .next t ∧
        t.strand r = some { st with
          wait := .reply x.1 (e x.2.1).h x.2.2.2.1
          opens := if x.2.2.2.2.1 = .read true then st.opens ||| (1#4 <<< st.batch.toNat) else st.opens } ∧
        t.onWay s.fresh {
          kind := x.2.2.2.2.1, h := (e x.2.1).h, place := p, unit := u, asker := .strand r,
          seq := Maps.getD s.seqs u 0, node := st.node,
          tracker := if x.2.2.2.2.1 = .read true then st.tracker else 0, batch := if x.2.2.2.2.1 = .read true then st.batch else 0,
          ordinal := if x.2.2.2.2.1 = .read true then
            BitVec.ofNat 32 ((Maps.getD s.trackers st.tracker Tracker.zero).get st.batch).next else 0 } ∧
        (∀ q, q ≠ r → t.strand q = s.strand q) ∧ t.hbm = s.hbm ∧ t.cores = s.cores ∧ t.clusters = s.clusters

/-- The reply to a block operation writes the destination and the pointer, and the instruction is complete (R213, R215, R216, R217, R218, R260, R322, R210). For a strand that waits for the reply to operation q, which it has not abandoned, at a home on its die: READ_REPLY with the data of the block writes LD (sign-extended from the size), LDV (bytes and tag), WLD (words, word 0 at the lowest address) or, with its flag, WAIT (presence word), STATUS_REPLY the status of ARM, CLR, CLRX and DISCARD, the status and ticket of ACNT, the generation of GENR and the word or the bit of PROBE; a load then advances its pointer. The pc moves past the instruction and the strand runs again; nothing else changes but that the reply is gone and the operation acknowledged. RECORD_STORE_REPLY does the same in a record without a slot, which goes to the dispatcher of its cluster, or is held there for a victim of a quench. -/
def Obligations.RepliesComplete : Prop :=
  ∀ (o : XOp) (s : State) (m r : Nat) (st : Strand) (q : Op) (upd : Word) (d : Payload) (pw bits : BitVec 16) (w : Word) (c : BitVec 4)
      (ticket : BitVec 16), s.strand r = some st → q.asker = .strand r → q.place.onDie (clusterDie (coreCluster st.home)) = true →
    ((Maps.getD s.units q.unit []).any fun z => z.seq == q.seq && z.asker == q.asker) = true →
    let off := (Handle.off q.h).toNat
    let set := fun (n : BitVec 4) v => st.regs.set n.toNat v n.isLt
    let up := fun (g : Vector Word 16) => g.set o.ra.toNat upd o.ra.isLt
    let k := o.bit.toNat + 1
    let bits64 := fun n => ((BitVec.ofNat (8 * n) (d.toNat / 2 ^ (8 * off))).signExtend 64 : Word)
    let data : Reply := .data d pw bits
    let t := (s.take m).unack q.unit q.seq
    ∀ x ∈ ([(.ld o, data, true, { st with regs := up (set o.rd (bits64 (2 ^ o.fmt.toNat))) }),
        (.ldv o, data, true, { st with
          regs := up st.regs
          vecs := st.vecs.set (o.rd.toNat % 8) (BitVec.ofNat 1024 (d.toNat / 2 ^ (8 * off))) (Nat.mod_lt _ (by decide))
          tags := st.tags.set (o.rd.toNat % 8) (BitVec.ofNat 8 (16 * o.fmt.toNat + if o.fmt = 0xB then o.fd.toNat else 0))
            (Nat.mod_lt _ (by decide)) }),
        (.wld o, data, true, { st with
          regs := up st.regs
          window := Vector.ofFn fun j : Fin 64 => if o.imm6.toNat ≤ j.val ∧ j.val < o.imm6.toNat + k then
            BitVec.ofNat 32 (d.toNat / 2 ^ (8 * off + 32 * (j.val - o.imm6.toNat))) else st.window[j] }),
        (.wait o, data, true, { st with regs := if o.imm6.getLsbD 0 then set o.rd (BitVec.ofNat 64 pw.toNat) else st.regs }),
        (.arm o, .status c ticket, false, { st with regs := set o.rd (BitVec.ofNat 64 c.toNat) }),
        (.clr o, .status c ticket, false, { st with regs := set o.rd (BitVec.ofNat 64 c.toNat) }),
        (.clrx o, .status c ticket, false, { st with regs := set o.rd (BitVec.ofNat 64 c.toNat) }),
        (.discard o, .status c ticket, false, { st with regs := set o.rd (BitVec.ofNat 64 c.toNat) }),
        (.acnt o, .status c ticket, false, { st with regs := set o.rd (BitVec.ofNat 64 (ticket.toNat + 2 ^ 16 * (c.toNat % 8))) }),
        (.genr o, .probe w, false, { st with
          regs := set o.rd (BitVec.ofNat 64 (w.toNat / 4 % 4096 * 2 ^ 52 + q.h.toNat % 2 ^ 52)) }),
        (.probe o, .probe w, false, { st with regs := set o.rd (
          if o.imm6.getLsbD 0 then
            (let full := w.getLsbD 14 && decide (w.toNat / 4 % 4096 = q.h.toNat / 2 ^ 52)
             if full then st.reg o.rd ||| BitVec.ofNat 64 (2 ^ o.bit.toNat) else st.reg o.rd &&& ~~~BitVec.ofNat 64 (2 ^ o.bit.toNat))
          else w) })] : List (Instr × Reply × Bool × Strand)),
      let done : Strand := { x.2.2.2 with pc := st.pc + 12, wait := .run }
      st.wait = .reply x.1 q.h upd → Maps.get s.net m = some (.reply q x.2.1) →
      (st.inSlot = true → exec (if x.2.2.1 then .readReply m else .statusReply m) s = .next (t.setStrand r done)) ∧
      (st.inSlot = false → exec (.recordStoreReply m) s = .next (if s.victim st then
          { t.setStrand r { done with loc := .held st.clusterOf, bound := false } with held := s.held.filter (· != r) ++ [r] }
        else t.setStrand r { done with loc := .arriving st.clusterOf }))

/-- A block access that is misaligned, lacks its permission or must move traps, waits or migrates as its rule says (R91, R20, R229, R231, R153, R204, R214, R255, R260, R368, R103, R58). For LD, LDV, WLD, WAIT, PROBE, GENR, ARM, CLR, CLRX, DISCARD, ACNT, ST, STV, FILL in both forms, SEAL, SEALE, REL and ACC with a guard that holds (and descriptor, words and tag in order): a handle that is no multiple of the size, or a WLD or FILL that leaves its block, raises ALIGN; a translation that the TLB lacks makes the strand wait for a walk; a missing permission puts its record on the fault queue of its die; without room for its operations at the home only the turn counts as unused; a scratchpad of another cluster raises ANCHOR on an anchored strand, and makes any other strand leave for that cluster, pc unchanged, unless its core still holds a record to migrate: then only the turn counts as unused. STV and ACC of an EMPTY vector raise TAGEMPTY, ACC of one with another tag than its format TAGMIS. A STALE or POISON reply to a waiting strand in its slot raises that trap with the handle (and a LOADREC forgets what it has read), and so does POISON for an ACNT. -/
def Obligations.BlockAccessTraps : Prop :=
  ∀ (o : XOp) (lit : Word) (s : State) (r : Nat) (st : Strand), s.issuing = some (r, st) → st.guardOk o.gd = true →
    let e := fun n => (st.ea o n).h
    let desc := o.fmt != 0xB || descOk (st.desc o.fd)
    let words := o.bit.toNat + 1
    let rows := o.imm6.toNat + 1
    let inWindow := decide (o.imm6.toNat + words ≤ st.words)
    let inBlock := decide ((Handle.off (e 4)).toNat + 4 * words ≤ 4096)
    let inRows := decide ((Handle.off (e 128)).toNat / 128 + rows ≤ 32)
    let load : BitVec 4 := if o.mod.getLsbD 1 then 3 else 1
    let v := low3 o.rd
    let tag := st.tag v
    let own := decide (tag.toNat = 16 * o.fmt.toNat)
    let full := decide (16 ≤ tag.toNat)
    let c := s.core st.home
    let unused := Host.Outcome.next (s.setCore st.home { c with perf0 := c.perf0 - 1, perf1 := c.perf1 + 1 })
    (∀ x ∈ ([(.ld o, 2 ^ o.fmt.toNat, load, true, true, 1), (.ldv o, 128, load, desc, true, 1), (.wld o, 4, load, inWindow, inBlock, 1),
        (.wait o, 1, 1, true, true, 1), (.probe o, 1, 1, true, true, 1), (.genr o, 1, 1, true, true, 1), (.arm o, 1, 2, true, true, 1),
        (.clr o, 1, 2, true, true, 1), (.clrx o, 1, 2, true, true, 1), (.discard o, 1, 2, true, true, 1), (.acnt o, 1, 4, true, true, 1),
        (.st o, 8, 2, true, true, 1), (.stv o, 128, 2, full, true, 1), (.fill o, 128, 2, true, inRows, rows),
        (.fillLiteral o lit, 128, 2, true, inRows, rows), (.seal o, 1, 2, true, true, 1), (.seale o, 1, 2, true, true, 1),
        (.rel o, 1, 2, true, true, 1), (.acc o, 128, 4, full && own, true, 1)] : List (Instr × Nat × BitVec 4 × Bool × Bool × Nat)),
      x.2.2.2.1 = true →
      let h := e x.2.1
      let fits := x.2.2.2.2.1
      let x0 := s.xlate (coreCluster st.home) true h x.2.2.1
      ((Handle.off h).toNat % x.2.1 ≠ 0 ∨ fits = false → exec x.1 s = .next (s.raise r 3 h)) ∧
      ((Handle.off h).toNat % x.2.1 = 0 → fits = true →
        (x0 = .miss → exec x.1 s = .next (s.setStrand r { st with wait := .walk h x.2.2.1 })) ∧
        (x0 = .fault → exec x.1 s = .next (s.toFaultQueue r h (.perm x.2.2.1))) ∧
        (∀ p, x0 = .ok p → s.roomFor (unitCore st.home) (homeOf p) x.2.2.2.2.2 = false → exec x.1 s = unused) ∧
        ∀ c, x0 = .migrate c →
          (st.anch = true → exec x.1 s = .next (s.raise r 10 h)) ∧
          (st.anch = false → (s.core st.home).outbuf ≠ [] → exec x.1 s = unused) ∧
          (st.anch = false → (s.core st.home).outbuf = [] → ∃ t, exec x.1 s = .next t ∧
            t.strand r = some { st with loc := .migrating c st.home, wait := .run, bound := false, core := st.home } ∧
            ∀ q, q ≠ r → t.strand q = s.strand q))) ∧
    (full = false → ∀ i ∈ ([.stv o, .acc o] : List Instr), exec i s = .next (s.raise r 7 (BitVec.ofNat 64 v.toNat))) ∧
    (full = true → own = false → exec (.acc o) s =
      .next (s.raise r 6 (BitVec.ofNat 64 (2 ^ 63 + 2 ^ 16 * v.toNat + 2 ^ 12 * o.fmt.toNat + tag.toNat)))) ∧
    ∀ (m : Nat) (q : Op) (i : Instr) (u : Nat) (w : Strand) (upd : Word), s.strand u = some w → w.wait = .reply i q.h upd → w.inSlot = true →
      q.asker = .strand u → ((Maps.getD s.units q.unit []).any fun z => z.seq == q.seq && z.asker == q.asker) = true →
      let t := ((s.take m).unack q.unit q.seq).setStrand u (match i with | .loadrec _ _ _ _ => { w with loaded := [] } | _ => w)
      (readsData i = true →
        (Maps.get s.net m = some (.reply q .stale) → exec (.readReply m) s = .next (t.raise u 8 q.h)) ∧
        (Maps.get s.net m = some (.reply q .poison) → exec (.readReply m) s = .next (t.raise u 17 q.h))) ∧
      (i = .acnt o → Maps.get s.net m = some (.reply q .poison) → exec (.statusReply m) s = .next (t.raise u 17 q.h))

/-- PREF starts making a block resident, or copies it, and MIGR moves its strand to the home cluster of a block (R237, R240, R231, R222, R225, R252). PREF of a space-0 block, through a translation that grants reading, goes on; its home's die leaves its idle state. A block that is not resident, at the generation of the handle, starts to be filled, which counts as forced where a log stands; with a target in service the copy is asked for with it. Of a resident block that is FULL and readable at the generation, a target takes the copy at once, where it has room; without a target, or at another generation, nothing changes. A target out of service drops the hint, and so does a supply out of its limits (log entry 83). For a block homed on another module PREF sends that module a hint, with its target. One without a translation waits for a walk that may fail; a hint for another space, or without permission, only goes on. MIGR with a handle homed on its own cluster, on another module, or in a scratchpad of another module of the domain, only goes on; with one homed on another cluster, in space 0 or a scratchpad, an anchored strand raises ANCHOR, and any other leaves for that cluster with its pc past the MIGR. Memory, blocks and other strands do not change. (The model's choices: the hint to another module, log entry 40; the cluster that stands in for a home out of service, log entry 37.) -/
def Obligations.HintsAndMigration : Prop :=
  ∀ (o : XOp) (s : State) (r : Nat) (st : Strand) (cl : BitVec 9) (blk : Nat), s.issuing = some (r, st) → st.guardOk o.gd = true →
    let h := (st.ea o 1).h
    let c := s.cluster cl
    let space := h.toNat / 2 ^ 49 % 8
    let gen : BitVec 12 := BitVec.ofNat 12 (h.toNat / 2 ^ 52)
    let target : Option (BitVec 9) := if o.imm6.getLsbD 0 then some (BitVec.ofNat 9 (st.reg o.rb).toNat) else none
    let go := s.setStrand r { st with pc := st.pc + 12 }
    let kept := fun t : State => t.strand r = some { st with pc := st.pc + 12 } ∧ (∀ q, q ≠ r → t.strand q = s.strand q) ∧ t.hbm = s.hbm ∧
      t.cores = s.cores
    (space ≠ 0 ∨ s.xlate (coreCluster st.home) true h 1 = .fault → exec (.pref o) s = .next go) ∧
    (space = 0 → s.xlate (coreCluster st.home) true h 1 = .miss → exec (.pref o) s = .next (s.setStrand r { st with wait := .walk h 0 })) ∧
    (∀ p d, space = 0 → s.xlate (coreCluster st.home) true h 1 = .ok p → target = some d → s.inService d = false → exec (.pref o) s = .next go) ∧
    (∀ m, space = 0 → (∀ d, target = some d → s.inService d = true) → s.xlate (coreCluster st.home) true h 1 = .ok (.off m) →
      ∃ t, exec (.pref o) s = .next t ∧ kept t ∧ t.clusters = s.clusters ∧
        ∃ g, ({ src := s.modNo, dst := m, num := s.fresh, body := .pref h target, gen := g } : Frame) ∈ t.lantern ++ t.kept) ∧
    (space = 0 → s.xlate (coreCluster st.home) true h 1 = .ok (.dom cl blk) → s.supplyOk = false → exec (.pref o) s = .next go) ∧
    (space = 0 → s.xlate (coreCluster st.home) true h 1 = .ok (.dom cl blk) → (∀ d, target = some d → s.inService d = true) → s.supplyOk = true →
      (Maps.get c.res blk = none → (s.effective cl blk).1.gen = gen → Maps.get c.fills blk = none →
        ∃ t, exec (.pref o) s = .next t ∧ kept t ∧ (t.die (clusterDie cl)).idle = 0 ∧
          t.cluster cl = { c with fills := Maps.put c.fills blk []
                                  perf7 := if (Maps.get c.logs blk).isSome then c.perf7 + 1 else c.perf7
                                  prefs := match target with | some d => c.prefs ++ [(blk, h, none, d)] | none => c.prefs } ∧
          ∀ k, k ≠ cl → t.cluster k = s.cluster k) ∧
      (Maps.get c.res blk = none → (s.effective cl blk).1.gen ≠ gen → ∃ t, exec (.pref o) s = .next t ∧ kept t ∧ t.clusters = s.clusters) ∧
      ∀ x, Maps.get c.res blk = some x →
        (target = none ∨ x.b.gen ≠ gen ∨ x.b.st ≠ 1 ∨ x.b.poisoned = true →
          ∃ t, exec (.pref o) s = .next t ∧ kept t ∧ t.clusters = s.clusters) ∧
        ∀ d, target = some d → x.b.gen = gen → x.b.st = 1 → x.b.poisoned = false →
          (s.cluster d).res.length + (s.cluster d).copies.length < (s.cluster d).capacity →
          ∃ t, exec (.pref o) s = .next t ∧ kept t ∧ (∀ k, k ≠ d → t.cluster k = s.cluster k) ∧
            t.cluster d = { s.cluster d with copies := Maps.put (s.cluster d).copies (copyKey h) { data := x.b.payload, used := s.tick } }) ∧
    (space = 1 → h.toNat / 2 ^ 38 % 2048 = 0 → h.toNat / 2 ^ 30 % 256 ≠ s.modNo.toNat →
      s.inDomain (BitVec.ofNat 8 (h.toNat / 2 ^ 30)) = true → exec (.migr o) s = .next go) ∧
    (∀ m, space = 0 → s.xlate (coreCluster st.home) true h 1 = .ok (.off m) → exec (.migr o) s = .next go) ∧
    ∀ home, s.xlate (coreCluster st.home) true h 1 = .ok (.dom home blk) ∨
        (h.toNat / 2 ^ 30 % 256 = s.modNo.toNat ∧ s.xlate (coreCluster st.home) true h 1 = .migrate home) →
      let dest := s.standIn home
      (dest = coreCluster st.home → exec (.migr o) s = .next go) ∧
      (dest ≠ coreCluster st.home → st.anch = true → exec (.migr o) s = .next (s.raise r 10 h)) ∧
      (dest ≠ coreCluster st.home → st.anch = false → (s.core st.home).outbuf = [] → ∃ t, exec (.migr o) s = .next t ∧
        t.strand r = some { st with pc := st.pc + 12, loc := .migrating dest st.home, wait := .run, bound := false, core := st.home } ∧
        t.hbm = s.hbm ∧ (∀ k (slot : Fin 8), (t.core k).slots[slot] ≠ some r) ∧
        (∀ k, (t.cluster k).res = (s.cluster k).res ∧ (t.cluster k).pads = (s.cluster k).pads) ∧ ∀ q, q ≠ r → t.strand q = s.strand q)

/-- An operation that reaches the home of a block takes effect there once and is answered, or is logged while the block is not resident (R197, R202, R203, R208, R216, R238, R244, R245, R247, R248, R249, R250). For each of the eleven events at a home: the message holds an operation of the event's kind on a resident block, no fill of that block is in progress, the unit's window holds no outcome of it, the deferral table has room, no watcher is lost to poison, and the operation is answered at once (it neither parks a reader nor is queued). Then exec answers a next state in which the block is what the rule of the operation makes of it (for a DISCARD that clears, the frame may be free instead), the outcome is recorded last in the window of its unit, and, for an asker in this module, the answer is on its way. No strand, no core and no byte of HBM changes. For a block that is not resident and not poisoned, with its PW readable, no fill in progress, no outcome of the operation in the window of its unit and room in the Crucible: ACC, ACCT, ACNT, a plain read and WAIT of a block that is not FULL, a watcher registration, CLR, DISCARD, ARM and PROBE or GENR are answered from the effective state. One that changes it leaves as effective state what the rule of the operation makes of the descriptor, with L set, and the log's entries are those before without the stubs that woke, followed by the ACC or ACCT (merged into the last entry where R249 says so), a SEAL, a CLEAR with the old value's entries gone, or the stub (merged likewise); past 2,048 bytes of entries a fill starts. One that changes nothing leaves the log as it stood. No byte of HBM and no other cluster changes. -/
def Obligations.HomeEventsApply : Prop :=
  (∀ (s : State) (m : Nat) (o : Op) (cl : BitVec 9) (blk : Nat) (x : Resident) (rep : Reply), Maps.get s.net m = some (.op o) →
    o.place = .dom cl blk → Maps.get (s.cluster cl).res blk = some x → Maps.get (s.cluster cl).fills blk = none →
    (∀ w, Maps.get (s.cluster cl).windows o.unit = some w → w.seen.find? (fun z => z.1 == o.seq) = none) →
    let a := x.b.act false o
    a.reply = some rep → a.lost = [] → ((a.parks || a.queues) = true → (s.cluster cl).tableRoom x.b a.b = true) →
    ∀ ev ∈ ([(.homeRead m, match o.kind with | .read _ => true | .wait => true | _ => false),
        (.homeWrite m, match o.kind with | .write _ _ _ _ => true | _ => false),
        (.homeSeal m, match o.kind with | .seal _ => true | _ => false), (.homeArrival m, o.kind == .arrival),
        (.homeAccumulate m, match o.kind with | .accum _ _ _ _ _ _ => true | _ => false),
        (.homeArm m, match o.kind with | .arm _ => true | _ => false), (.homeRelease m, o.kind == .release),
        (.homeClear m, match o.kind with | .clear _ => true | _ => false), (.homeDiscard m, o.kind == .discard),
        (.homeProbe m, o.kind == .probe), (.watcherRegister m, match o.kind with | .watcher _ _ => true | _ => false)] :
        List (Instr × Bool)), ev.2 = true →
      ∃ t, exec ev.1 s = .next t ∧
        ((Maps.get (t.cluster cl).res blk).map Resident.b = some a.b ∨ o.kind = .discard ∧ a.cleared = true) ∧
        ((Maps.get (t.cluster cl).windows o.unit).bind fun w => w.seen.getLast?) = some (o.seq, rep) ∧
        ((∀ n c k, o.asker ≠ .remote n c k) → ∃ k, s.fresh ≤ k ∧ Maps.get t.net k = some (.reply o rep)) ∧
        t.strands = s.strands ∧ t.cores = s.cores ∧ t.hbm = s.hbm) ∧
  (∀ (s : State) (m : Nat) (o : Op) (cl : BitVec 9) (blk : Nat),
    let c := s.cluster cl
    let e := (s.effective cl blk).1
    let a := e.act (s.effective cl blk).2 o
    let es := (Maps.get c.logs blk).elim [] Log.entries
    let reads := decide (e.st.toNat % 2 = 0) && decide (o.unit % 16384 < 8192 ∨ 8720 ≤ o.unit % 16384)
    let keep := fun l : List LogEntry => (l.map fun y => match y with
      | .stubs k g z => LogEntry.stubs k g (z.filter a.b.stubs.contains)
      | y => y).filter fun y => match y with | .stubs _ _ z => !z.isEmpty | _ => true
    let accum := fun (l : List LogEntry) (off : BitVec 12) (n : Nat) (fmt : BitVec 4) (rule : BitVec 2) (data : Payload) =>
      let all : BitVec 512 := BitVec.allOnes 512
      let new : LogEntry := if n = 128 then .acc e.gen fmt rule off (data.extractLsb' 0 1024) else .acct e.gen fmt rule data
      match l.getLast? with
      | some (.acc g f r p d) => if n = 128 ∧ g = e.gen ∧ f = fmt ∧ r = rule ∧ p = off then
          l.dropLast ++ [.acc g f r p ((combineInto (d.zeroExtend 32768) all f r 0 128 data).extractLsb' 0 1024)] else l ++ [new]
      | some (.acct g f r d) => if n ≠ 128 ∧ g = e.gen ∧ f = fmt ∧ r = rule then
          l.dropLast ++ [.acct g f r (combineInto d all f r 0 4096 data)] else l ++ [new]
      | _ => l ++ [new]
    let sealed := fun l : List LogEntry => if a.sealed then l ++ [.seal e.gen] else l
    let stub := fun l : List LogEntry => match a.b.stubs.getLast? with
      | none => l
      | some x => match l.getLast? with
        | some (.stubs k g z) => if k = x.kind ∧ g = x.gen ∧ z.length < 16 then l.dropLast ++ [.stubs k g (z ++ [x])]
            else l ++ [.stubs x.kind x.gen [x]]
        | _ => l ++ [.stubs x.kind x.gen [x]]
    let clear := fun l : List LogEntry => (l.filter fun y => match y with | .acc _ _ _ _ _ => false | .acct _ _ _ _ => false | .seal _ => false | _ => true)
      ++ [.clear e.gen]
    let entries := match o.kind with
      | .accum off n fmt rule _ data => keep (sealed (if a.combined then accum es off n fmt rule data else es))
      | .clear _ => keep (if a.cleared then clear es else es)
      | .discard => keep (if a.cleared then clear es else es)
      | .arm _ => keep (sealed es)
      | .arrival => keep (sealed es)
      | _ => if a.parks then stub (keep es) else keep es
    let size := (entries.map LogEntry.bytes).sum
    let changes := a.parks = true ∨ a.cleared = true ∨ a.sealed = true ∨ a.combined = true ∨ a.b ≠ e ∨ ∃ n, a.reply = some (.status 0 n)
    Maps.get s.net m = some (.op o) → o.place = .dom cl blk → Maps.get c.res blk = none → Maps.get c.fills blk = none → e.poisoned = false →
    (∀ w, Maps.get c.windows o.unit = some w → w.seen.find? (fun z => z.1 == o.seq) = none) → s.badLine blk 0 = false →
    c.crucible + 96 + size ≤ 58982 →
    ∀ ev ∈ ([(.homeRead m, (o.kind == .read false || o.kind == .wait) && reads), (.homeArrival m, o.kind == .arrival),
        (.homeAccumulate m, match o.kind with | .accum _ _ _ _ _ _ => true | _ => false),
        (.homeArm m, match o.kind with | .arm _ => true | _ => false), (.homeClear m, o.kind == .clear false),
        (.homeDiscard m, o.kind == .discard), (.homeProbe m, o.kind == .probe),
        (.watcherRegister m, match o.kind with | .watcher _ _ => true | _ => false)] : List (Instr × Bool)), ev.2 = true →
      ∃ t, exec ev.1 s = .next t ∧ t.hbm = s.hbm ∧ (∀ k, k ≠ cl → t.cluster k = s.cluster k) ∧
        ((Maps.get (t.cluster cl).windows o.unit).bind fun w => w.seen.getLast?) = some (o.seq, a.reply.getD (.report 0 0)) ∧
        (∀ rep, a.reply = some rep → (∀ n c k, o.asker ≠ .remote n c k) → ∃ k, s.fresh ≤ k ∧ Maps.get t.net k = some (.reply o rep)) ∧
        (changes → (∃ l, Maps.get (t.cluster cl).logs blk = some l ∧ l.entries = entries) ∧
          (∃ w, t.effective cl blk = ({ a.b with payload := 0, queued := [], lastWrite := w }, true)) ∧
          Maps.get (t.cluster cl).fills blk = if 2048 < size then some [] else none) ∧
        (¬changes → (t.cluster cl).logs = c.logs ∧ (t.cluster cl).fills = c.fills))

/-- A read of a block that is not full parks its reader, and the wake sends the reader back to its dispatcher (R93, R200, R201, R204, R61, R328, R59). HOME_READ of the read that a strand waits for, at the generation of a resident block that is EMPTY or DEFERRED-READ, with room in the deferral table: the block becomes DEFERRED-READ with a stub of that reader, the park is counted, and the strand stands parked on the block with its registers and pc unchanged, its slot freed unless it is anchored. That stub, count and freed slot are one step at the home is the model's choice (log entry 42). A wake that comes before the answer which parks the reader of another module's block waits for that: no rule says so, and it is the model's choice (log entry 42). WAKE_DELIVER of a parked strand of no quenched instance lets it run again: one without a slot goes to the dispatcher of its cluster, and with a cause its trap has been entered at the reading instruction. -/
def Obligations.ReadersParkAndWake : Prop :=
  ∀ (s : State) (m r : Nat) (st : Strand), s.strand r = some st →
    (∀ (o : Op) (cl : BitVec 9) (blk : Nat) (x : Resident) (i : Instr) (upd : Word) (k : BitVec 13) (slot : BitVec 3) (c : Bool),
      Maps.get s.net m = some (.op o) → o.place = .dom cl blk → o.kind = .read c → o.asker = .strand r → st.wait = .reply i o.h upd →
      st.loc = .slot k slot → Maps.get (s.cluster cl).res blk = some x → Maps.get (s.cluster cl).fills blk = none →
      (∀ w, Maps.get (s.cluster cl).windows o.unit = some w → w.seen.find? (fun z => z.1 == o.seq) = none) →
      Handle.gen o.h = x.b.gen → x.b.st.toNat % 2 = 0 → o.unit < 8192 →
      ((Maps.getD s.units o.unit []).any fun z => z.seq == o.seq && z.asker == o.asker) = true →
      let b := { x.b with st := 2, stubs := x.b.stubs ++ [.reader (.strand r) x.b.gen o.h] }
      (s.cluster cl).tableRoom x.b b = true →
      ∃ t, exec (.homeRead m) s = .next t ∧ (Maps.get (t.cluster cl).res blk).map Resident.b = some b ∧
        (t.cluster cl).perf4 = (s.cluster cl).perf4 + 1 ∧ t.hbm = s.hbm ∧
        t.strand r = some (if st.anch then { st with wait := .parked o.place o.h }
          else { st with wait := .parked o.place o.h, loc := .store (coreCluster k), core := k }) ∧
        (∀ j, j ≠ k → t.core j = s.core j) ∧
        (t.core k).slots[slot.toNat]'slot.isLt = (if st.anch then (s.core k).slots[slot.toNat]'slot.isLt else none) ∧
        ∀ q, q ≠ r → t.strand q = s.strand q) ∧
    (∀ (i : Instr) (h g upd : Word) (b : BitVec 8), st.wait = .reply i g upd → g.toNat / 4096 = h.toNat / 4096 →
      Maps.get s.net m = some (.wake r (.off b) none h) → exec (.wakeDeliver m) s = .next s) ∧
    ∀ (p : Place) (g h : Word), st.wait = .parked p g → g.toNat / 4096 = h.toNat / 4096 → s.victim st = false →
      (Maps.get s.net m = some (.wake r p none h) → ∃ t, exec (.wakeDeliver m) s = .next t ∧
        t.strand r = some (if st.inSlot then { st with wait := .run } else { st with wait := .run, loc := .arriving st.clusterOf }) ∧
        t.cores = s.cores ∧ t.clusters = s.clusters ∧ t.hbm = s.hbm ∧ ∀ q, q ≠ r → t.strand q = s.strand q) ∧
      ∀ cause : BitVec 5, st.tcause.getLsbD 7 = false → Maps.get s.net m = some (.wake r p (some cause) h) →
        ∃ t v, exec (.wakeDeliver m) s = .next t ∧ t.strand r = some v ∧ v.tpc = st.pc ∧ v.tval = h ∧ v.tcause = 0x80 ||| cause.zeroExtend 8 ∧
          v.regs = st.regs ∧ v.wait = .run ∧ t.hbm = s.hbm

/-- At its home a write, a seal, an arrival, an ARM or a watcher registration takes the first matching line of its table (R196, R197, R201, R202, R203, R368, R51, R205, R206, R210, R260). For every block b and every write of n bytes at off, multiples of 8 within the block, and every SEAL or SEALE: the block after the operation, the report and the wakes are those of the tables of R202 and R203, stated byte by byte: poisoned, queued, STALE, DWRITE, or applied with its mask bits; in byte mode the block seals when the written bytes reach the armed count, with ARMOVER beyond it. A seal leaves the block FULL with each unwritten byte zero, the mask empty, the quota loaded, and the stubs of its generation taken off as wakes and fires. For every block b: an arrival at the block's generation answers the ticket, counts unless 65,535 stand, seals in count mode at the armed count, and answers ARMOVER past it; an ARM answers RANGE, STALE, FULL (a poisoned block to every legal arm word) or ARMOVER without effect, or sets mode, count and quota (mode 3 the quota alone) and seals when the count is met. The blocks and answers are those of the tables of R205, R206 and, for poison, R368. A watcher registration fires at once on a FULL block of its generation (poison ends its instance), and else leaves a stub, the state unchanged. -/
def Obligations.HomeWritesSealsAndArrivals : Prop :=
  (∀ (b : Block) (o : Op),
    let byte := fun (p : Payload) (i : Nat) => BitVec.ofNat 8 (p.toNat / 2 ^ (8 * i))
    let same := Handle.gen o.h = b.gen
    let full := b.st.toNat % 2 = 1
    let fires := fun y : Stub => match y with | .reader _ _ _ => true | .watcher _ _ g _ _ => decide (g = b.gen)
    let seals := fun (c : Block) (x : Bool) (a : Act) => a.b.st = 1 ∧ a.b.x = x ∧ a.b.qrem = b.qarmed ∧ a.b.mask = 0 ∧ a.b.gen = b.gen ∧
      a.b.stubs = b.stubs.filter (fun y => !fires y) ∧ a.woken = (b.stubs.filter fires).map (fun y => (y, none)) ∧
      (a.b.mode, a.b.acount, a.b.arrivals, a.b.qarmed, a.b.queued, a.b.poisoned) =
        (b.mode, b.acount, b.arrivals, b.qarmed, b.queued, b.poisoned) ∧
      ∀ i < 4096, byte a.b.payload i = if c.mask.getLsbD (i / 8) then byte c.payload i else 0
    (∀ (off : BitVec 12) (n : Nat) (data : Payload) (q : Bool), o.kind = .write off n data q → off.toNat % 8 = 0 → n % 8 = 0 →
      off.toNat + n ≤ 4096 →
      let a := b.act false o
      let next := q = true ∧ Handle.gen o.h = b.gen + 1
      let mask := b.mask ||| BitVec.ofNat 512 ((2 ^ (n / 8) - 1) * 2 ^ (off.toNat / 8))
      let put := fun i => if off.toNat ≤ i ∧ i < off.toNat + n then byte data (i - off.toNat) else byte b.payload i
      let count := 8 * (List.range 512).countP mask.getLsbD
      if b.poisoned = true ∧ (same ∨ next) then a.b = b ∧ a.reply = some (.report 8 17)
      else if next ∧ full then a.b = { b with st := 3, queued := b.queued ++ [o] } ∧ a.reply = none ∧ a.queues = true
      else if ¬same then a.b = b ∧ a.reply = some (.report 2 8)
      else if full ∨ (List.range 4096).any (fun i => decide (off.toNat ≤ i ∧ i < off.toNat + n) && b.mask.getLsbD (i / 8)) = true then a.b = b ∧ a.reply = some (.report 1 14)
      else if b.mode = 0 ∧ b.acount.toNat ≤ count then
        a.reply = some (if b.acount.toNat < count then .report 4 15 else .report 0 0) ∧
          ∃ c : Block, c.mask = mask ∧ (∀ i < 4096, byte c.payload i = put i) ∧ seals c false a
      else a.reply = some (.report 0 0) ∧ a.woken = [] ∧ a.b.mask = mask ∧ (∀ i < 4096, byte a.b.payload i = put i) ∧
        (a.b.st, a.b.gen, a.b.x, a.b.stubs, a.b.queued) = (b.st, b.gen, b.x, b.stubs, b.queued)) ∧
    ∀ x, o.kind = .seal x →
      let a := b.act false o
      if b.poisoned = true ∧ same then a.b = b ∧ a.reply = some (.report 8 17)
      else if ¬same then a.b = b ∧ a.reply = some (.report 2 8)
      else if full then a.b = b ∧ a.reply = some (.report 1 14)
      else a.reply = some (.report 0 0) ∧ seals b x a) ∧
  (∀ (b : Block) (o : Op),
    let a := b.act false o
    let same := Handle.gen o.h = b.gen
    let full := b.st.toNat % 2 = 1
    let sealed := fun c : Block => (c.sealStep false).1
    (o.kind = .arrival →
      let up : Block := { b with arrivals := b.arrivals + 1 }
      if ¬same then a.b = b ∧ a.reply = some (.status 3 0)
      else if b.poisoned = true then a.b = b ∧ a.reply = some .poison
      else if b.arrivals = 65535 then a.b = b ∧ a.reply = some (.status 2 b.arrivals)
      else if full then a.b = up ∧ a.reply = some (.status (if b.mode = 1 then 2 else 0) b.arrivals)
      else if b.mode = 1 ∧ b.arrivals + 1 = b.acount then a.b = sealed up ∧ a.reply = some (.status 0 b.arrivals) ∧ a.sealed = true
      else a.b = up ∧ a.reply = some (.status 0 b.arrivals)) ∧
    (∀ w : Word, o.kind = .arm w →
      let count := w.toNat % 2 ^ 16
      let mode := w.toNat / 2 ^ 16 % 4
      let quota : BitVec 8 := BitVec.ofNat 8 (w.toNat / 2 ^ 24)
      let stands := if mode = 0 then 8 * (List.range 512).countP b.mask.getLsbD else b.arrivals.toNat
      let d : Block := { b with mode := BitVec.ofNat 2 mode, acount := BitVec.ofNat 16 count, qarmed := quota }
      if w.toNat / 2 ^ 18 % 64 ≠ 0 ∨ w.toNat / 2 ^ 32 ≠ 0 ∨ (mode = 0 ∧ (count % 8 ≠ 0 ∨ count < 8 ∨ 4096 < count)) ∨ (mode = 1 ∧ count = 0)
          ∨ (2 ≤ mode ∧ count ≠ 0) then a.b = b ∧ a.reply = some (.status 5 0)
      else if ¬same then a.b = b ∧ a.reply = some (.status 3 0)
      else if b.poisoned = true then a.b = b ∧ a.reply = some (.status 4 0)
      else if mode = 3 then a.b = { b with qarmed := quota, qrem := if full then quota else b.qrem } ∧ a.reply = some (.status 0 0)
      else if full then a.b = b ∧ a.reply = some (.status 4 0)
      else if mode < 2 ∧ count < stands then a.b = b ∧ a.reply = some (.status 2 0)
      else if mode < 2 ∧ count = stands then a.b = sealed d ∧ a.reply = some (.status 0 0) ∧ a.sealed = true
      else a.b = d ∧ a.reply = some (.status 0 0)) ∧
    ∀ (die : BitVec 3) (node : BitVec 32), o.kind = .watcher die node →
      let frm := match o.asker with | .remote m _ _ => some m | _ => none
      let stub := Stub.watcher die node (Handle.gen o.h) o.h frm
      a.reply = some (.report 0 0) ∧
      (if full ∧ same then a.b = b ∧ a.parks = false ∧ (if b.poisoned = true then a.lost = [stub] ∧ a.woken = [] else a.woken = [(stub, none)] ∧ a.lost = [])
       else a.b = { b with stubs := b.stubs ++ [stub] } ∧ a.woken = [] ∧ a.lost = [] ∧ a.parks = true))

/-- At its home a clear starts the next generation, PROBE and reads answer, and an accumulation combines its elements into the block (R204, R207, R208, R209, R215, R216, R238, R368, R46, R248, R205, R203). For every block b: CLR, CLRX and DISCARD answer STALE or, with readers parked, BUSY (CLRX instead sends every reader ABORTED), and otherwise perform the clear step: the next generation, EMPTY, nothing written or counted, poison ended, mode, armed count and armed quota kept, watchers kept, and the queued writes applied in order. PROBE answers the word of R216 whatever the generation. A read or WAIT answers STALE, POISON or the data and presence word of a FULL block, and parks on one that is not, but for a host's, which never parks and is refused (R46). A consuming read or REL takes one quota unit, performs the clear step with the last one, and reports QUOTA when none is left. For every block b and an ACC of 128 bytes at off, a multiple of 128, or an ACCT of the whole block: STALE and POISON leave the block as it was; a FULL block takes nothing and reports DWRITE, with the arrival of .c counted as on a FULL block. Otherwise each element whose mask bit is clear takes the operand bit for bit, and any other is, for an integer type, the sum modulo its width, the maximum or minimum by its sign, and for F32, F16 and B16 the sum rounded once to nearest even, or FMAX or FMIN of the two; rule 3 is the bitwise or; other bytes stay; the mask gains the range. In byte mode the block then seals at the armed count, with ARMOVER beyond it; then the arrival of .c counts, seals in count mode at the armed count, and is ARMOVER where 65,535 stand. -/
def Obligations.HomeClearsAndAccumulations : Prop :=
  (∀ (b : Block) (o : Op),
    let a := b.act false o
    let same := Handle.gen o.h = b.gen
    let full := b.st.toNat % 2 = 1
    let cleared := fun c : Block => c.queued.foldl (fun x w => match w.kind with
        | .write off n data _ => (x.write false w 5 off.toNat n data false).b
        | _ => x)
      { c with st := 0, gen := c.gen + 1, x := false, mask := 0, arrivals := 0, qrem := 0, poisoned := false, queued := [], lastWrite := none }
    let quota := if b.qrem = 0 then b else if b.qrem = 1 then cleared b else { b with qrem := b.qrem - 1 }
    (o.kind = .clear false ∨ o.kind = .discard →
      if ¬same then a.b = b ∧ a.reply = some (.status 3 0)
      else if b.st = 2 then a.b = b ∧ a.reply = some (.status 1 0)
      else a.b = cleared b ∧ a.reply = some (.status 0 0)) ∧
    (o.kind = .clear true →
      if ¬same then a.b = b ∧ a.reply = some (.status 3 0)
      else if b.st = 2 then a.b = cleared { b with stubs := b.stubs.filter fun y => !y.isReader } ∧ a.reply = some (.status 0 0) ∧
        ∀ y ∈ b.stubs, y.isReader = true → (y, some 12) ∈ a.woken
      else a.b = cleared b ∧ a.reply = some (.status 0 0)) ∧
    (o.kind = .probe → a.b = b ∧ a.woken = [] ∧ ∃ v : Word, a.reply = some (.probe v) ∧ v.toNat = (b.pw false).toNat + 2 ^ 16 * b.arrivals.toNat
      + 2 ^ 32 * (if full then 0 else 8 * (List.range 512).countP b.mask.getLsbD) + 2 ^ 46 * b.mode.toNat + 2 ^ 48 * b.qarmed.toNat
      + 2 ^ 56 * b.qrem.toNat) ∧
    (∀ consume, o.kind = .read consume ∨ o.kind = .wait ∧ consume = false →
      if ¬same then a.b = b ∧ a.reply = some .stale
      else if ¬full ∧ 8712 ≤ o.unit % 16384 ∧ o.unit % 16384 < 8720 then a.b = b ∧ a.reply = some .stale
      else if ¬full then a.b = { b with st := 2, stubs := b.stubs ++ [.reader o.asker b.gen o.h] } ∧ a.reply = none ∧ a.parks = true
      else if b.poisoned = true then a.b = b ∧ a.reply = some .poison
      else a.reply = some (.data b.payload (b.pw false) (if consume = true ∧ b.qrem = 0 then 32 else 0)) ∧
        a.b = if consume then quota else b) ∧
    (o.kind = .release →
      if ¬same then a.b = b ∧ a.reply = some (.report 2 8)
      else if ¬full then a.b = b ∧ a.reply = some (.report 32 16)
      else if b.poisoned = true then a.b = b ∧ a.reply = some (.report 8 17)
      else a.b = quota ∧ a.reply = some (if b.qrem = 0 then .report 32 16 else .report 0 0))) ∧
  (∀ (b : Block) (o : Op) (off : BitVec 12) (n : Nat) (fmt : BitVec 4) (rule : BitVec 2) (arr : Bool) (data : Payload),
    o.kind = .accum off n fmt rule arr data → (n = 128 ∧ off.toNat % 128 = 0 ∨ n = 4096 ∧ off = 0) →
    let a := b.act false o
    let w := [8, 8, 16, 32, 16, 32, 16, 16].getD (fmt.toNat - 3) 8
    let elem := fun (p : Payload) (i : Nat) => p.toNat / 2 ^ (w * i) % 2 ^ w
    let signed := fun v : Nat => if fmt ≠ 4 ∧ 2 ^ (w - 1) ≤ v then (v : Int) - 2 ^ w else v
    let f := if fmt = 8 then fmtF32 else if fmt = 9 then fmtF16 else fmtB16
    let combine := fun e x : Nat =>
      if 8 ≤ fmt.toNat then [(roundTo f 0 ((f.decode e).add 0 (f.decode x))).1, (minMax f true e x).1, (minMax f false e x).1, e ||| x].getD rule.toNat 0
      else [(e + x) % 2 ^ w, if signed e < signed x then x else e, if signed x < signed e then x else e, e ||| x].getD rule.toNat 0
    let mask := b.mask ||| BitVec.ofNat 512 ((2 ^ (n / 8) - 1) * 2 ^ (off.toNat / 8))
    let count := 8 * (List.range 512).countP mask.getLsbD
    let sealed := fun c : Block => (c.sealStep false).1
    if Handle.gen o.h ≠ b.gen then a.b = b ∧ a.reply = some (.report 2 8)
    else if b.poisoned = true then a.b = b ∧ a.reply = some (.report 8 17)
    else if b.st.toNat % 2 = 1 then
      a.b = (if arr ∧ b.arrivals ≠ 65535 then { b with arrivals := b.arrivals + 1 } else b) ∧
        a.reply = some (.report (if arr ∧ (b.mode = 1 ∨ b.arrivals = 65535) then 5 else 1) 14)
    else 3 ≤ fmt.toNat → fmt.toNat ≤ 10 → fmt ≠ 7 → ∃ p : Payload,
      (∀ i < 32768 / w, elem p i =
        if off.toNat ≤ i * (w / 8) ∧ i * (w / 8) < off.toNat + n then
          (if b.mask.getLsbD (i * (w / 8) / 8) then combine (elem b.payload i) (elem data (i - off.toNat / (w / 8)))
           else elem data (i - off.toNat / (w / 8)))
        else elem b.payload i) ∧
      let c : Block := { b with payload := p, mask := mask, lastWrite := some o }
      let d := if b.mode = 0 ∧ b.acount.toNat ≤ count then sealed c else c
      let up : Block := { d with arrivals := b.arrivals + 1 }
      let last := arr = true ∧ b.arrivals ≠ 65535 ∧ b.mode = 1 ∧ b.arrivals + 1 = b.acount
      a.b = (if arr = false ∨ b.arrivals = 65535 then d else if last then sealed up else up) ∧
      a.sealed = decide (b.mode = 0 ∧ b.acount.toNat ≤ count ∨ last) ∧ a.combined = true ∧
      a.reply = some (if b.mode = 0 ∧ b.acount.toNat < count ∨ arr = true ∧ b.arrivals = 65535 then .report 4 15 else .report 0 0))

/-- CHMK forms a channel, SEND reads its source, and its acceptance sends the write to the peer (R299, R304, R306, R307, R374, R204, R265). CHMK outside a reconfiguration writes gD with generation, plan, peer, group, the mask of the qualifying fibres and the stream number, and a channel over a replaced fibre counts as made again; during one it waits for GO. A SEND source or destination that is no block handle raises ALIGN, a channel that is not of the present topology, whose fibres do not all qualify, or that names a replaced fibre without a CHMK since, TOPOSTALE. With aligned handles, a good channel, a readable source and a destination on the peer SEND sends the read of its source and waits. SEND_ACCEPT, outside a reconfiguration and with room towards the peer, sends the 4,096 bytes over the channel as a posted write of the strand's batch, with its own number and that of the SEND before it on the channel, and the strand goes on past its SEND. Other strands, cores, clusters and HBM do not change. -/
def Obligations.CircuitInstructions : Prop :=
  ∀ (o : XOp) (s : State) (r : Nat) (st : Strand), st.guardOk o.gd = true →
    let ga := st.reg o.ra
    let gb := st.reg o.rb
    let c := st.reg o.rd
    let u := unitCore st.home
    let joins := fun (peer : BitVec 8) (k : Nat) => s.fibresUp.getLsbD k = true ∧ s.planesUp.getLsbD k = true ∧
      ((s.planEntry s.plan s.modNo k).toNat / 2 ^ 15 = 1 ∧ (s.planEntry s.plan s.modNo k).toNat % 2 ^ 8 = peer.toNat)
    let good := fun peer : BitVec 8 => ∃ lg m : BitVec 4, ∃ stream : BitVec 8, c = s.tgen ++ s.plan ++ peer ++ lg ++ m ++ 0#4 ++ stream ∧ m ≠ 0 ∧
      ∀ i < 4, m.getLsbD i = true → joins peer (4 * lg.toNat + i) ∧ (s.remade.getLsbD (4 * lg.toNat + i) = true → c ∈ s.chanMade)
    (s.issuing = some (r, st) → s.reconf = false → ∃ m : BitVec 4,
      (∀ i < 4, m.getLsbD i = true ↔ ga.extractLsb' 0 8 ≠ s.modNo ∧ joins (ga.extractLsb' 0 8) (4 * (gb.toNat % 16) + i)) ∧
      let h : Word := s.tgen ++ s.plan ++ ga.extractLsb' 0 8 ++ gb.extractLsb' 0 4 ++ m ++ 0#4 ++ gb.extractLsb' 8 8
      let made := if (List.range 4).any fun i => m.getLsbD i && s.remade.getLsbD (4 * (gb.toNat % 16) + i) then h :: s.chanMade.erase h else s.chanMade
      exec (.chmk o) s = .next ({ s with chanMade := made }.setStrand r { st with
        regs := st.regs.set o.rd.toNat h o.rd.isLt, pc := st.pc + 12 })) ∧
    (s.issuing = some (r, st) → s.reconf = true → exec (.chmk o) s = .next (s.setStrand r { st with wait := .go })) ∧
    (s.issuing = some (r, st) →
      (ga.toNat % 4096 ≠ 0 → exec (.send o) s = .next (s.raise r 3 ga)) ∧
      (ga.toNat % 4096 = 0 → gb.toNat % 4096 ≠ 0 → exec (.send o) s = .next (s.raise r 3 gb)) ∧
      (ga.toNat % 4096 = 0 → gb.toNat % 4096 = 0 → (∀ peer, ¬good peer) → exec (.send o) s = .next (s.raise r 9 c))) ∧
    (∀ (peer : BitVec 8) (p : Place), s.issuing = some (r, st) → good peer →
      ga.toNat % 4096 = 0 → gb.toNat % 4096 = 0 → s.xlate (coreCluster st.home) true ga 1 = .ok p →
      (gb.toNat / 2 ^ 49 % 8 = 1 ∧ gb.extractLsb' 38 11 = 0 ∧ gb.extractLsb' 30 8 = peer ∨
        gb.toNat / 2 ^ 49 % 8 ≠ 1 ∧ s.xlate (coreCluster st.home) true gb 2 = .ok (.off peer)) →
      s.copyFor (coreCluster st.home) ga p = none → s.roomFor u (homeOf p) 1 = true →
      ∃ t, exec (.send o) s = .next t ∧ t.strand r = some { st with wait := .reply (.send o) ga ga } ∧
        t.onWay s.fresh {
          kind := .read false, h := ga, place := p, unit := u, seq := Maps.getD s.seqs u 0,
          asker := .strand r, tracker := 0, batch := 0, ordinal := 0, node := st.node } ∧
        (∀ q, q ≠ r → t.strand q = s.strand q) ∧ t.hbm = s.hbm ∧ t.cores = s.cores ∧ t.clusters = s.clusters) ∧
    ∀ data : Payload, s.strand r = some st → st.wait = .send (.send o) data → st.inSlot = true → s.reconf = false →
      let peer : BitVec 8 := c.extractLsb' 20 8
      let b : BitVec 2 := if o.bx then o.bn else st.batch
      let ord := BitVec.ofNat 32 ((Maps.getD s.trackers st.tracker Tracker.zero).get b).next
      let seq := Maps.getD s.seqs u 0
      let m : SendMsg := {
        frm := s.modNo, chan := c, hd := gb, unit := u, seq := seq, tracker := st.tracker, batch := b, ordinal := ord, node := st.node
        data := data, num := s.fresh, prev := ((s.chanOut.filter fun m => m.chan == c).getLast?).elim 0 SendMsg.num }
      s.roomFor u (2048 + peer.toNat) 1 = true →
      ∃ t, exec (.sendAccept r) s = .next t ∧
        t.strand r = some { st with pc := st.pc + 12, wait := .run, opens := st.opens ||| (1#4 <<< b.toNat) } ∧
        Maps.getD t.units u [] = Maps.getD s.units u [] ++ [{
          kind := .write 0 4096 data false, h := gb, place := .off peer, unit := u, seq := seq, asker := .circuit c
          tracker := st.tracker, batch := b, ordinal := ord, node := st.node }] ∧
        t.outbox = s.outbox ++ [.send peer m] ∧ t.chanOut = s.chanOut ++ [m] ∧
        (∀ q, q ≠ r → t.strand q = s.strand q) ∧ t.hbm = s.hbm ∧ t.cores = s.cores ∧ t.clusters = s.clusters

/-- The Lantern takes in what comes once, forwards what is for others, and keeps what it sent until it is receipted (R295, R300, R301, R302, R304, R306, R309, R363, R365). SEND_DELIVER in the order of acceptance receipts the SEND and posts its write to its place here, or, behind an earlier one of its channel, queues it; one taken in before is only receipted, one out of turn left. ROUTED_FORWARD sends a frame for another module on along its path, and takes one for this module in: an operation goes to its home under the sender's sequence number and tags, a reply to an operation that its unit still holds reaches that unit, a wake the record that it names, a fire the owner of its node instance; and word of ended node instances takes their watchers off the blocks here; each is receipted, and one taken in before is receipted only (an operation is the business of its home's window). A frame without a path is held. From DRAIN to GO what is of the next topology generation waits. ROUTED_ACK takes what it receipts off the lists of frames and SENDs, ROUTED_RESEND sends one of them again under its number, or holds a frame that has lost its path, and a replayed flit has no effect of its own. Memory, cores and strands do not change, nor but for those watchers a cluster. What comes in takes the module out of S4 first. (The model's choices: receipts, log entry 35; the path, and the keeping of frames, log entry 38; what waits between DRAIN and GO, and how a frame shows its generation, log entry 55.) -/
def Obligations.LanternTraffic : Prop :=
  ∀ (s : State),
    let awake := { s with modState := 0 }
    let same := fun t : State => t.hbm = s.hbm ∧ t.cores = s.cores ∧ t.strands = s.strands ∧ t.clusters = s.clusters
    let holds := fun gen : BitVec 32 => (s.rcir.any fun c => c.drain) = true ∧ gen = s.tgen + 1
    let deliver := fun m : SendMsg => Instr.sendDeliver m.frm m.chan m.hd ⟨m.unit, m.seq, m.tracker, m.batch, m.ordinal, m.node⟩ ⟨m.num, m.prev⟩ m.data
    (∀ (m : SendMsg),
      let last := s.lastSend m.frm m.chan
      let ack := Out.routedAck m.frm m.num
      let held := holds (m.chan.extractLsb' 32 32)
      (held ∨ last < m.prev → exec (deliver m) s = .next s) ∧
      (¬held → m.prev ≤ last → m.num ≤ last → exec (deliver m) s = .next (awake.emit ack)) ∧
      (¬held → m.prev ≤ last → last < m.num → (∃ x ∈ s.chanIn, x.frm = m.frm ∧ x.chan = m.chan) → ∃ t,
        exec (deliver m) s = .next t ∧ t.chanIn = s.chanIn ++ [m] ∧ t.outbox = s.outbox ++ [ack] ∧ t.net = s.net ∧
        t.lastSend m.frm m.chan = m.num ∧ same t ∧ t.modState = 0) ∧
      ∀ p, ¬held → m.prev ≤ last → last < m.num → (∀ x ∈ s.chanIn, x.frm = m.frm → x.chan ≠ m.chan) → s.channelPlace m.hd = some p → ∃ t,
        exec (deliver m) s = .next t ∧ t.chanIn = s.chanIn ++ [m] ∧ t.outbox = s.outbox ++ [ack] ∧
        t.lastSend m.frm m.chan = m.num ∧ same t ∧ t.modState = 0 ∧ Maps.get t.net s.fresh = some (.op {
          kind := .write 0 4096 m.data false, h := m.hd, place := p, unit := unitRemote m.frm m.unit, seq := m.seq, node := m.node
          asker := .channel m.frm m.chan, tracker := remoteTracker m.frm m.tracker, batch := m.batch, ordinal := m.ordinal })) ∧
    (∀ f : Frame,
      let ack := Out.routedAck f.src f.num
      let takes := fun m : Msg => ∃ t, exec (.routedForward f) s = .next t ∧ t.outbox = s.outbox ++ [ack] ∧ Maps.get t.net s.fresh = some m ∧ same t ∧ t.modState = 0
      let heard := f.num ∈ Maps.getD s.heard f.src.toNat []
      (holds f.gen → exec (.routedForward f) s = .next s) ∧
      (¬holds f.gen → f.dst ≠ s.modNo → f.src ≠ s.modNo →
        (∀ k, s.route f.dst = some k → exec (.routedForward f) s = .next (awake.emit (.routed k f))) ∧
        (s.route f.dst = none → ∃ t, exec (.routedForward f) s = .next t ∧ same t ∧ t.lantern = s.lantern ++ [f] ∧ t.outbox = s.outbox)) ∧
      (¬holds f.gen → f.dst = s.modNo →
        (∀ k h u seq c rec node ord cl blk tr b, f.body = .op k h u seq c rec node ord tr b → s.placeOf h 0 = some (.dom cl blk) → takes (.op {
          kind := k, h := h, place := .dom cl blk, unit := unitRemote f.src u, seq := seq, asker := .remote f.src c rec
          tracker := remoteTracker f.src tr, batch := b, ordinal := ord, node := node })) ∧
        (heard → (∀ k h u seq c rec node ord tr b, f.body ≠ .op k h u seq c rec node ord tr b) →
          exec (.routedForward f) s = .next (awake.emit ack)) ∧
        (¬heard →
          (∀ u seq x o, f.body = .reply u seq x → (Maps.getD s.units u []).find? (fun z => z.seq == seq) = some o → takes (.reply o x)) ∧
          (∀ c n h, f.body = .wake c (2 * n) h → takes (.wake n (.off f.src) none h)) ∧
          (∀ c n h k, f.body = .abort c (2 * n) h k → takes (.wake n (.off f.src) (some k) h)) ∧
          (∀ ns, f.body = .drop ns → ∃ t, exec (.routedForward f) s = .next t ∧ t.outbox = s.outbox ++ [ack] ∧ t.hbm = s.hbm ∧
            t.cores = s.cores ∧ t.strands = s.strands ∧ ∀ cl blk x, Maps.get (t.cluster cl).res blk = some x →
              ∃ y, Maps.get (s.cluster cl).res blk = some y ∧ x.b = { y.b with stubs := y.b.stubs.filter fun z => match z with
                | .watcher _ n _ _ m => !(m == some f.src && ns.contains n)
                | .reader _ _ _ => true }) ∧
          ∀ n nd, f.body = .fire n → s.node n = some nd → takes (.fire nd.owner n)))) ∧
    (∀ (frm : BitVec 8) (num : Nat), ∃ t, exec (.routedAck ⟨frm, num⟩) s = .next t ∧ same t ∧ t.net = s.net ∧
      (∀ f, f ∈ t.kept ↔ f ∈ s.kept ∧ ¬(f.dst = frm ∧ f.num = num)) ∧
      (∀ f, f ∈ t.lantern ↔ f ∈ s.lantern ∧ ¬(f.src = s.modNo ∧ f.dst = frm ∧ f.num = num)) ∧
      ∀ m, m ∈ t.chanOut ↔ m ∈ s.chanOut ∧ ¬(m.chan.extractLsb' 20 8 = frm ∧ m.num = num)) ∧
    (∀ f : Frame, (s.kept.find? fun g => g.num == f.num) = some f →
      (∀ k, s.route f.dst = some k → exec (.routedResend f.num) s = .next (s.emit (.routed k { f with gen := s.sendGen }))) ∧
      (s.route f.dst = none → ∃ t, exec (.routedResend f.num) s = .next t ∧ same t ∧ f ∈ t.lantern ∧ f ∉ t.kept ∧ f.dst ∈ t.noPath)) ∧
    (∀ m : SendMsg, (∀ f ∈ s.kept, f.num ≠ m.num) → (s.chanOut.find? fun x => x.num == m.num) = some m →
      exec (.routedResend m.num) s = .next (s.emit (.send (m.chan.extractLsb' 20 8) m))) ∧
    ∀ k, exec (.flitReplay k) s = .next s

/-- RCIR parks its strand, and the module drains, relocks and goes on under the new topology or the old one (R306, R307, R309, R310, R311, R370, R371). With no collective outstanding, RCIR parks its strand, freeing its slot unless it is anchored, and sends its arrival to the leader, numbered by the model. DRAIN of that collective stops new SENDs and routed traffic; LANTERN_DRAINED, once no frame and no SEND awaits its receipt, reports DRAINED; LANTERN_RELOCK with every fibre of the new plan up takes the lost planes out of service, installs the plan for routing, sends the held frames that have a path in queue order, under the generation to come, or after a fall-back the present one, and reports LOCKED; FIBRE_RELOCK_TIMEOUT takes a fibre out of service, logs an error and tells the Keep. GO sets generation and plan (after a fall-back neither) and ABORT neither; each strand of the collective in its slot wakes past its RCIR with the generation and status 0, 2 or 1 in gD. What a module that leads tells itself stands in toSelf, and of a leader of its own a module takes no message that it did not send, and those it sent in their order. (The model's choices: the number of an arrival, log entry 90; what LANTERN_RELOCK carries, lost planes out of service at the relock and the generation of a frame, log entry 55; the path, log entry 38.) -/
def Obligations.CollectiveAtAModule : Prop :=
  ∀ (s : State),
    let own := s.leaderNo = s.modNo
    let tell := fun (u : State) (m : DomainMsg) => if own then { u with toSelf := u.toSelf ++ [m] } else u.emit (.domainMsg s.leaderNo m)
    let comes := fun m : DomainMsg => own → s.toSelf.find? (fun x => x.up == m.up) = some m
    let took := fun m : DomainMsg => if own then { s with toSelf := s.toSelf.erase m } else s
    (∀ (o : XOp) (r : Nat) (st : Strand) (k : BitVec 13) (n : BitVec 3), s.issuing = some (r, st) → st.guardOk o.gd = true →
      st.loc = .slot k n → s.rcir = none →
      let p : BitVec 4 := (st.reg o.ra).extractLsb' 0 4
      let e : BitVec 32 := (st.reg o.rb).extractLsb' 0 32
      let msg := DomainMsg.gather { round := s.fresh, plan := p, digest := s.planDigest p, expect := e, theirs := s.tgen }
      ∃ t, exec (.rcir o) s = .next t ∧ t.outbox = (tell s msg).outbox ∧ t.toSelf = (tell s msg).toSelf ∧
        t.rcir = some { round := s.fresh, plan := p, expect := e, recs := [r], drain := false, drained := false, relocked := false, late := [] } ∧
        t.strand r = some (if st.anch then { st with wait := .rcir (.rcir o) }
          else { st with wait := .rcir (.rcir o), loc := .store (coreCluster k), core := k }) ∧
        (t.core k).slots[n.toNat]'n.isLt = (if st.anch then (s.core k).slots[n.toNat]'n.isLt else none) ∧
        (t.tgen, t.plan, t.reconf, t.hbm) = (s.tgen, s.plan, s.reconf, s.hbm) ∧ ∀ q, q ≠ r → t.strand q = s.strand q) ∧
    ∀ c : Collective, s.rcir = some c →
      (c.drain = false →
        (comes (.drain c.plan c.expect) → exec (.drain c.plan c.expect) s = .next { took (.drain c.plan c.expect) with
          rcir := some { c with drain := true }, reconf := true }) ∧
        (¬comes (.drain c.plan c.expect) → exec (.drain c.plan c.expect) s = .next s)) ∧
      (c.drain = true → c.drained = false → s.chanOut = [] → s.kept = [] →
        exec .lanternDrained s = .next (tell { s with rcir := some { c with drained := true } } .drained)) ∧
      (∀ (up lost : BitVec 64) (fallback : Bool), c.drained = true → c.relocked = false → comes (.relock fallback lost) →
        let p := if fallback then s.plan else c.plan
        let u : State := { took (.relock fallback lost) with
          planesUp := s.planesUp &&& ~~~lost, rcir := some { c with relocked := true, plan := p, back := fallback } }
        let tag := fun f : Frame => if f.src = s.modNo then { f with gen := if fallback then s.tgen else c.expect + 1 } else f
        (∀ k < 64, s.fibresUp.getLsbD k = true → u.planesUp.getLsbD k = true → (s.planEntry p s.modNo k).toNat / 2 ^ 15 = 1 →
          up.getLsbD k = true) →
        (∀ f ∈ s.lantern, u.hasPath f.dst = true) →
        exec (.lanternRelock up ⟨fallback, lost⟩) s = .next (tell { u with
          lantern := [], noPath := s.noPath.filter fun m => !u.hasPath m
          kept := s.kept ++ (s.lantern.filter fun f => f.src == s.modNo).map tag
          outbox := s.outbox ++ s.lantern.map fun f => .routed ((u.route f.dst).getD 0) (tag f) } .locked)) ∧
      (∀ (k : BitVec 6) (fallback : Bool), c.drained = true → c.relocked = false → s.fibresUp.getLsbD k.toNat = true →
        s.planesUp.getLsbD k.toNat = true → (s.planEntry (if fallback then s.plan else c.plan) s.modNo k.toNat).getLsbD 15 = true →
        ∃ t, exec (.fibreRelockTimeout ⟨k, fallback⟩) s = .next t ∧
          (∀ j < 64, t.fibresUp.getLsbD j = (s.fibresUp.getLsbD j && j != k.toNat)) ∧
          t.errHead = s.errHead + 1 ∧ t.rcir = s.rcir ∧ t.hbm = s.hbm ∧
          (s.idler = none → t.strands = s.strands ∧ ∃ e : KeepEvent, e.kind = 3 ∧ t.keepEvents = s.keepEvents ++ [e])) ∧
      ∀ fallback abort : Bool, (abort = true ∧ comes .abort ∨ abort = false ∧ c.relocked = true ∧ comes (.go fallback)) → c.late = [] →
        let gen := if abort || fallback then s.tgen else c.expect + 1
        ∃ t, exec (if abort then .abort else .go fallback) s = .next t ∧ t.rcir = none ∧ t.reconf = false ∧ t.tgen = gen ∧
          t.plan = (if abort || fallback then s.plan else c.plan) ∧ t.hbm = s.hbm ∧ t.cores = s.cores ∧
          ∀ r ∈ c.recs, ∀ st o, s.strand r = some st → st.wait = .rcir (.rcir o) → st.inSlot = true →
            t.strand r = some { st with
              regs := st.regs.set o.rd.toNat (BitVec.ofNat 64 (gen.toNat + 2 ^ 32 * (if abort then 1 else if fallback then 2 else 0))) o.rd.isLt
              pc := st.pc + 12, wait := .run }

/-- The leader gathers, drains, configures the planes, relocks and sends GO, or aborts (R309, R311, R312, R386, R380). At the leader: RCIR_GATHER of a module that has not arrived is kept; with the last one the leader sends DRAIN to every module when all arrivals agree, name a loaded plan that is not in force and expect the present generation, else ABORT. A different arrival of a module that has not drained aborts, one of an ended collective is dropped. After the last DRAINED every plane gets CONFIG with its next number, the new generation and its pairs, under its key; a DRAINED after the end does nothing. CONFIGURED with result 0 is kept, and after the last plane every module gets RELOCK; after another result the plane gets a QUERY, whose UPC_STATUS counts as CONFIGURED when done with the right pairs, else CONFIG goes out again. UPC_RETRANSMIT repeats the message of a plane that has not answered. PLANE_FALLBACK commands every plane back to the plan in force, and then counts a plane that does not return as lost. After the last LOCKED every module gets GO. A module that asks for the plan at bring-up gets generation, plan and entries, and stands under what it is told, or under generation 0 and plan 0 when the leader cannot be reached. (The model's choices: the ABORT on an arrival that differs after DRAIN was sent, log entry 72; when a QUERY goes out, log entry 88; the pairs in the body of CONFIG, log entry 54; a plane that fails its fall-back, log entry 55; the number of an arrival, log entry 90; what a module without a leader stands under, log entry 91.) -/
def Obligations.CollectiveAtTheLeader : Prop :=
  ∀ (s : State),
    let l := s.lead
    let tell := fun (u : State) (m : DomainMsg) => { u with
      outbox := u.outbox ++ (s.domainOf.filter fun d => d != s.modNo).map fun d => .domainMsg d m
      toSelf := u.toSelf ++ (s.domainOf.filter fun d => d == s.modNo).map fun _ => m }
    let took := fun (frm : BitVec 8) (m : DomainMsg) => if frm = s.modNo then { s with toSelf := s.toSelf.erase m } else s
    let comes := fun (frm : BitVec 8) (m : DomainMsg) => frm = s.modNo → s.toSelf.find? (fun x => x.up == m.up) = some m
    let addr := fun k : Nat => (s.flashReg (0x10108 + 16 * k) ++ s.flashReg (0x10100 + 16 * k) : BitVec 128)
    let key := fun k : Nat => (s.flashReg (0x11018 + 32 * k) ++ s.flashReg (0x11010 + 32 * k) ++ s.flashReg (0x11008 + 32 * k)
      ++ s.flashReg (0x11000 + 32 * k) : BitVec 256)
    let upc := fun (typ : BitVec 8) (p : BitVec 4) (gen : BitVec 32) (seq : Nat → BitVec 32) (k : Nat) =>
      let body := if typ = 1 then s.planePairs p k else []
      Out.upc (BitVec.ofNat 6 k) (addr k) 7319 1 typ (seq k) gen (BitVec.ofNat 16 body.length) body (key k, Config.upcNonce k (seq k))
    let now := fun k => Maps.getD s.upcSeq k 0
    let next := fun k => Maps.getD s.upcSeq k 0 + 1
    let plan := if l.fallback then s.plan else l.plan
    let gen := if l.fallback then s.tgen else l.expect + 1
    let done := fun arr : FMap Arrival => { Leader.reset with ended := arr.foldl (fun m q => Maps.put m q.1 q.2.round) l.ended }
    let gather := fun (frm : BitVec 8) (a : Arrival) => Instr.rcirGather frm a.round a.plan a.digest ⟨a.expect, a.theirs⟩
    (∀ (frm : BitVec 8) (a : Arrival), s.leaderNo = s.modNo → frm ∈ s.domainOf → comes frm (.gather a) →
      let t := took frm (.gather a)
      let arr := Maps.put l.arrivals frm.toNat a
      let all := ∀ m ∈ s.domainOf, Maps.get arr m.toNat ≠ none
      let good := (∀ q ∈ arr, { q.2 with round := a.round } = a) ∧ a.digest ≠ none ∧ a.theirs = a.expect ∧ a.plan ≠ s.plan
      (a.round ≤ Maps.getD l.ended frm.toNat 0 → exec (gather frm a) s = .next t) ∧
      (Maps.getD l.ended frm.toNat 0 < a.round →
        (l.running = true → frm.toNat ∉ l.drained → Maps.get l.arrivals frm.toNat ≠ some a →
          exec (gather frm a) s = .next (tell { t with lead := done l.arrivals } .abort)) ∧
        (l.running = false → l.bad = false → Maps.get l.arrivals frm.toNat = none →
          (¬all → exec (gather frm a) s = .next { t with lead := { l with arrivals := arr } }) ∧
          (all → good → exec (gather frm a) s = .next (tell { t with
            lead := { l with
              arrivals := arr, running := true, plan := a.plan, expect := a.expect, drained := [], configured := [], asked := [], locked := []
              fallback := false, lost := 0 } } (.drain a.plan a.expect))) ∧
          (all → ¬good → exec (gather frm a) s = .next (tell { t with lead := done arr } .abort))))) ∧
    (∀ frm : BitVec 8, l.running = true → l.fallback = false → l.asked = [] → frm ∈ s.domainOf → frm.toNat ∉ l.drained → comes frm .drained →
      ((∃ m ∈ s.domainOf, m ≠ frm ∧ m.toNat ∉ l.drained) →
        exec (.drained frm) s = .next { took frm .drained with lead := { l with drained := l.drained ++ [frm.toNat] } }) ∧
      ((∀ m ∈ s.domainOf, m ≠ frm → m.toNat ∈ l.drained) → ∃ t, exec (.drained frm) s = .next t ∧
        t.outbox = s.outbox ++ (List.range 64).map (upc 1 l.plan gen next) ∧ t.lead = { l with drained := l.drained ++ [frm.toNat] } ∧
        t.hbm = s.hbm)) ∧
    (∀ frm : BitVec 8, l.running = false → frm ∈ s.domainOf → comes frm .drained → exec (.drained frm) s = .next (took frm .drained)) ∧
    (∀ (k : BitVec 6) (pairs : List Byte), s.allDrained = true → k.toNat ∉ l.configured →
      let counted := fun (ev : Instr) (u : Leader) =>
        (u.configured.length < 63 → exec ev s = .next { s with lead := { u with configured := u.configured ++ [k.toNat] } }) ∧
        (u.configured.length = 63 → exec ev s = .next (tell { s with lead := { u with configured := u.configured ++ [k.toNat] } }
          (.relock u.fallback u.lost)))
      let resent := fun (ev : Instr) (u : Leader) (typ : BitVec 8) => ∃ t, exec ev s = .next t ∧ t.lead = u ∧ t.hbm = s.hbm ∧
        t.outbox = s.outbox ++ [upc typ plan gen next k.toNat] ∧ Maps.getD t.upcSeq k.toNat 0 = next k.toNat
      (k.toNat ∉ l.asked →
        counted (.configured k ⟨now k.toNat, 0, pairs⟩) l ∧
        (∀ result, result ≠ 0 → resent (.configured k ⟨now k.toNat, result, pairs⟩) { l with asked := k.toNat :: l.asked } 3) ∧
        (∀ seq result, seq ≠ now k.toNat → exec (.configured k ⟨seq, result, pairs⟩) s = .next s) ∧
        exec (.upcRetransmit k) s = .next (s.emit (upc 1 plan gen now k.toNat))) ∧
      (k.toNat ∈ l.asked → l.asked.Nodup →
        let u := { l with asked := l.asked.erase k.toNat }
        counted (.upcStatus k ⟨now k.toNat, 0, s.planePairs plan k.toNat⟩) u ∧
        (∀ result, result ≠ 0 ∨ pairs ≠ s.planePairs plan k.toNat → resent (.upcStatus k ⟨now k.toNat, result, pairs⟩) u 1) ∧
        exec (.upcRetransmit k) s = .next (s.emit (upc 3 plan gen now k.toNat))) ∧
      (l.fallback = false → ∃ t, exec (.planeFallback k) s = .next t ∧ t.outbox = s.outbox ++ (List.range 64).map (upc 1 s.plan s.tgen next) ∧
        t.lead = { l with fallback := true, configured := [], asked := [] } ∧ t.hbm = s.hbm) ∧
      (l.fallback = true → counted (.planeFallback k) { l with lost := l.lost ||| 1#64 <<< k.toNat })) ∧
    (∀ frm : BitVec 8, l.configured.length = 64 → frm ∈ s.domainOf → frm.toNat ∉ l.locked → comes frm .locked →
      ((∃ m ∈ s.domainOf, m ≠ frm ∧ m.toNat ∉ l.locked) →
        exec (.locked frm) s = .next { took frm .locked with lead := { l with locked := l.locked ++ [frm.toNat] } }) ∧
      ((∀ m ∈ s.domainOf, m ≠ frm → m.toNat ∈ l.locked) →
        exec (.locked frm) s = .next (tell { took frm .locked with lead := done l.arrivals } (.go l.fallback)))) ∧
    (∀ frm : BitVec 8, s.boot.stage = 7 → s.leaderNo = s.modNo → frm ∈ s.domainOf →
      exec (.leaderPlanRequest frm) s = .next (s.emit (.domainMsg frm (.planReply s.tgen s.plan (Maps.getD s.plans s.plan.toNat []))))) ∧
    ∀ (gen : BitVec 32) (p : BitVec 4) (entries : List (Nat × BitVec 16)), s.boot.stage = 5 → s.boot.wantsPlan = true →
      let up := fun t : State => t.boot.stage = 7 ∧ t.boot.wantsPlan = false ∧ t.rollback &&& s.rollback = s.rollback ∧ t.hbm = s.hbm ∧
        t.flash = s.flash
      (∃ t, exec (.leaderPlanReply gen ⟨p, entries⟩) s = .next t ∧ up t ∧ t.tgen = gen ∧ t.plan = p ∧ ∀ (m : BitVec 8), ∀ k < 64,
        t.planEntry p m k = entries.foldl (fun e x => if x.1 = 64 * m.toNat + k then x.2 else e) 0) ∧
      ∃ t, exec .leaderUnreachableTimeout s = .next t ∧ up t ∧ t.tgen = 0 ∧ t.plan = 0

/-- A vector, tile or matrix command whose checks hold enters the dispatch queue of its core (R153, R156, R158, R163, R178, R179, R184, R185, R188, R189, R192, R259). For every command of majors 0x30 to 0x33 and 0x38 to 0x3A and ACCT: with a guard that holds, legal descriptors, every source vector tagged as the entry requires, every tile held with its type, pointers aligned, the destination of TST or ACCT translated, and fewer than four commands queued, exec answers the next state in which the command stands last in the core's queue and the strand waits for it with its registers and pc unchanged; nothing else changes. With four commands queued it does not issue: only the turn counts as unused. -/
def Obligations.CommandsIssue : Prop :=
  ∀ (o : XOp) (lit : Word) (s : State) (r : Nat) (st : Strand) (p : Place), s.issuing = some (r, st) → st.guardOk o.gd = true →
    let c := s.core st.home
    let mf := o.fmt == 0xB
    let want : BitVec 8 := BitVec.ofNat 8 (16 * o.fmt.toNat + if mf then o.fd.toNat else 0)
    let desc := !mf || descOk (st.desc o.fd)
    let class_ := fun n : BitVec 4 => (st.tag (low3 n)).toNat / 16
    let tagged := fun (n : BitVec 4) (t : BitVec 8) => st.tag (low3 n) == t && class_ n != 0
    let own := fun l : List (BitVec 4) => desc && l.all fun n => tagged n want
    let legal := fun n : BitVec 4 => class_ n != 0 && (class_ n != 11 || descOk (st.desc ((st.tag (low3 n)).extractLsb' 0 3)))
    let width := fun k : Nat => [0, 4, 4, 8, 8, 16, 32].getD k 0
    let int := decide (1 ≤ o.fmt.toNat ∧ o.fmt.toNat ≤ 6)
    let held := fun (n : BitVec 4) (isInt : Bool) => (st.tile (low3 n)).any fun t => t.isInt == isInt
    let i32 := o.fmt == 6
    let tileTag : BitVec 8 := o.fmt ++ 0#4
    let off := fun n : BitVec 4 => (st.reg n).toNat % 4096
    let da := st.desc o.fd
    let db := st.desc (o.imm6.extractLsb' 0 3)
    let pair := !mf || (descOk da && descOk db && (descFmt da).container == (descFmt db).container)
    let run := scaleRun (descFmt da).container da
    let go := fun perm h => decide (s.xlate (coreCluster st.home) true h perm = .ok p)
    ∀ x ∈ ([(.vadd o, own [o.ra, o.rb], none), (.vsub o, own [o.ra, o.rb], none), (.vmul o, own [o.ra, o.rb], none),
        (.vfma o, own [o.ra, o.rb, o.rc], none), (.vfms o, own [o.ra, o.rb, o.rc], none), (.vmin o, own [o.ra, o.rb], none),
        (.vmax o, own [o.ra, o.rb], none), (.vabs o, own [o.ra], none), (.vneg o, own [o.ra], none), (.vand o, own [o.ra, o.rb], none),
        (.vor o, own [o.ra, o.rb], none), (.vxor o, own [o.ra, o.rb], none), (.vshl o, own [o.ra, o.rb], none),
        (.vshr o, own [o.ra, o.rb], none), (.vsra o, own [o.ra, o.rb], none), (.vcvt o, desc && legal o.ra, none),
        (.vscl o, own [o.ra] && tagged o.rb 0x40, none), (.vrcp o, own [o.ra], none), (.vrsq o, own [o.ra], none),
        (.vexp2 o, own [o.ra], none), (.vlog2 o, own [o.ra], none), (.vtanh o, own [o.ra], none), (.vred o, own [o.ra], none),
        (.vcmp o, own [o.ra, o.rb], none), (.vsel o, own [o.ra, o.rb], none), (.vperm o, own [o.ra] && tagged o.rb 0x40, none),
        (.vbcast o, desc, none), (.vins o, own [o.rd], none), (.vext o, own [o.ra], none), (.viota o, desc, none), (.vzero o, desc, none),
        (.vtag o, desc && legal o.ra, none),
        (.vpack o, int && decide (1 ≤ class_ o.ra ∧ class_ o.ra ≤ 6) && width (class_ o.ra) == 2 * width o.fmt.toNat
          && tagged o.rb (st.tag (low3 o.ra)), none),
        (.vunpk o, int && decide (1 ≤ class_ o.ra ∧ class_ o.ra ≤ 6) && width (class_ o.ra) == width o.fmt.toNat / 2, none),
        (.vbcastLiteral o lit, desc, none),
        (.tacq o, true, none), (.trel o, true, none), (.tzero o, true, none), (.taddr o, held o.rd i32 && tagged o.ra tileTag, none),
        (.taddc o, held o.rd i32 && tagged o.ra tileTag, none), (.tscl o, held o.rd i32 && tagged o.ra tileTag, none),
        (.texpr o, held o.rd i32 && tagged o.ra tileTag, none), (.twrv o, held o.rd i32 && tagged o.ra tileTag, none),
        (.tmaxr o, held o.ra i32, none), (.tsumr o, held o.ra i32, none), (.trdv o, held o.ra i32, none),
        (.tld o, (st.tile (low3 o.rd)).isSome && off o.ra == 0, none),
        (.mma o, held o.rd false && pair && off o.ra == 0 && off o.rb == 0, none),
        (.mmai o, held o.rd true && pair && off o.ra == 0 && off o.rb == 0, none),
        (.mmas o, held o.rd false && pair && (!mf || (descScale da != 0 && descScale da == descScale db)) && off o.ra == 0 && off o.rb == 0
          && off o.rc % run == 0 && off o.re % run == 0, none),
        (.topk o, (st.tile (low3 o.rd)).any fun t => held o.ra t.isInt, none),
        (.topkm o, (st.tile (low3 o.rd)).any fun t => held o.ra t.isInt, none),
        (.tst o, desc && (st.tile (low3 o.rd)).isSome && decide (off o.ra < 128) && off o.ra % (4 * (st.elem o).w) == 0
          && go 2 (st.reg o.ra), some p),
        (.acct o, held o.rd i32 && decide ((Handle.off (st.ea o 4096).h).toNat % 4096 = 0) && go 4 (st.ea o 4096).h, some p)] :
        List (Instr × Bool × Option Place)), x.2.1 = true →
      (c.cmdq.length < 4 → exec x.1 s = .next ((s.setCore st.home { c with cmdq := c.cmdq ++ [r] }).setStrand r
        { st with wait := .command x.1 false [] x.2.2 })) ∧
      (4 ≤ c.cmdq.length → exec x.1 s = .next (s.setCore st.home { c with perf0 := c.perf0 - 1, perf1 := c.perf1 + 1 }))

/-- A source that is EMPTY or tagged otherwise, a descriptor that is not legal, and a tile not held are traps (R153, R135, R178). For VADD and the other vector commands that read vA under the tag of their own format (no MF): an EMPTY source raises TAGEMPTY with its number, one tagged with another class than MF raises TAGMIS with both tags; a descriptor that breaks its rules raises TAGMIS with the descriptor. A tile instruction on a tile that is not held raises TILE with reason 1, on a tile of the other type with reason 5, whatever the tag of its source vector. That TWRV checks its tile before the tag of its source is the model's choice (log entry 73): the rules give its two traps in no order. -/
def Obligations.TagTraps : Prop :=
  ∀ (o : XOp) (s : State) (r : Nat) (st : Strand), s.issuing = some (r, st) → st.guardOk o.gd = true →
    let v := low3 o.ra
    let t := st.tag v
    (∀ i ∈ ([.vadd o, .vsub o, .vmul o, .vfma o, .vfms o, .vmin o, .vmax o, .vabs o, .vneg o, .vand o, .vor o, .vxor o, .vshl o, .vshr o,
        .vsra o, .vrcp o, .vrsq o, .vexp2 o, .vlog2 o, .vtanh o, .vred o, .vcmp o, .vsel o, .vext o] : List Instr),
      (o.fmt ≠ 0xB → (∀ n, (st.tag n).toNat / 16 ≠ 11) → t.toNat / 16 = 0 → exec i s = .next (s.raise r 7 (BitVec.ofNat 64 v.toNat))) ∧
      (o.fmt ≠ 0xB → (∀ n, (st.tag n).toNat / 16 ≠ 11) → t.toNat / 16 ≠ 0 → t.toNat ≠ 16 * o.fmt.toNat →
        exec i s = .next (s.raise r 6 (BitVec.ofNat 64 (2 ^ 63 + 2 ^ 16 * v.toNat + 2 ^ 8 * (16 * o.fmt.toNat) + t.toNat)))) ∧
      (o.fmt = 0xB → descOk (st.desc o.fd) = false →
        exec i s = .next (s.raise r 6 (BitVec.ofNat 64 (2 ^ 32 * o.fd.toNat + (st.desc o.fd).toNat))))) ∧
    ∀ x ∈ ([(.taddr o, o.rd), (.taddc o, o.rd), (.tscl o, o.rd), (.texpr o, o.rd), (.twrv o, o.rd), (.tmaxr o, o.ra), (.tsumr o, o.ra),
        (.trdv o, o.ra), (.acct o, o.rd)] : List (Instr × BitVec 4)),
      (st.tile (low3 x.2) = none → exec x.1 s = .next (s.raise r 11 (BitVec.ofNat 64 (x.2.toNat % 8 + 2 ^ 8)))) ∧
      ∀ y, st.tile (low3 x.2) = some y → y.isInt ≠ (o.fmt == 6) → exec x.1 s = .next (s.raise r 11 (BitVec.ofNat 64 (x.2.toNat % 8 + 5 * 2 ^ 8)))

/-- The two arbiters of an Anvil take the first core after their pointer whose head is of their class (R157, R159, R177, R180, R184, R186, R187). With every queued command's Tongs started, the Anvil not under a self-test, and a core whose head command has its operands while no core before it in the circular order after the pointer has one of that class: VECTOR_DISPATCH dispatches a vector command (TACQ is granted a tile reserved for its node, else a free one; TREL gives its tile back, to the reservation while the node lives), MATRIX_DISPATCH a matrix one while fewer than two run and the grant's budget is not spent; the pointer is the core's number. When the budget is spent only perf3 counts. TACQ without a tile to be had, or with the tile held or seven held, and TREL and TZERO of a tile not held, raise TILE with their reason. (The model's choices: perf3 gains one for each attempt, log entry 63; at most two matrix commands in the array, and tiles taken and given back at the dispatch, log entry 50.) -/
def Obligations.CommandsDispatch : Prop :=
  ∀ (s : State) (a : BitVec 11) (n : Fin 4) (r : Nat) (st : Strand) (i : Instr) (pins : List Pin) (d : Option Place) (q : List Nat),
    let v := s.anvil a
    let at_ := fun (p : BitVec 2) (m : Nat) => (a ++ (p + 1 + BitVec.ofNat 2 m) : BitVec 13)
    let first := fun (mx : Bool) (p : BitVec 2) => (s.core (at_ p n.val)).cmdq = r :: q ∧ ∀ m < n.val, s.headOf mx (at_ p m) = none
    let mx : Bool := match i with | .mma _ => true | .mmas _ => true | .mmai _ => true | .topk _ => true | .topkm _ => true | _ => false
    let p := if mx then v.mptr else v.vptr
    let k := at_ p n.val
    let gone := s.setCore k { s.core k with cmdq := (s.core k).cmdq.filter (· != r) }
    let dis : Strand := { st with wait := .command i true pins d }
    let t := gone.setStrand r dis
    let num := p + 1 + BitVec.ofNat 2 n.val
    s.tongsQuad a = s → s.fencedAnvil a = false → first mx p → s.strand r = some st → st.wait = .command i false pins d →
    pins.all Pin.isData = true → pins.length = (tongsHandles st i).length →
    (mx = true → v.array.length < 2 → v.spent < (s.die (clusterDie (anvilCluster a))).budget → exec (.matrixDispatch a) s = .next
      (t.setAnvil a { v with mptr := num, array := v.array ++ [r], spent := v.spent + 1, perf2 := v.perf2 + 1 })) ∧
    (mx = true → v.array.length < 2 → (s.die (clusterDie (anvilCluster a))).budget ≤ v.spent →
      exec (.matrixDispatch a) s = .next (s.setAnvil a { v with perf3 := v.perf3 + 1 })) ∧
    (mx = false → (∀ o, i ≠ .tacq o ∧ i ≠ .trel o ∧ i ≠ .tzero o) →
      exec (.vectorDispatch a) s = .next (t.setAnvil a { v with vptr := num, lanes := v.lanes ++ [r] })) ∧
    (∀ o, i = .tzero o → (st.tile (low3 o.rd)).isSome = true →
      exec (.vectorDispatch a) s = .next (t.setAnvil a { v with vptr := num, lanes := v.lanes ++ [r] })) ∧
    (∀ o, i = .tacq o → st.tile (low3 o.rd) = none → st.tcnt < 7 →
      (∃ j : Fin 16, v.tiles[j] = .free ∨ v.tiles[j] = .reserved st.node) → ∃ (j : Fin 16) (res : Bool),
        (if res then v.tiles[j] = .reserved st.node else v.tiles[j] = .free ∧ ∀ m : Fin 16, v.tiles[m] ≠ .reserved st.node) ∧
        let x : Tile := { isInt := o.fmt == 6, phys := BitVec.ofNat 4 j.val, reserved := res, data := 0 }
        exec (.vectorDispatch a) s = .next ((gone.setStrand r { dis with tiles := st.tiles.set (low3 o.rd).toNat (some x) (low3 o.rd).isLt }).setAnvil a
          { v with vptr := num, lanes := v.lanes ++ [r], tiles := v.tiles.set j (.held r (if res then some st.node else none)) })) ∧
    (∀ o x w, i = .trel o → st.tile (low3 o.rd) = some x → v.tiles[x.phys.toNat]'(x.phys.isLt) = .held r w →
      let back : TileUse := match w with
        | some z => if (s.node z).isSome then .reserved z else .free
        | none => .free
      exec (.vectorDispatch a) s = .next ((gone.setStrand r { dis with tiles := st.tiles.set (low3 o.rd).toNat none (low3 o.rd).isLt }).setAnvil a
        { v with vptr := num, lanes := v.lanes ++ [r], tiles := v.tiles.set x.phys.toNat back x.phys.isLt })) ∧
    ∀ o reason, (i = .tacq o ∧ (reason = 2 ∧ (st.tile (low3 o.rd)).isSome = true ∨ reason = 3 ∧ st.tile (low3 o.rd) = none ∧ 7 ≤ st.tcnt ∨
        reason = 4 ∧ st.tile (low3 o.rd) = none ∧ st.tcnt < 7 ∧ ∀ j : Fin 16, v.tiles[j] ≠ .free ∧ v.tiles[j] ≠ .reserved st.node)) ∨
        ((i = .trel o ∨ i = .tzero o) ∧ reason = 1 ∧ st.tile (low3 o.rd) = none) →
      exec (.vectorDispatch a) s = .next ((t.setAnvil a { v with vptr := num }).raise r 11 (BitVec.ofNat 64 ((low3 o.rd).toNat + 2 ^ 8 * reason)))

/-- A reply to the Tongs pins its operand, or withdraws the command and traps or parks its strand (R179, R181, R182, R368). For a reply to a request of the Tongs that still stands: data pins the operand, and every operand of the same block, and nothing else of the strand changes while no operand's reply decides; STALE, POISON and a parked read, with every earlier operand pinned and none of the same block before, take the command out of its core's queue, abandon its requests, and raise STALE or POISON with the operand's handle, or leave the strand parked on the block; a report that there is no block sends the record to the fault queue. A reply to a request that is abandoned is dropped. -/
def Obligations.TongsReplies : Prop :=
  ∀ (s : State) (m r i : Nat) (st : Strand) (q : Op) (x : Reply) (c : Instr) (pins : List Pin) (d : Option Place),
    let hs := tongsHandles st c
    let block := fun h : Word => h.toNat / 4096
    let stands := (Maps.getD s.units q.unit []).any fun z => z.seq == q.seq && z.asker == q.asker
    let s1 := (s.take m).unack q.unit q.seq
    let core := s.core st.home
    let off := (s1.setCore st.home { core with cmdq := core.cmdq.filter (· != r) }).abandon r
    Maps.get s.net m = some (.reply q x) → q.asker = .tongs r i →
    (stands = false → exec (.tongsOperandReply m) s = .next s1) ∧
    (stands = true → s.strand r = some st → st.wait = .command c false pins d → pins.length = hs.length → i < hs.length →
      (∀ z pw bits, x = .data z pw bits → (∀ y ∈ pins, y.isData = true ∨ y = .waiting) → 
        let now := (hs.zip pins).map fun y => if block y.1 = block (hs.getD i 0) then .data z else y.2
        ∃ t, exec (.tongsOperandReply m) s = .next t ∧ t.strand r = some { st with wait := .command c false now d } ∧
        (∀ w, w ≠ r → t.strand w = s.strand w) ∧ t.cores = s.cores ∧ t.hbm = s.hbm ∧ t.units = s1.units) ∧
      ((pins.take i).all Pin.isData = true → (∀ j < i, block (hs.getD j 0) ≠ block (hs.getD i 0)) →
        let out := off.setStrand r { st with wait := .run }
        (x = .stale → exec (.tongsOperandReply m) s = .next (out.raise r 8 (hs.getD i 0))) ∧
        (x = .poison → exec (.tongsOperandReply m) s = .next (out.raise r 17 (hs.getD i 0))) ∧
        (∀ cause, x = .report 0 cause → exec (.tongsOperandReply m) s = .next (off.setStrand r { st with wait := .parked q.place q.h })) ∧
        (∀ bits cause, bits ≠ 0 → x = .report bits cause → exec (.tongsOperandReply m) s =
          .next (out.toFaultQueue r (hs.getD i 0) (.perm 1)))))

/-- The result of a lane-wise vector command is its lane formula in the active lanes (R158, R161, R163, R164, R165, R167, R168, R171, R172, R174, R143). For a dispatched command of a strand that no loss and no self-test drives from its core, VADD to VTANH, VSEL, VBCAST, VINS, VIOTA, VZERO with a format, VPACK or VUNPK, VECTOR_RESULT answers the next state in which each active lane of vD holds the formula's code and each other lane its old bits; vD carries the tag of the format, FFLAGS gains the flags of the active lanes, the pc is past the instruction, the strand runs and the command has left the Anvil; nothing else changes. Integer arithmetic is exact and wraps, or with .s clamps and raises overflow; logic and shifts act on the bits of a lane; float arithmetic rounds the exact result once. VAND, VOR, VXOR and VSEL write an MF lane with zero above its code. (The model's choices: VMIN and VMAX take a flushed MF code as the zero, and zero above the code of a lane that R165 or R171 only combines or copies: log entry 69; special functions: log entry 20; one rounding function: log entry 28.) -/
def Obligations.VectorLaneResults : Prop :=
  ∀ (o : XOp) (lit : Word) (s : State) (rec : Nat) (st : Strand) (pins : List Pin) (d : Option Place), s.strand rec = some st → s.stays st →
    let e := st.elem o
    let w := e.w
    let mode := if o.rm = 0 then st.rmode else o.rm.extractLsb' 0 2
    let active := fun l => !o.lme || (st.reg (0#1 ++ o.lmr)).getLsbD (if w = 8 then l / 2 else if w = 4 then l / 4 else l)
    let bits := fun (n : BitVec 4) (l : Nat) => ((st.vec (low3 n)).extractLsb' (w * l) w : BitVec w)
    let free := { s with anvils := Maps.map s.anvils fun _ v =>
      { v with lanes := v.lanes.filter (· != rec), array := v.array.filter (· != rec) } }
    let val := fun (g : Bool) (n : BitVec 4) (l : Nat) => if g then (bits n l).toInt else ((bits n l).toNat : Int)
    let narrow := fun (g : Bool) (x : Int) =>
      let lo : Int := if g then -(2 ^ (w - 1)) else 0
      let hi : Int := if g then 2 ^ (w - 1) - 1 else 2 ^ w - 1
      let y := if o.mod.getLsbD 0 then max lo (min hi x) else x
      (BitVec.ofInt w y, if y = x then (0 : BitVec 5) else 4)
    let num := fun (f : FloatFmt) (n : BitVec 4) (l : Nat) => f.decode (bits n l).toNat
    let rnd := fun (f : FloatFmt) (x : Machine.Num × BitVec 5) => (BitVec.ofNat w (roundTo f mode x).1, (roundTo f mode x).2)
    let arith := fun (int : Int → Int → Int → Int) (flt : Machine.Num → Machine.Num → Machine.Num → Machine.Num × BitVec 5) (l : Nat) => match e with
      | .int g _ => narrow g (int (val g o.ra l) (val g o.rb l) (val g o.rc l))
      | .flt f _ => rnd f (flt (num f o.ra l) (num f o.rb l) (num f o.rc l))
    let mm := fun (max? : Bool) (l : Nat) => match e with
      | .int g _ => (if (if max? then val g o.ra l < val g o.rb l else val g o.rb l < val g o.ra l) then bits o.rb l else bits o.ra l, (0 : BitVec 5))
      | .flt f _ => (BitVec.ofNat w (minMax f max? (f.plain (bits o.ra l).toNat) (f.plain (bits o.rb l).toNat)).1,
          (minMax f max? (f.plain (bits o.ra l).toNat) (f.plain (bits o.rb l).toNat)).2)
    let plain := fun (x : BitVec w) => (x, (0 : BitVec 5))
    let special := fun (fn : Machine.Num → Machine.Num × BitVec 5) (l : Nat) => match e with
      | .int _ _ => plain 0
      | .flt f _ => rnd f (fn (num f o.ra l))
    let codeOf := fun x : Word => match e with | .int _ _ => BitVec.ofNat w x.toNat | .flt f _ => BitVec.ofNat w (x.toNat % 2 ^ f.bits)
    let clean := fun x : BitVec w => plain (match e with | .int _ _ => x | .flt f _ => BitVec.ofNat w (x.toNat % 2 ^ f.bits))
    ∀ x ∈ ([(.vadd o, 12, arith (fun a b _ => a + b) fun a b _ => a.add mode b),
        (.vsub o, 12, arith (fun a b _ => a - b) fun a b _ => a.add mode b.negate),
        (.vmul o, 12, arith (fun a b _ => a * b) fun a b _ => a.mul b),
        (.vfma o, 12, arith (fun a b c => a * b + c) fun a b c => a.fma mode b c),
        (.vfms o, 12, arith (fun a b c => a * b - c) fun a b c => a.fma mode b c.negate),
        (.vmin o, 12, mm false), (.vmax o, 12, mm true),
        (.vabs o, 12, fun (l : Nat) => match e with
          | .int g _ => narrow g |val g o.ra l|
          | .flt f _ => plain (BitVec.ofNat w ((bits o.ra l).toNat % 2 ^ (f.e + f.m)))),
        (.vneg o, 12, fun (l : Nat) => match e with
          | .int g _ => narrow g (-(val g o.ra l))
          | .flt f _ => if f.sgn then plain (BitVec.ofNat w ((bits o.ra l).toNat % 2 ^ f.bits) ^^^ BitVec.ofNat w (2 ^ (f.e + f.m)))
              else rnd f ((num f o.ra l).negate, sigFlag (num f o.ra l))),
        (.vand o, 12, fun l => clean (bits o.ra l &&& bits o.rb l)), (.vor o, 12, fun l => clean (bits o.ra l ||| bits o.rb l)),
        (.vxor o, 12, fun l => clean (bits o.ra l ^^^ bits o.rb l)), (.vshl o, 12, fun l => plain (bits o.ra l <<< (bits o.rb l).toNat)),
        (.vshr o, 12, fun l => plain (bits o.ra l >>> (bits o.rb l).toNat)),
        (.vsra o, 12, fun l => plain ((bits o.ra l).sshiftRight (bits o.rb l).toNat)),
        (.vscl o, 12, fun (l : Nat) => match e with
          | .int _ _ => plain 0
          | .flt f _ =>
            let c := ((st.vec (low3 o.rb)).toNat / 2 ^ (8 * (l / (if o.imm6.toNat % 4 = 0 then 32 else if o.imm6.toNat % 4 = 1 then 16 else 1) % 128))) % 256
            if c = 255 then rnd f (.nan false, 1)
            else rnd f ((num f o.ra l).scale (if o.imm6.getLsbD 5 then 127 - (c : Int) else c - 127), sigFlag (num f o.ra l))),
        (.vrcp o, 12, special Machine.Num.recip), (.vrsq o, 12, special Machine.Num.rsqrt), (.vexp2 o, 12, special Machine.Num.exp2), (.vlog2 o, 12, special Machine.Num.log2),
        (.vtanh o, 12, special Machine.Num.tanh),
        (.vsel o, 12, fun l => clean (if (st.reg o.re).getLsbD (if w = 8 then l / 2 else if w = 4 then l / 4 else l) then bits o.ra l else bits o.rb l)),
        (.vbcast o, 12, fun _ => plain (codeOf (st.reg o.ra))), (.vbcastLiteral o lit, 20, fun _ => plain (codeOf lit)),
        (.vins o, 12, fun l => plain (if l = (st.reg o.rb).toNat % (1024 / w) then codeOf (st.reg o.ra) else bits o.rd l)),
        (.viota o, 12, fun l => plain (BitVec.ofNat w ((st.reg o.ra).toNat + l))),
        (.vpack o, 12, fun l => plain (BitVec.ofNat w
          ((st.vec (low3 (if l < 1024 / (2 * w) then o.ra else o.rb))).toNat / 2 ^ (2 * w * (l % (1024 / (2 * w))))))),
        (.vunpk o, 12, fun l => match st.srcElem (low3 o.ra) with
          | .int g v =>
            let c := ((st.vec (low3 o.ra)).extractLsb' (v * (1024 / w * (o.imm6.toNat % 2) + l)) v : BitVec v)
            plain (BitVec.ofInt w (if g then c.toInt else (c.toNat : Int)))
          | .flt _ _ => plain 0)] : List (Instr × Nat × (Nat → BitVec w × BitVec 5))) ++
        (if o.fmt = 0 then [] else [(.vzero o, 12, fun _ => plain 0)] : List (Instr × Nat × (Nat → BitVec w × BitVec 5))),
      st.wait = .command x.1 true pins d → ∃ v : Vec,
        (∀ l < 1024 / w, (v.extractLsb' (w * l) w : BitVec w) = if active l then (x.2.2 l).1 else bits o.rd l) ∧
        exec (.vectorResult rec) s = .next (free.setStrand rec { st with
          vecs := st.vecs.set (low3 o.rd).toNat v (low3 o.rd).isLt
          tags := st.tags.set (low3 o.rd).toNat (o.fmt ++ (0#1 ++ (if o.fmt = 0xB then o.fd else 0))) (low3 o.rd).isLt
          fflags := st.fflags ||| (List.range (1024 / w)).foldl (fun a l => if active l then a ||| (x.2.2 l).2 else a) 0
          pc := st.pc + BitVec.ofNat 32 x.2.1, wait := .run })

/-- VCVT, VRED, VCMP, VPERM, VEXT, VZERO, VTAG and VSETT write what their rules say (R158, R162, R166, R169, R170, R172, R173, R175, R83). (The strand is driven from its core by no loss and no self-test.) VECTOR_RESULT of VCVT converts lane by lane between the formats of the tag and the instruction, the part of imm6 choosing the lanes where their numbers differ; VRED leaves the reduction of the active lanes in lane 0 and zero above (sum, greatest, least, or bitwise or of integers; a float extreme by the rule of FMAX and FMIN, invalid for a signalling NaN); VCMP writes gD with one bit per active lane for which the condition holds, false with a NaN but for not-equal and unordered, and sets invalid for a signalling NaN, in conditions 2 to 5 for any; VPERM moves units of at least 8 bits; a lane that VCVT copies between equal formats or VPERM moves is written, of MF, with zero above the code; VEXT writes gD with one lane, an integer one sign- or zero-extended, of MF the code bits alone; VZERO without a format makes vD zero and EMPTY; VTAG copies the bits under the format's tag. VSETT, in the core, moves a descriptor to or from a g register, with its guard. Nothing else changes. (The model's choices: VCVT into a wider unsigned format, log entry 48; zero above the code of a copied MF lane, log entry 69; a VRED add with no active lane, log entry 77; one rounding function, log entry 28.) -/
def Obligations.VectorOtherResults : Prop :=
  ∀ (o : XOp) (s : State) (rec : Nat) (st : Strand) (pins : List Pin) (d : Option Place), s.strand rec = some st → s.stays st →
    let e := st.elem o
    let w := e.w
    let u := max w 8
    let mode := if o.rm = 0 then st.rmode else o.rm.extractLsb' 0 2
    let active := fun l => !o.lme || (st.reg (0#1 ++ o.lmr)).getLsbD (if w = 8 then l / 2 else if w = 4 then l / 4 else l)
    let bits := fun (n : BitVec 4) (x l : Nat) => (st.vec (low3 n)).toNat / 2 ^ (x * l) % 2 ^ x
    let free := { s with anvils := Maps.map s.anvils fun _ v =>
      { v with lanes := v.lanes.filter (· != rec), array := v.array.filter (· != rec) } }
    let ran : Strand := { st with pc := st.pc + 12, wait := .run }
    let vec := fun (v : Vec) (f : BitVec 5) => exec (.vectorResult rec) s = .next (free.setStrand rec { ran with
      vecs := st.vecs.set (low3 o.rd).toNat v (low3 o.rd).isLt, fflags := st.fflags ||| f
      tags := st.tags.set (low3 o.rd).toNat (o.fmt ++ (0#1 ++ (if o.fmt = 0xB then o.fd else 0))) (low3 o.rd).isLt })
    let gd := fun (v : Word) (f : BitVec 5) => exec (.vectorResult rec) s = .next (free.setStrand rec { ran with
      regs := st.regs.set o.rd.toNat v o.rd.isLt, fflags := st.fflags ||| f })
    let runs := fun i => st.wait = .command i true pins d
    let n := 1024 / w
    let ints := fun (g : Bool) => ((List.range n).filter active).map fun l => if g && decide (2 ^ (w - 1) ≤ bits o.ra w l) then
      (bits o.ra w l : Int) - 2 ^ w else bits o.ra w l
    let clean := fun c : Nat => match e with | .int _ _ => c | .flt f _ => c % 2 ^ f.bits
    let codes := ((List.range n).filter active).map (bits o.ra w)
    (runs (.vcvt o) →
      let src := st.srcElem (low3 o.ra)
      let m := 1024 / src.w
      let p := o.imm6.toNat % 8
      let from_ := if n ≤ m then p % (m / n) * n else 0
      let lo := if n ≤ m then 0 else p % (n / m) * m
      let conv := fun l => if st.tag (low3 o.ra) = o.fmt ++ (0#1 ++ (if o.fmt = 0xB then o.fd else 0)) then (clean (bits o.ra src.w (from_ + (l - lo))), 0)
        else src.convert e mode (bits o.ra src.w (from_ + (l - lo)))
      let hit := fun l => active l && decide (lo ≤ l ∧ l < lo + min n m)
      ∃ v, vec v ((List.range n).foldl (fun a l => if hit l then a ||| (conv l).2 else a) 0) ∧
        ∀ l < n, v.toNat / 2 ^ (w * l) % 2 ^ w = if hit l then (conv l).1 % 2 ^ w else bits o.rd w l) ∧
    (∀ g x, runs (.vred o) → e = .int g x →
      let lo : Int := if g then -(2 ^ (w - 1)) else 0
      let hi : Int := if g then 2 ^ (w - 1) - 1 else 2 ^ w - 1
      let total := (ints g).sum
      let put := fun y : Int => BitVec.ofNat 1024 (y % 2 ^ w).toNat
      (o.imm6 = 0 → vec (put (if o.mod.getLsbD 0 then max lo (min hi total) else total))
        (if o.mod.getLsbD 0 = true ∧ (total < lo ∨ hi < total) then 4 else 0)) ∧
      (o.imm6 = 1 → vec (put ((ints g).foldl max lo)) 0) ∧ (o.imm6 = 2 → vec (put ((ints g).foldl min hi)) 0) ∧
      (o.imm6 = 3 → vec (BitVec.ofNat 1024 (codes.foldl (fun a y => a ||| y) 0)) 0)) ∧
    (∀ f x, runs (.vred o) → e = .flt f x → o.imm6 = 0 →
      let r := sumNums mode (((List.range n).filter active).map fun l => f.decode (bits o.ra w l))
      let z := roundTo f mode (r.1, r.2 ||| if r.1.isNan then 1 else 0)
      vec (BitVec.ofNat 1024 (z.1 % 2 ^ w)) z.2) ∧
    (∀ f x, runs (.vred o) → e = .flt f x → o.imm6 = 1 ∨ o.imm6 = 2 →
      let hi := decide (o.imm6 = 1)
      let z := match codes with
        | [] => (f.round 0 (.inf hi)).1
        | y :: _ => codes.foldl (fun a y => (minMax f hi (f.plain a) (f.plain y)).1) y
      vec (BitVec.ofNat 1024 (z % 2 ^ w)) (if codes.any fun y => (f.decode (f.plain y)).isSig then 1 else 0)) ∧
    (runs (.vcmp o) → ∃ v, gd v (match e with
        | .int _ _ => 0
        | .flt g _ => if (List.range n).any fun l => active l &&
            (let a := g.decode (bits o.ra w l)
             let b := g.decode (bits o.rb w l)
             a.isSig || b.isSig || ((a.isNan || b.isNan) && decide (2 ≤ o.imm6.toNat ∧ o.imm6.toNat ≤ 5))) then 1 else 0) ∧ ∀ l < 64,
      (∀ g x, e = .int g x → v.getLsbD l = (decide (l < n) && active l &&
        (let c := fun k => if g && decide (2 ^ (w - 1) ≤ bits k w l) then (bits k w l : Int) - 2 ^ w else bits k w l
         match o.imm6.toNat with
         | 0 => decide (c o.ra = c o.rb)
         | 1 => decide (c o.ra ≠ c o.rb)
         | 2 => decide (c o.ra < c o.rb)
         | 3 => decide (c o.ra ≤ c o.rb)
         | 4 => decide (c o.ra > c o.rb)
         | _ => decide (c o.ra ≥ c o.rb)))) ∧
      ∀ g x, e = .flt g x → v.getLsbD l = (decide (l < n) && active l &&
        (let a := g.decode (bits o.ra w l)
         let b := g.decode (bits o.rb w l)
         let un := a.isNan || b.isNan
         match o.imm6.toNat with
         | 0 => !un && !a.lt b && !b.lt a
         | 1 => un || a.lt b || b.lt a
         | 2 => !un && a.lt b
         | 3 => !un && !b.lt a
         | 4 => !un && b.lt a
         | 5 => !un && !a.lt b
         | _ => un))) ∧
    (runs (.vperm o) → ∃ v, vec v 0 ∧ ∀ l < n, v.toNat / 2 ^ (w * l) % 2 ^ w =
      let k := u / w
      if active (l / k * k) then clean (bits o.ra w (bits o.rb 8 (l / k) % (1024 / u) * k + l % k)) % 2 ^ w else bits o.rd w l) ∧
    (runs (.vext o) →
      let c := bits o.ra w ((st.reg o.rb).toNat % n)
      gd (match e with
        | .int true _ => if 2 ^ (w - 1) ≤ c then BitVec.ofInt 64 ((c : Int) - 2 ^ w) else BitVec.ofNat 64 c
        | .int false _ => BitVec.ofNat 64 c
        | .flt f _ => BitVec.ofNat 64 (c % 2 ^ f.bits)) 0) ∧
    (runs (.vzero o) → o.fmt = 0 → exec (.vectorResult rec) s = .next (free.setStrand rec { ran with
      vecs := st.vecs.set (low3 o.rd).toNat 0 (low3 o.rd).isLt, tags := st.tags.set (low3 o.rd).toNat 0 (low3 o.rd).isLt })) ∧
    (runs (.vtag o) → vec (st.vec (low3 o.ra)) 0) ∧
    (s.issuing = some (rec, st) → st.guardOk o.gd = true →
      exec (.vsettToDescriptor o) s = .next (s.setStrand rec { st with
        fd := st.fd.set (low3 o.rd).toNat (BitVec.ofNat 32 (st.reg o.ra).toNat) (low3 o.rd).isLt, pc := st.pc + 12 }) ∧
      exec (.vsettFromDescriptor o) s = .next (s.setStrand rec { st with
        regs := st.regs.set o.rd.toNat (BitVec.ofNat 64 (st.desc (low3 o.ra)).toNat) o.rd.isLt, pc := st.pc + 12 }))

/-- The result of a tile or matrix command (R184, R185, R186, R188, R189, R190, R191, R192, R193, R259, R145, R146). For a dispatched command on held tiles, of a strand that no loss and no self-test drives from its core: TADDR, TADDC, TSCL, TEXPR and TWRV leave their formula in every element of aD; TMAXR, TSUMR and TRDV write the 32 lanes of vD; TZERO clears aD or fills it with the empty top-k state; TLD puts the pinned block into aD; MMAI adds the exact integer products to each element modulo 2^32; MMA and MMAS add the array's chains; TOPK and TOPKM merge row by row; TACQ and TREL only complete. FFLAGS gains the flags of every element, pointers with post-increment advance once, the pc moves on and the strand runs. TST posts 32 writes, one a row, and ACCT posts one accumulation of 4,096 bytes, when the core has room for them at the home. (The model's choices: one rounding function, log entry 28; a NaN score in the state tile, log entry 21; a pointer that stands in an operand and in a scale field advances by 4,096, log entry 49; TEXPR's function, log entry 20; the sign of an exact zero sum, log entry 51.) -/
def Obligations.TileResults : Prop :=
  ∀ (o : XOp) (s : State) (rec : Nat) (st : Strand) (pins : List Pin) (d : Option Place), s.strand rec = some st → s.stays st →
    let mode := if o.rm = 0 then st.rmode else o.rm.extractLsb' 0 2
    let int := o.fmt == 6
    let free := { s with anvils := Maps.map s.anvils fun _ v =>
      { v with lanes := v.lanes.filter (· != rec), array := v.array.filter (· != rec) } }
    let ran : Strand := { st with pc := st.pc + 12, wait := .run }
    let tile := fun (n : BitVec 4) (k : Nat) => ((st.tileData (low3 n)).extractLsb' (32 * k) 32 : BitVec 32)
    let v := fun k => ((st.vec (low3 o.ra)).extractLsb' (32 * k) 32 : BitVec 32)
    let rnd := fun x : Machine.Num × BitVec 5 => (BitVec.ofNat 32 (roundTo fmtF32 mode x).1, (roundTo fmtF32 mode x).2)
    let add := fun x y : BitVec 32 => if int then (x + y, 0) else rnd ((f32 x).add mode (f32 y))
    let n := (st.reg o.rb).toNat % 32
    let col := o.imm6.getLsbD 0
    let next := fun (p : BitVec 4 → Word) (p' : BitVec 4) => if o.am = 2 then padd49 (p p') 4096 else p p'
    let pay := fun k => match pins.getD k .waiting with | .data z => z | _ => 0
    let put := fun (ev : Instr) (t : Tile) (z : Payload) (f : BitVec 5) (g : Vector Word 16) => exec ev s = .next (free.setStrand rec { ran with
      tiles := st.tiles.set (low3 o.rd).toNat (some { t with data := z }) (low3 o.rd).isLt, fflags := st.fflags ||| f, regs := g })
    let runs := fun i => st.wait = .command i true pins d
    (∀ t, st.tile (low3 o.rd) = some t →
      (∀ x ∈ ([(.taddr o, fun i j => add (tile o.rd (32 * i + j)) (v j)), (.taddc o, fun i j => add (tile o.rd (32 * i + j)) (v i)),
          (.tscl o, fun i j => rnd ((f32 (tile o.rd (32 * i + j))).mul (f32 (v (if col then j else i))))),
          (.texpr o, fun i j =>
            let y := (f32 (tile o.rd (32 * i + j))).add mode (f32 (v i)).negate
            rnd (y.1.exp2.1, y.2 ||| y.1.exp2.2)),
          (.twrv o, fun i j => (if col then (if j = n then v i else tile o.rd (32 * i + j)) else if i = n then v j else tile o.rd (32 * i + j), 0))] :
          List (Instr × (Nat → Nat → BitVec 32 × BitVec 5))), runs x.1 → ∃ z,
        put (.vectorResult rec) t z ((List.range 1024).foldl (fun a k => a ||| (x.2 (k / 32) (k % 32)).2) 0) st.regs ∧
        ∀ i < 32, ∀ j < 32, (z.extractLsb' (32 * (32 * i + j)) 32 : BitVec 32) = (x.2 i j).1) ∧
      (runs (.tzero o) → o.imm6 = 0 → put (.vectorResult rec) t 0 0 st.regs) ∧
      (runs (.tzero o) → o.imm6 ≠ 0 → ∃ z, put (.vectorResult rec) t z 0 st.regs ∧ ∀ i < 32, ∀ j < 32,
        (z.extractLsb' (32 * (32 * i + j)) 32 : BitVec 32) = if 16 ≤ j then 0xFFFFFFFF else if t.isInt then
          (if o.imm6 = 2 then 0x7FFFFFFF else 0x80000000) else if o.imm6 = 2 then 0x7F800000 else 0xFF800000) ∧
      (runs (.tld o) → put (.vectorResult rec) t (pay 0) 0 (st.regs.set o.ra.toNat (next st.reg o.ra) o.ra.isLt)) ∧
      (∀ x ∈ ([.mma o, .mmas o, .mmai o] : List Instr), runs x →
        let a := st.elem o
        let b : Elem := if x = .mmai o then (if o.imm6 = 0 then a else elemOf (o.imm6.extractLsb' 0 4) 0)
          else if o.fmt = 0xB then elemOf 0xB (st.desc (o.imm6.extractLsb' 0 3)) else a
        let code := fun (p : Payload) (e : Elem) (i k : Nat) => p.toNat / 2 ^ (1024 * i + e.w * k) % 2 ^ e.w
        let row := fun (p : Payload) (e : Elem) (i : Nat) => (List.range (1024 / e.w)).map fun k => e.num (code p e i k)
        let g := if descScale (st.desc o.fd) = 2 then 16 else 32
        let per := 1024 / a.w / g
        let scale := fun (m : Nat) (h : Word) (i q : Nat) => scaleExp ((pay m).toNat / 2 ^ (8 * (h.toNat % 4096 + i * per + q)) % 256)
        let elem := fun i j => if x = .mmai o then
            ((tile o.rd (32 * i + j) + BitVec.ofInt 32 (((List.range (min (1024 / a.w) (1024 / b.w))).map fun k => match a, b with
              | .int ga wa, .int gb wb => intOf ga wa (code (pay 0) a i k) * intOf gb wb (code (pay 1) b j k)
              | _, _ => 0).sum), 0) : BitVec 32 × BitVec 5)
          else if x = .mmas o then productGroups g (fun q => match scale 2 (st.reg o.rc) i q, scale 3 (st.reg o.re) j q with
              | some y, some z => some (y + z)
              | _, _ => none) (row (pay 0) a i) (row (pay 1) b j) (tile o.rd (32 * i + j))
          else if o.fmt = 0xB then productGroups 32 (fun _ => some 0) (row (pay 0) a i) (row (pay 1) b j) (tile o.rd (32 * i + j))
          else product16 (row (pay 0) a i) (row (pay 1) b j) (tile o.rd (32 * i + j))
        ∃ (z : Payload) (regs : Vector Word 16),
          put (.matrixResult rec) t z ((List.range 1024).foldl (fun f k => f ||| (elem (k / 32) (k % 32)).2) 0) regs ∧
          (∀ i < 32, ∀ j < 32, (z.extractLsb' (32 * (32 * i + j)) 32 : BitVec 32) = (elem i j).1) ∧
          ∀ m : BitVec 4, regs[m.toNat]'(m.isLt) = if o.am ≠ 2 then st.reg m else if m = o.ra ∨ m = o.rb then padd49 (st.reg m) 4096
            else if x = .mmas o ∧ (m = o.rc ∨ m = o.re) then padd49 (st.reg m) (BitVec.ofNat 64 (32 * per)) else st.reg m) ∧
      ∀ x ∈ ([.topk o, .topkm o] : List Instr), runs x →
        let base := (st.reg o.rb).toNat
        let rows := fun i => topRow t.isInt (o.imm6.getLsbD 4) (o.imm6.toNat % 16 + 1)
          ((List.range 16).map fun j => BitVec.ofNat 32 (Config.free 3 (1024 * s.tick + 32 * i + j)).toNat)
          ((List.range 32).map fun j => tile o.rd (32 * i + j))
          (if x = .topk o then (List.range 32).map fun j => (tile o.ra (32 * i + j), BitVec.ofNat 32 (base + j))
            else (List.range 16).map fun j => (tile o.ra (32 * i + j), tile o.ra (32 * i + 16 + j)))
        ∃ z, put (.matrixResult rec) t z ((List.range 32).foldl (fun f i => f ||| (rows i).2) 0) st.regs ∧
          ∀ i < 32, ∀ j < 32, (z.extractLsb' (32 * (32 * i + j)) 32 : BitVec 32) = (rows i).1.getD j 0) ∧
    (∀ x ∈ ([(.tmaxr o, fun i => foldFlags (tileMax int) (tile o.ra (32 * i), 0) ((List.range 31).map fun j => tile o.ra (32 * i + j + 1))),
        (.tsumr o, fun i => rowSum (tileAdd int mode) (if o.mod.getLsbD 0 then tileAddSat int mode else tileAdd int mode) (st.tileData (low3 o.ra)) i),
        (.trdv o, fun i => (tile o.ra (if col then 32 * i + n else 32 * n + i), 0))] : List (Instr × (Nat → BitVec 32 × BitVec 5))),
      runs x.1 → ∃ z : Vec, (∀ i < 32, (z.extractLsb' (32 * i) 32 : BitVec 32) = (x.2 i).1) ∧
        exec (.vectorResult rec) s = .next (free.setStrand rec { ran with
          vecs := st.vecs.set (low3 o.rd).toNat z (low3 o.rd).isLt, tags := st.tags.set (low3 o.rd).toNat (o.fmt ++ 0#4) (low3 o.rd).isLt
          fflags := st.fflags ||| (List.range 32).foldl (fun f i => f ||| (x.2 i).2) 0 })) ∧
    (runs (.tacq o) ∨ runs (.trel o) → exec (.vectorResult rec) s = .next (free.setStrand rec ran)) ∧
    (∀ p, d = some p →
      let b := if o.bx then o.bn else st.batch
      (runs (.tst o) → (st.reg o.ra).toNat % 4096 < 128 → s.roomFor (unitCore st.home) (homeOf p) 32 = true → ∃ t,
        exec (.vectorResult rec) s = .next t ∧ ∃ wait opens flags regs,
          t.strand rec = some { st with wait, opens, fflags := flags, regs, pc := st.pc + 12 } ∧ wait = .run ∧
          opens = st.opens ||| (1#4 <<< b.toNat) ∧ flags = st.fflags ||| (st.tstWrites o).2 ∧
          regs = st.regs.set o.ra.toNat (next st.reg o.ra) o.ra.isLt ∧
          t.fresh = s.fresh + 32 ∧ ∀ i < 32, ∃ q : Op, t.onWay (s.fresh + i) q ∧ q.place = p ∧
            q.h = BitVec.ofNat 64 ((st.reg o.ra).toNat + 128 * i) ∧
            some q.kind = ((st.tstWrites o).1[i]?.map Prod.fst) ∧ q.unit = unitCore st.home ∧ q.asker = .batch ∧ q.batch = b) ∧
      (runs (.acct o) → s.roomFor (unitCore st.home) (homeOf p) 1 = true → ∃ t, exec (.acctPost rec) s = .next t ∧
        t.strand rec = some { ran with opens := st.opens ||| (1#4 <<< b.toNat), regs := st.regs.set o.ra.toNat (st.ea o 4096).upd o.ra.isLt } ∧
        ∃ q : Op, t.onWay s.fresh q ∧ q.place = p ∧ q.h = (st.ea o 4096).h ∧ q.unit = unitCore st.home ∧
          q.kind = .accum 0 4096 o.fmt (o.imm6.extractLsb' 0 2) (o.mod.getLsbD 0) (st.tileData (low3 o.rd)) ∧ q.asker = .batch ∧ q.batch = b))

/-- FENCE and BCLOSE ask the homes of open batches and complete on the last answer (R265, R266, R269, R271, R281, R300). FENCE with no open batch that has a tracked home in scope or an untracked operation, and BCLOSE of a batch that is not open, complete at once (gD = 0). Otherwise every tracked home (for FENCE those in scope) is asked, with its count, another module by a frame, and the strand waits; a BCLOSE of an open batch that tracks no home asks none, and waits for its untracked operations if it has any. A home, whose die leaves its idle state, answers a close or sync when the counted operations have taken effect, with its summary, which a close takes; for a batch of another module the answer is a frame. On the last answer BCLOSE resets the batch, clears its OPEN bit, writes gD with the collected bits and goes on, or without Q and with an error raises the first failure's cause with its handle (XLATE: fault queue); FENCE goes on. Untracked operations are met when the totals of the untracked homes reach their number; until then the other modules of the domain are asked for theirs when an operation left the module. (The model's choices: the untracked part as one event, log entry 18; another module as one home, log entry 79.) -/
def Obligations.BatchesComplete : Prop :=
  ∀ (f : Form) (rd : BitVec 4) (b : BitVec 2) (qb : Bool) (scope : BitVec 3) (s : State) (r m : Nat) (st : Strand),
    s.strand r = some st →
    let tr := Maps.getD s.trackers st.tracker Tracker.zero
    let bs := fun b => tr.get b
    let open_ := fun b : BitVec 2 => st.opens.getLsbD b.toNat
    let hit := fun h => inScope scope (coreCluster st.home) h
    let asked := fun (t : State) (home : Nat) (c : BitVec 2) (count : Option Nat) (take : Bool) =>
      (∃ k, Maps.get t.net k = some (.close home st.tracker c count take r)) ∧
      (2048 ≤ home → ∃ k g,
        ({ src := s.modNo, dst := BitVec.ofNat 8 home, num := k, body := .close st.tracker c count take r, gen := g } : Frame) ∈ t.lantern ++ t.kept)
    let next : Strand := { st with pc := st.pc + BitVec.ofNat 32 f.len, wait := .run }
    let closed := fun (u : State) (x : Sum) =>
      let base := { u with trackers := Maps.put u.trackers st.tracker (tr.set b BatchSt.zero) }
      let st' : Strand := { st with
        opens := st.opens &&& ~~~(1#4 <<< b.toNat), wait := .run, regs := st.regs.set rd.toNat (BitVec.ofNat 64 x.bits.toNat) rd.isLt }
      if x.bits = 0 ∨ qb = true then base.setStrand r { st' with pc := st.pc + BitVec.ofNat 32 f.len }
      else match x.first with
        | none => base.setStrand r st'
        | some (_, _, cause, h) => if cause = 18 then (base.setStrand r st').toFaultQueue r h .never else (base.setStrand r st').raise r cause h
    (s.cur = some r → st.guardOk f.gd = true →
      ((∀ c, open_ c = true → (bs c).untracked = 0 ∧ ∀ p ∈ (bs c).homes, hit p.1 = false) →
        exec (.fence f scope) s = .next (s.setStrand r { st with pc := st.pc + BitVec.ofNat 32 f.len })) ∧
      (open_ b = false → exec (.bclose f rd b qb) s = .next (s.setStrand r { st with
        regs := st.regs.set rd.toNat 0 rd.isLt, pc := st.pc + BitVec.ofNat 32 f.len })) ∧
      ((∀ c, Maps.wf (bs c).homes = true) → s.awaits r = false →
        ((∃ c, open_ c = true ∧ ((bs c).untracked ≠ 0 ∨ ∃ p ∈ (bs c).homes, hit p.1 = true)) → ∃ t, exec (.fence f scope) s = .next t ∧
          t.strand r = some { st with wait := .closing (.fence f scope) 0 } ∧ (∀ q, q ≠ r → t.strand q = s.strand q) ∧
          t.trackers = s.trackers ∧ t.sums = s.sums ∧ ∀ c, open_ c = true → ∀ p ∈ (bs c).homes, hit p.1 = true →
            asked t p.1 c (some p.2) false) ∧
        (open_ b = true → (bs b).homes = [] →
          ((bs b).untracked ≠ 0 → exec (.bclose f rd b qb) s = .next (s.setStrand r { st with wait := .closing (.bclose f rd b qb) b })) ∧
          ((bs b).untracked = 0 → exec (.bclose f rd b qb) s = .next (closed s (bs b).got))) ∧
        (open_ b = true → (bs b).homes ≠ [] → ∃ t, exec (.bclose f rd b qb) s = .next t ∧
          t.strand r = some { st with wait := .closing (.bclose f rd b qb) b } ∧ (∀ q, q ≠ r → t.strand q = s.strand q) ∧
          t.trackers = s.trackers ∧ t.sums = s.sums ∧ ∀ p ∈ (bs b).homes, asked t p.1 b (some p.2) true))) ∧
    (∀ home t count take, Maps.get s.net m = some (.close home t b count take r) →
      let x := Maps.getD s.sums (sumKey t b home) Sum.zero
      (2048 ≤ home → exec (.batchSync m) s = .next s) ∧
      (home < 2048 → (∀ n, count = some n → n ≤ x.count) → exec (.batchSync m) s = .next
        ({ (s.rouse (homeDieOf home)).take m with sums := if take then Maps.del s.sums (sumKey t b home) else s.sums }.send (.closeReply home t b take x r)))) ∧
    (∀ (src : BitVec 8) t count take, Maps.get s.net m = some (.closeFor src t b count take r) →
      let x := s.untrackedSum (remoteTracker src t) b []
      (∀ n, count = some n → n ≤ x.count) → exec (.batchSync m) s = .next
        ({ ((s.sumDies (remoteTracker src t) b).foldl State.rouse s).take m with sums := if take then Maps.filter s.sums fun k _ => k / 4096 != remoteTracker src t * 4 + b.toNat else s.sums }.routed
          src (.closeReply t b take x.count x.bits x.first r))) ∧
    (∀ home x, (s.take m).awaits r = false → (Maps.get s.trackers st.tracker).isSome = true →
      (st.wait = .closing (.bclose f rd b qb) b → (bs b).untracked = 0 → Maps.get s.net m = some (.closeReply home st.tracker b true x r) →
        exec (.closeReply m) s = .next (closed (s.take m) ((bs b).got.merge x))) ∧
      (∀ c, st.wait = .closing (.fence f scope) c → (∀ c, open_ c = true → (bs c).untracked = 0) →
        Maps.get s.net m = some (.closeReply home st.tracker b false x r) → exec (.closeReply m) s = .next ((s.take m).setStrand r next))) ∧
    (s.awaits r = false →
      (∀ c, st.wait = .closing (.fence f scope) c →
        (∀ c, open_ c = true → (bs c).untracked ≤ (s.untrackedSum st.tracker c (bs c).homes).count) →
        exec (.batchCloseRebroadcast r) s = .next (s.setStrand r next)) ∧
      (st.wait = .closing (.bclose f rd b qb) b → 0 < (bs b).untracked →
        (bs b).untracked ≤ (s.untrackedSum st.tracker b (bs b).homes).count →
        exec (.batchCloseRebroadcast r) s = .next (closed
          { s with sums := Maps.filter s.sums fun k _ => !(k / 4096 == st.tracker * 4 + b.toNat && (Maps.get (bs b).homes (k % 4096)).isNone) }
          ((bs b).got.merge (s.untrackedSum st.tracker b (bs b).homes)))) ∧
      (st.wait = .closing (.bclose f rd b qb) b → (s.untrackedSum st.tracker b (bs b).homes).count < (bs b).untracked → ∃ t,
        exec (.batchCloseRebroadcast r) s = .next t ∧ t.strands = s.strands ∧ t.trackers = s.trackers ∧ t.sums = s.sums ∧
        ((bs b).off = true → ∀ d ∈ s.others, Maps.get (bs b).homes (2048 + d.toNat) = none → asked t (2048 + d.toNat) b none true)))

/-- FORK, JOIN, YIELD, SPAWN and END do to strands and their node what their rules say (R276, R278, R279, R280, R281, R271, R260, R355, R356, R103). FORK of an aligned target below 2^32 with room in the deque makes a strand with the g and p registers, descriptors, mode, image, priority, steal code and node of its parent, EMPTY vectors, its own window code, tracker and pc, at the bottom of its core's deque, and the node counts one live strand more; the parent, past the FORK, keeps its slot when it is anchored and else frees it and goes to its dispatcher. YIELD frees the slot and goes to the dispatcher of its cluster, or, anchored, skips one turn. SPAWN with a legal table asks the Keep with the eight arguments and waits. JOIN without open batches sends one arrival to its block and waits; its OK ends the strand; STALE, POISON and a refused arrival are traps. With open batches END and JOIN first close them, the lowest first: its homes are asked, and on the last answer, or at once without one, the batch is closed, and its errors trap at the END or JOIN with the first failure (XLATE: fault queue), else the next is closed, and after the last END or JOIN goes on. END without open batches removes the strand and the node counts one less; when that was its last, the owner's Belfry seals its DONE block, or waits with that while no room is left at the home; without a DONE block it discards the blocks of its last uses, or with none of them frees the node's number, and an instance without nodes and without instances spawned from it is complete. (The model's choice: the parent of a FORK leaves its slot, log entry 78.) -/
def Obligations.ForkJoinEnd : Prop :=
  ∀ (f : Form) (rd ra rb : BitVec 4) (win : BitVec 3) (s : State) (r : Nat) (st : Strand) (nd : Node), s.strand r = some st →
    s.node st.node = some nd → Maps.wf s.strands = true →
    let c := s.core st.home
    let pc := st.pc + BitVec.ofNat 32 f.len
    let ended := fun (i : Instr) => ∃ t, exec i s = .next t ∧ t.strand r = none ∧ (∀ q, q ≠ r → t.strand q = s.strand q) ∧ t.hbm = s.hbm ∧
      t.node st.node = some { nd with live := nd.live - 1 }
    (s.cur = some r → st.guardOk f.gd = true →
      (let v := st.reg ra
       v.toNat % 4 = 0 → v.toNat < 2 ^ 32 → c.deque.length < 176 → r ≠ s.fresh + 1 → s.victim st = false → ∀ n, st.loc = .slot st.home n →
       ∃ t child, exec (.fork f ra win) s = .next t ∧ t.strand (s.fresh + 1) = some child ∧
        (st.anch = true → t.strand r = some { st with pc := pc, wait := .run } ∧
          t.core st.home = { c with deque := (s.fresh + 1) :: c.deque }) ∧
        (st.anch = false →
          t.strand r = some { st with pc := pc, wait := .run, core := st.home, loc := .arriving (coreCluster st.home) } ∧
          t.core st.home = { c with deque := (s.fresh + 1) :: c.deque, slots := c.slots.set n.toNat none n.isLt, idleSince := s.tick }) ∧
        (∀ q, q ≠ r → q ≠ s.fresh + 1 → t.strand q = s.strand q) ∧ t.node st.node = some { nd with live := nd.live + 1 } ∧
        Maps.get t.trackers child.tracker = some { Tracker.zero with cl := coreCluster st.home } ∧ t.hbm = s.hbm ∧
        child.regs = st.regs ∧ child.fd = st.fd ∧ child.rmode = st.rmode ∧ child.image = st.image ∧ child.node = st.node ∧
        child.prio = st.prio ∧ child.steal = st.steal ∧ child.pc = BitVec.ofNat 32 v.toNat ∧ child.win = win ∧ child.anch = false ∧
        child.opens = 0 ∧ child.batch = 0 ∧ child.tcause = 0 ∧ child.fflags = 0 ∧ child.wait = .run ∧ child.loc = .deque st.home) ∧
      (st.anch = true → exec (.yield f) s = .next (s.setStrand r { st with pc := pc, wait := .skip })) ∧
      (∀ n, st.loc = .slot st.home n → st.anch = false → s.victim st = false → exec (.yield f) s = .next
        ((s.setCore st.home { c with slots := c.slots.set n.toNat none n.isLt, idleSince := s.tick }).setStrand r
          { st with pc := pc, core := st.home, wait := .run, loc := .arriving (coreCluster st.home) })) ∧
      (let a := (st.reg rb).toNat
       a % 8 = 0 → c.xb.toNat ≤ a → a + 64 ≤ 0x8000 → exec (.spawn f rd ra rb) s = .next
        ({ s with keepq := s.keepq ++ [KeepReq.spawn r (BitVec.ofNat 16 (st.reg ra).toNat)
          ((List.range 8).map fun k => BitVec.ofNat 64 (leNat (Mem.bytes c.store (a + 8 * k) 8)))] }.setStrand r
          { st with wait := .keep (.spawn f rd ra rb) })) ∧
      (st.opens = 0 →
        (∀ p, s.xlate (coreCluster st.home) true (st.reg ra) 4 = .ok p → s.roomFor (unitCore st.home) (homeOf p) 1 = true →
          ∃ t o, exec (.join f ra) s = .next t ∧ t.strand r = some { st with wait := .reply (.join f ra) (st.reg ra) (st.reg ra) } ∧
            (∀ q, q ≠ r → t.strand q = s.strand q) ∧ t.onWay s.fresh o ∧ o.kind = .arrival ∧ o.h = st.reg ra ∧
            o.place = p ∧ o.unit = unitCore st.home ∧ o.seq = Maps.getD s.seqs (unitCore st.home) 0 ∧ o.asker = .strand r) ∧
        (2 ≤ nd.live → ended (.endStrand f)) ∧
        (nd.live = 1 → ∀ n i, s.nodeRec nd = some (n, i) → Maps.wf s.nodes = true →
          let room := fun p => s.roomFor (unitBelfry nd.owner) (homeOf p) 1
          let finished := fun t : State => exec (.endStrand f) s = .next t ∧ t.strand r = none ∧ ∀ q, q ≠ r → t.strand q = s.strand q
          let uses := NodeRec.lastUses n i.args
          (NodeRec.done n ≠ 0 → ∀ p, s.placeOf (RangeDesc.handle (NodeRec.done n) i.args 0) 2 = some p →
            (room p = true → ∃ t k o, finished t ∧
              t.node st.node = some { nd with live := 0, stage := .doneSeal } ∧ t.onWay k o ∧
              o.kind = .seal (NodeRec.stream n) ∧ o.h = RangeDesc.handle (NodeRec.done n) i.args 0 ∧ o.place = p ∧
              o.unit = unitBelfry nd.owner ∧ o.asker = .belfryDone st.node) ∧
            (room p = false → ∃ t, finished t ∧ t.node st.node = some { nd with live := 0, stage := .sealDue } ∧ t.net = s.net.filter fun m => !m.2.closesFor r)) ∧
          (NodeRec.done n = 0 →
            (∀ h l p, uses = h :: l → s.placeOf h 2 = some p → room p = true → ∃ t k o, finished t ∧
              t.node st.node = some { nd with live := 0, stage := .discards uses.length } ∧ t.onWay k o ∧
              o.kind = .discard ∧ o.h = h ∧ o.place = p ∧ o.unit = unitBelfry nd.owner ∧ o.asker = .belfryLu st.node) ∧
            (uses = [] → ∃ t, finished t ∧ t.node st.node = none ∧
              (i.nodes.filter (· != st.node) ≠ [] ∨ i.spawned ≠ 0 →
                t.inst nd.inst = some { i with nodes := i.nodes.filter (· != st.node) }) ∧
              (i.nodes.filter (· != st.node) = [] → i.spawned = 0 → i.parent = 0 → Maps.wf s.instances = true → t.inst nd.inst = none)))))) ∧
    (∀ (b : BitVec 2) (i : Instr), i = .endStrand f ∨ i = .join f ra ∧ (∃ p, s.xlate (coreCluster st.home) true (st.reg ra) 4 = .ok p) →
      st.opens.getLsbD b.toNat = true → (∀ c : BitVec 2, c.toNat < b.toNat → st.opens.getLsbD c.toNat = false) →
      let tr := Maps.getD s.trackers st.tracker Tracker.zero
      let bs := tr.get b
      let left := st.opens &&& ~~~(1#4 <<< b.toNat)
      let closed := fun u : State => { u with trackers := Maps.put u.trackers st.tracker (tr.set b BatchSt.zero) }.setStrand r
        { st with opens := left, wait := .run }
      let trapped := fun (u : State) (x : Sum) => match x.first with
        | none => closed u
        | some (_, _, cause, h) => if cause = 18 then (closed u).toFaultQueue r h .never else (closed u).raise r cause h
      (s.cur = some r → st.guardOk f.gd = true → s.awaits r = false →
        (bs.homes = [] → bs.untracked = 0 → bs.got.bits ≠ 0 → exec i s = .next (trapped s bs.got)) ∧
        (bs.homes = [] → bs.untracked = 0 → bs.got.bits = 0 → exec i s = exec i (closed s)) ∧
        (bs.homes = [] → bs.untracked ≠ 0 → exec i s = .next (s.setStrand r { st with wait := .closing i b })) ∧
        (bs.homes ≠ [] → Maps.wf bs.homes = true → ∃ t, exec i s = .next t ∧ t.strand r = some { st with wait := .closing i b } ∧
          (∀ q, q ≠ r → t.strand q = s.strand q) ∧ t.trackers = s.trackers ∧ t.sums = s.sums ∧ ∀ p ∈ bs.homes, ∃ k,
            Maps.get t.net k = some (.close p.1 st.tracker b (some p.2) true r))) ∧
      ∀ m home x, st.wait = .closing i b → (s.take m).awaits r = false → bs.untracked = 0 → Maps.del bs.homes home = [] →
        (Maps.get s.trackers st.tracker).isSome = true → Maps.get s.net m = some (.closeReply home st.tracker b true x r) →
        let y := bs.got.merge x
        (y.bits ≠ 0 → exec (.closeReply m) s = .next (trapped (s.take m) y)) ∧
        (y.bits = 0 → left = 0 → i = .endStrand f → 2 ≤ nd.live → ended (.closeReply m)) ∧
        (y.bits = 0 → left = 0 → i = .join f ra → ∀ p, s.xlate (coreCluster st.home) true (st.reg ra) 4 = .ok p →
          s.roomFor (unitCore st.home) (homeOf p) 1 = true → ∃ t o, exec (.closeReply m) s = .next t ∧
            t.strand r = some { st with opens := 0, wait := .reply (.join f ra) (st.reg ra) (st.reg ra) } ∧ t.onWay s.fresh o ∧
            o.kind = .arrival ∧ o.h = st.reg ra ∧ o.place = p ∧ o.asker = .strand r) ∧
        (y.bits = 0 → ∀ c : BitVec 2, left.getLsbD c.toNat = true → (∀ d : BitVec 2, d.toNat < c.toNat → left.getLsbD d.toNat = false) →
          (tr.get c).homes ≠ [] → ∃ t, exec (.closeReply m) s = .next t ∧
            t.strand r = some { st with opens := left, wait := .closing i c })) ∧
    ∀ (m : Nat) (o : Op) (h : Word) (code : BitVec 4) (ticket : BitVec 16), st.wait = .reply (.join f ra) h h → o.asker = .strand r →
      st.inSlot = true → s.awaited o = true →
      let t := (s.take m).unack o.unit o.seq
      (Maps.get s.net m = some (.reply o .poison) → exec (.statusReply m) s = .next ((t.setStrand r st).raise r 17 h)) ∧
      (Maps.get s.net m = some (.reply o (.status code ticket)) →
        (code = 0 → 2 ≤ nd.live → ended (.statusReply m)) ∧
        (code = 3 → exec (.statusReply m) s = .next (t.raise r 8 h)) ∧
        (code ≠ 0 → code ≠ 3 → exec (.statusReply m) s = .next (t.raise r 15 h)))

/-- CPY, CPYS, CPYX and CPYH enter the copy ring of their core; HADD and HCAS go to the proxy (R234, R241, R242, R231, R235, R83). With a legal copy word, aligned operands inside their blocks and host window, every source and destination translated and fewer than 16 commands in the core's ring: the command stands last in the ring with its sources, destinations, rows and offset, one operation of the batch, homed at the engine of the cluster, is open, and the strand goes on past the instruction with its registers unchanged. CPYS reads each block once, by its first segment in it; CPYX and CPYH may write a block of another module. HADD and HCAS of an aligned host address in a set context put one request at the proxy of the die and wait. Nothing else changes. (The model's choices: one read of each block, log entry 44; destinations of CPYX and CPYH on another module, log entry 100.) -/
def Obligations.CopyCommandsEnterTheRing : Prop :=
  ∀ (o : XOp) (s : State) (r : Nat) (st : Strand) (pl : Word → Place), s.issuing = some (r, st) → st.guardOk o.gd = true →
    let c := s.core st.home
    let w := st.reg o.rd
    let rows := w.toNat / 2 ^ 16 % 32 + 1
    let mask := w.toNat % 2 ^ 16
    let stride := w.toNat / 2 ^ 24 % 256
    let e := (st.ea o 128).h
    let hs := st.reg o.rb
    let off := fun h : Word => h.toNat % 4096
    let row := fun h : Word => off h / 128

    let b := if o.bx then o.bn else st.batch
    let tr := Maps.getD s.trackers st.tracker Tracker.zero
    let ok := fun (h : Word) (perm : BitVec 4) => s.xlate (coreCluster st.home) true h perm = .ok (pl h)
    let here := fun h => ∀ m, pl h ≠ .off m
    let ds := if mask = 0 then [e] else ((List.range 16).filter fun i => mask.testBit i).map fun i =>
      padd49 e (BitVec.ofNat 64 (i * stride * 4096))
    let g := st.reg o.rc
    let segs := (List.range rows).map fun k => padd49 hs (BitVec.ofInt 64 (k * (BitVec.ofNat 32 g.toNat).toInt))
    let blocks := firstOfBlock [] segs
    let ctx := BitVec.ofNat 4 (w.toNat / 2 ^ 32)
    let out := w.toNat / 2 ^ 36 % 2
    let reg := fun (k : BitVec 4) (i : Nat) => (Maps.getD s.flash (0x12000 + 32 * k.toNat + 8 * i) 0 : Word)
    let ring := fun (i : Instr) (kind : CopyKind) (src : Word) (n : Nat) (srcs : List Word) (dst : BitVec 12) (dests : List Word) => ∃ t,
      let q : CopyReq := {
        tracker := st.tracker, batch := b, ordinal := BitVec.ofNat 32 (tr.get b).next, node := st.node
        dests := dests.map fun d => (d, pl d, false), got := Sum.zero }
      let cmd : CopyCmd := {
        id := s.fresh, core := st.home, kind := kind, hs := src, rows := n, srcs := srcs.map fun h => (h, pl h, none), dstOff := dst
        reqs := [q], asked := [], started := false, posted := false }
      exec i s = .next t ∧ t.core st.home = { c with ring := c.ring ++ [cmd] } ∧
      t.strand r = some { st with opens := st.opens ||| (1#4 <<< b.toNat), pc := st.pc + 12 } ∧ (∀ q, q ≠ r → t.strand q = s.strand q) ∧
      Maps.get t.trackers st.tracker = some (tr.set b ((tr.get b).count (homeEngine (coreCluster st.home)))) ∧
      t.hbm = s.hbm ∧ t.clusters = s.clusters ∧ t.net = s.net
    (off e % 128 = 0 → row e + rows ≤ 32 → c.ring.length < 16 →
      (w.toNat / 2 ^ 21 % 8 = 0 → w.toNat / 2 ^ 32 = 0 → (mask = 0 ↔ stride = 0) → off hs % 128 = 0 → row hs + rows ≤ 32 → ok hs 1 →
        (∀ d ∈ ds, ok d 2 ∧ here d) → ring (.cpy o) .rows hs rows [hs] (BitVec.ofNat 12 (off e)) ds) ∧
      (w.toNat / 2 ^ 21 % 8 = 0 → w.toNat / 2 ^ 32 = 0 → mask = 0 → stride = 0 → hs.toNat % 8 = 0 → off hs ≤ 3968 → g.toNat % 8 = 0 →
        (∀ h ∈ segs, off h ≤ 3968) → (∀ h ∈ blocks, ok h 1) → ok e 2 → here e →
        ring (.cpys o) (.gather (BitVec.ofInt 64 (BitVec.ofNat 32 g.toNat).toInt)) hs rows blocks (BitVec.ofNat 12 (off e)) [e]) ∧
      (off e = 0 → off hs = 0 → ok hs 1 → ok e 2 → ring (.cpyx o) (.transpose o.fmt) hs 32 [hs] 0 [e]) ∧
      (w.toNat / 2 ^ 21 % 8 = 0 → w.toNat / 2 ^ 37 = 0 → mask = 0 → stride = 0 → hs.toNat % 8 = 0 →
        reg ctx 3 ≠ 0 → hs.toNat + 128 * rows ≤ (reg ctx 3).toNat →
        (out = 0 → ok e 2 → ring (.cpyh o) (.fromHost ctx hs) hs rows [] (BitVec.ofNat 12 (off e)) [e]) ∧
        (out = 1 → ok e 1 → ring (.cpyh o) (.toHost ctx hs) e rows [e] 0 []))) ∧
    let k : BitVec 4 := o.imm6.extractLsb' 0 4
    let gh := st.reg o.ra
    (reg k 2 + gh).toNat % 8 = 0 → reg k 3 ≠ 0 → gh.toNat + 8 ≤ (reg k 3).toNat →
      ∀ x ∈ ([(.hadd o, 2, 0), (.hcas o, 3, st.reg o.rc)] : List (Instr × BitVec 2 × Word)), 
        let d := s.die (coreDie st.home)
        let q : ProxyReq := {
          id := s.fresh, strand := some r, cmd := none, ctx := k, addr := reg k 2 + gh, op := x.2.1, a := st.reg o.rb, b := x.2.2
          bytes := [], sent := false }
        exec x.1 s = .next ({ s.setDie (coreDie st.home) { d with proxy := d.proxy ++ [q] } with fresh := s.fresh + 1 }.setStrand r
          { st with wait := .proxy x.1 })

/-- The copy engine starts commands, posts their writes on the last source, and the proxy serves host requests (R232, R233, R234, R235, R241, R242, R266). COPY_COMMAND_START visits the next core in circular order that has a command, adds 4,096 bytes times its weight to its deficit, which a ring that it empties loses, takes its head out and asks for the source blocks (one of CPY and CPYX that no copy serves, with no command of the cluster to merge with); COPY_SOURCE_REPLY with the last data posts one write of the command's bytes to every destination of every requester in their order, up to the first whose home has no room for one more of the engine's operations, STALE or POISON answers every requester's batch instead. PROXY_REQUEST issues a request when no earlier atomic of its lane stands, PROXY_RETRY issues it again, PROXY_REPLY writes HADD's and HCAS's gD with the old value and completes them. (The model's choice: what an emptied ring does with its deficit, and when commands merge, log entry 44.) -/
def Obligations.CopiesAndHostRequests : Prop :=
  ∀ (s : State) (cl : BitVec 9),
    let e := (s.cluster cl).eng
    let u := unitEngine cl
    (∀ (n : Fin 16) (cmd : CopyCmd) (rest : List CopyCmd) (h : Word) (p : Place) (q : CopyReq) (qs : List CopyReq),
      let k := e.ring + 1 + BitVec.ofNat 4 n.val
      let core : BitVec 13 := cl ++ k
      e.active = [] → (∀ x xs, (s.core (cl ++ e.ring)).ring = x :: xs → Maps.getD e.deficit e.ring.toNat 0 < 128 * x.rows) →
      (∀ j < n.val, (s.core (cl ++ (e.ring + 1 + BitVec.ofNat 4 j))).ring = []) → (s.core core).ring = cmd :: rest →
      cmd.kind = .rows ∨ (∃ z, cmd.kind = .transpose z) → cmd.srcs = [(h, p, none)] → cmd.reqs = q :: qs → cmd.asked = [] →
      s.copyFor cl h p = none → s.roomFor u (homeOf p) 1 = true →
      (∀ x ∈ rest, cmd.merges x = false) → (∀ j ∈ clusterCores cl, j ≠ core → ∀ x ∈ (s.core j).ring, cmd.merges x = false) →
      ∃ t o, exec (.copyCommandStart cl) s = .next t ∧ t.core core = { s.core core with ring := rest } ∧
        (t.cluster cl).eng = {
          ring := k, active := Maps.put [] cmd.id { cmd with started := true, asked := [0] }
          deficit := Maps.put e.deficit k.toNat
            (if rest = [] then 0 else Maps.getD e.deficit k.toNat 0 + 4096 * (s.core core).ringwt.toNat - 128 * cmd.rows) } ∧
        t.onWay s.fresh o ∧ o.kind = .read false ∧ o.h = h ∧ o.place = p ∧ o.unit = u ∧ o.asker = .copySource cl cmd.id 0 ∧
        o.tracker = q.tracker ∧ o.batch = q.batch ∧ o.ordinal = q.ordinal ∧ t.strands = s.strands ∧ t.hbm = s.hbm) ∧
    (∀ (m seg : Nat) (o : Op) (x : Reply) (cmd : CopyCmd), Maps.get s.net m = some (.reply o x) → o.asker = .copySource cl cmd.id seg →
      Maps.get e.active cmd.id = some cmd → seg < cmd.srcs.length →
      let s1 := (s.take m).unack o.unit o.seq
      (∀ (d : Payload) (pw bits : BitVec 16) (n : Nat), x = .data d pw bits → cmd.posted = false → cmd.sent = 0 →
        (∀ j y, cmd.srcs[j]? = some y → j ≠ seg → y.2.2.isSome = true) →
        let homes := cmd.reqs.flatMap fun q => q.dests.map fun y => homeOf y.2.1
        let fits := fun j => ∀ h, homes[j]? = some h → s1.roomFor u h ((homes.take (j + 1)).count h) = true
        let at_ := fun i j => ((cmd.reqs.take i).map fun q => q.dests.length).sum + j
        n ≤ homes.length → (∀ j < n, fits j) → (n < homes.length → ¬fits n) →
        cmd.kind = .rows ∨ (∃ z, cmd.kind = .gather z) ∨ (∃ z, cmd.kind = .transpose z) →
        let full := { cmd with srcs := cmd.srcs.set seg (o.h, o.place, some d) }
        ∃ t, exec (.copySourceReply m) s = .next t ∧ Maps.get (t.cluster cl).eng.active cmd.id = some { full with sent := n, posted := decide (n = homes.length) } ∧
          t.strands = s.strands ∧ t.cores = s.cores ∧ t.hbm = s.hbm ∧
          ∀ i q j y, cmd.reqs[i]? = some q → q.dests[j]? = some y → at_ i j < n → ∃ k w, t.onWay k w ∧
            w.kind = .write (BitVec.ofNat 12 y.1.toNat) (128 * cmd.rows) full.data false ∧ w.h = y.1 ∧ w.place = y.2.1 ∧ w.unit = u ∧
            w.asker = .copyDest cl cmd.id i j ∧ w.tracker = q.tracker ∧ w.batch = q.batch ∧ w.ordinal = q.ordinal) ∧
      (∀ y ∈ ([(.stale, 2, 8), (.poison, 8, 17)] : List (Reply × BitVec 16 × BitVec 5)), x = y.1 → ∀ q, cmd.reqs = [q] →
        (Maps.get s.trackers q.tracker).isSome = true → ∃ t, exec (.copySourceReply m) s = .next t ∧
          Maps.get t.sums (sumKey q.tracker q.batch (homeEngine cl)) =
            some ((Maps.getD s.sums (sumKey q.tracker q.batch (homeEngine cl)) Sum.zero).merge
              { count := 1, bits := y.2.1, first := some (q.ordinal.toNat, 0, y.2.2, o.h) }) ∧
          t.strands = s.strands ∧ t.hbm = s.hbm)) ∧
    ∀ (d : BitVec 3) (q : ProxyReq) (pre post : List ProxyReq), (s.die d).proxy = pre ++ q :: post → (∀ x ∈ pre ++ post, x.id ≠ q.id) →
      (q.sent = false → (2 ≤ q.op.toNat → ∀ x ∈ pre, 2 ≤ x.op.toNat → x.addr.toNat / 64 % 64 ≠ q.addr.toNat / 64 % 64) →
        exec (.proxyRequest d q.id) s = .next
          ((s.setDie d { s.die d with proxy := pre ++ { q with sent := true } :: post }).emit (.proxy { q with sent := true }))) ∧
      (q.sent = true →
        exec (.proxyRetry d q.id false) s = .next (s.emit (.proxy q)) ∧
        ∀ (data : List Byte) (r : Nat) (st : Strand) (o : XOp), q.strand = some r → s.strand r = some st → st.inSlot = true →
          st.wait = .proxy (.hadd o) ∨ st.wait = .proxy (.hcas o) → exec (.proxyReply d q.id true data) s = .next
            ((s.setDie d { s.die d with proxy := pre ++ post }).setStrand r { st with
              regs := st.regs.set o.rd.toNat (BitVec.ofNat 64 (leNat (data.take 8))) o.rd.isLt, pc := st.pc + 12, wait := .run }))

/-- A host request at the head of the Keep's order that breaks no rule takes effect and is answered OK (R24, R31, R40, R42, R45, R46, R43, R44, R297, R385, R362, R323). For a well-segmented request of a session that stands and is not enrolling, at the head of the Keep's order while no run is being started and no reply is owed, and meeting the conditions of its rule: IMAGE_LOAD and GRAPH_INSTALL store their object under its number or, when they do not fit in with the others, are refused with NOSPACE, IMAGE_UNLOAD and GRAPH_REMOVE drop it, BLOCK_MAP installs its extents on the frames the Keep chose and tells the other modules, or without room is NOSPACE, BLOCK_UNMAP removes them, REGION and QP create under the key or number the Keep chose, QP_DESTROY removes a pair without a partly applied WRITE and is BUSY with one, RUN starts its instance, QUENCH ends it or all the host's, LATENCY sets a tolerance, QUOTE answers the signed report, QUERY reads and writes registers, PLANLOAD takes a staged plan, a write to RESET resets, CLOSE closes; each is answered with status OK (CLOSE and RESET before they act; BLOCK_MAP and BLOCK_UNMAP, where there are other modules, only when all have entered the extents, and QUENCH when the last dispatched command of its instances has completed: until then the reply is owed). An instance QUENCH does not find is ABSENT; an unknown TYPE is status 9. (The model's choices: body layouts, log entry 24; what the Keep has room for, log entry 29; the bits of a plan entry that R297 reserves, and a REGION whose blocks are not mapped, log entry 34; what is partly applied, log entry 26; the acknowledged extents, log entry 36.) -/
def Obligations.HostRequestsSucceed : Prop :=
  ∀ (s : State) (n seq : BitVec 32) (typ : BitVec 8) (b : List Byte) (q : List KeepReq), s.starting = none → s.keepWait = none →
    s.keepq = .uhp n seq typ false b :: q → (∃ se, s.session n = some se ∧ se.phase ≠ .enrolling ∧ (typ = 3 → se.phase ≠ .opening)) →
    let s1 := { s with keepq := q }
    let fld := recField b
    let used := (s.images.map fun p => p.2.length).sum + (s.graphs.map fun p => 64 + 192 * p.2.nodes.length + (2 * p.2.images.length + 7) / 8 * 8).sum
    let ok := fun (ev : Instr) (t : State) (body : List Byte) => exec ev s = .next (t.reply n seq 0 body)
    let owed := fun (ev : Instr) (t : State) (ends : List (BitVec 32)) (told : List (BitVec 8 × BitVec 37)) => exec ev s = .next
      (if ends = [] ∧ told = [] then { t with keepWait := none }.reply n seq 0 []
       else { t with keepWait := some { session := n, seq := seq, ends := ends, told := told } })
    let free := fun k : Nat => k ≠ 0 ∧ k ≠ 0xFFFF
    let first := fld 0 8
    let count := fld 8 4
    let extents := first % 512 = 0 ∧ 1 ≤ count ∧ count ≤ 65536 ∧ first + 512 * count ≤ 2 ^ 37
    let vbns := (List.range count).map fun i => BitVec.ofNat 37 (first + 512 * i)
    let told := s.others.flatMap fun m => vbns.map fun w => (m, w)
    let a := fld 0 4
    let write := fld 4 4 % 2
    let v : Word := BitVec.ofNat 64 (fld 8 8)
    (typ = 0x10 → 64 ≤ b.length → b.length = fld 0x28 4 → Image.badFormat b = false → Image.badRange b = false →
      Maps.get s.images (fld 6 2) = none →
      (used + b.length ≤ s.keepSize → ok .imageLoad { s1 with images := Maps.put s.images (fld 6 2) b } (leBytes 2 (fld 6 2))) ∧
      (s.keepSize < used + b.length → exec .imageLoad s = .next (s1.reply n seq 6 []))) ∧
    (typ = 0x11 → b.length = 2 → free (fld 0 2) → (Maps.get s.images (fld 0 2)).isSome = true →
      (∀ p ∈ s.instances, ∀ g, Maps.get s.graphs p.2.graph.toNat = some g → BitVec.ofNat 16 (fld 0 2) ∉ g.images) →
      ok .imageUnload { s1 with images := Maps.del s.images (fld 0 2) } []) ∧
    (typ = 0x12 →
      let nodes := (List.range (fld 8 2)).map fun k => (b.drop (64 + 192 * k)).take 192
      let images := (List.range (fld 10 2)).map fun k => BitVec.ofNat 16 (fld (64 + 192 * fld 8 2 + 2 * k) 2)
      b.length = 64 + 192 * fld 8 2 + (2 * fld 10 2 + 7) / 8 * 8 → fld 0 4 = 0x4F444750 → fld 4 2 = 1 →
      (∀ k, 12 ≤ k → k < 64 → b.getD k 0 = 0) → (∀ k, 64 + 192 * fld 8 2 + 2 * fld 10 2 ≤ k → b.getD k 0 = 0) → free (fld 6 2) →
      1 ≤ fld 8 2 → fld 8 2 ≤ 4096 → 1 ≤ fld 10 2 → fld 10 2 ≤ 64 →
      (∀ x ∈ nodes, NodeRec.badFormat x images = false ∧ NodeRec.badRange x s.images = false) →
      Maps.get s.graphs (fld 6 2) = none → (∀ i ∈ images, free i.toNat ∧ (Maps.get s.images i.toNat).isSome = true) →
      (used + b.length ≤ s.keepSize →
        ok .graphInstall { s1 with graphs := Maps.put s.graphs (fld 6 2) { nodes, images } } (leBytes 2 (fld 6 2))) ∧
      (s.keepSize < used + b.length → exec .graphInstall s = .next (s1.reply n seq 6 []))) ∧
    (typ = 0x13 → b.length = 2 → free (fld 0 2) → (Maps.get s.graphs (fld 0 2)).isSome = true →
      (∀ p ∈ s.instances, p.2.graph.toNat ≠ fld 0 2) → ok .graphRemove { s1 with graphs := Maps.del s.graphs (fld 0 2) } []) ∧
    (∀ frames : List (BitVec 5 × BitVec 15), typ = 0x20 → b.length = 14 → fld 12 1 ≤ 15 → extents →
      fld 13 1 < 32 ∧ s.stackUp (fld 13 1) = true ∨ fld 13 1 = 255 → (∀ w ∈ vbns, s.walk w = none) →
      (s.mapRoom (fld 13 1) count = false → exec (.blockMap frames) s = .next (s1.reply n seq 6 [])) ∧
      (s.mapRoom (fld 13 1) count = true → frames.length = count → s.framesFree frames = true →
        (fld 13 1 < 32 → ∀ f ∈ frames, f.1.toNat = fld 13 1) →
        (fld 13 1 = 255 → spreadOk s.stacksUp.length (frames.map Prod.fst) = true) →
        owed (.blockMap frames) ((vbns.zip frames).foldl (fun u x =>
          let e := u.leafEntry (BitVec.ofNat 4 (fld 12 1)) x.2.1 x.2.2
          (u.installExtent x.1 e).tellExtent x.1 e) s1) [] told)) ∧
    (typ = 0x21 → b.length = 12 → extents → (∀ w ∈ vbns, (s.extentFrame w).isSome = true) →
      (∀ p ∈ s.instances, ∀ x ∈ s.named p.2, first + 512 * count ≤ x.1 ∨ x.1 + x.2 ≤ first) →
      (∀ p ∈ s.regions, first + 512 * count ≤ p.2.first ∨ p.2.first + p.2.count ≤ first) →
      owed .blockUnmap (vbns.foldl (fun t w => t.removeExtent w) s1) [] told) ∧
    (∀ rkey : BitVec 32, typ = 0x22 → b.length = 13 → Maps.get s.regions rkey.toNat = none → fld 12 1 ≤ 3 → 1 ≤ count →
      first + count ≤ 2 ^ 37 →
      let g : Region := { first := first, count := count, write := (fld 12 1).testBit 0, read := (fld 12 1).testBit 1 }
      ok (.region rkey) { s1 with regions := Maps.put s.regions rkey.toNat g } (leBytes 4 rkey.toNat)) ∧
    (∀ (port : Bool) (qpn psn : BitVec 24), typ = 0x23 → b.length = 26 → Maps.get s.qps qpn.toNat = none → fld 19 1 = 0 → fld 23 1 = 0 →
      fld 24 2 ∈ [1024, 2048, 4096] → (s.qps.filter fun p => p.2.port == port).length < 1024 →
      let g : QPair := {
        port := port, mtu := fld 24 2, hostGid := BitVec.ofNat 128 (fld 0 16), hostQpn := BitVec.ofNat 24 (fld 16 3)
        hostPsn := BitVec.ofNat 24 (fld 20 3), startPsn := psn, psn := BitVec.ofNat 24 (fld 20 3), err := false, msgs := [] }
      ok (.qp port qpn psn) { s1 with qps := Maps.put s.qps qpn.toNat g }
        (leBytes 16 (Config.gid port).toNat ++ leBytes 4 qpn.toNat ++ leBytes 4 psn.toNat)) ∧
    (∀ g, typ = 0x24 → b.length = 4 → Maps.get s.qps (fld 0 4) = some g →
      let out := s.hostOutcomes g (BitVec.ofNat 24 (fld 0 4))
      let begun := fun m : HostMsg => 0 < m.applied ∨ ∃ x ∈ out m, Reply.refuses x = false
      let due := fun m : HostMsg => (out m).length < m.left ∨ m.sealDue ≠ none ∧ m.bad = false ∧ ∀ x ∈ out m, Reply.refuses x = false
      ((∀ m ∈ g.msgs, m.read ≠ none ∨ ¬begun m ∨ ¬due m) → ok .qpDestroy { s1 with qps := Maps.del s.qps (fld 0 4) } []) ∧
      ((∃ m ∈ g.msgs, m.read = none ∧ begun m ∧ due m) → exec .qpDestroy s = .next (s1.reply n seq 5 []))) ∧
    (∀ (number : BitVec 32) (nodes : List (BitVec 32)) (g : Graph), typ = 0x30 → b.length = 80 →
      let args : Vector Word 8 := Vector.ofFn fun k : Fin 8 => BitVec.ofNat 64 (fld (16 + 8 * k.val) 8)
      let i : Instance := {
        graph := BitVec.ofNat 16 (fld 0 2), args := args, cookie := BitVec.ofNat 64 (fld 8 8), session := n, root := number, parent := 0
        slice := BitVec.ofNat 32 (fld 4 4), started := s.tick, nodes := nodes, spawned := 0, quenched := false }
      let x : Starting := { inst := number, left := 0, session := n, seq := seq, strand := none }
      s.runStatus (fld 2 2 != 0) (fld 0 2) args = 0 → Maps.get s.graphs (fld 0 2) = some g →
      s.numbersFree number nodes g.nodes.length = true → exec (.run number nodes) s = .next (s1.startInstance x i g)) ∧
    (typ = 0x31 → b.length = 4 →
      let end_ := fun l : List (BitVec 32) =>
        let t := l.foldl (fun t k => t.endInstance k killed) s1
        owed .quench t (l.filter fun k => t.ending.any fun e => e.number == k) []
      (fld 0 4 = 0xFFFFFFFF → end_ ((s.instances.filter fun p => p.2.parent == 0).map fun p => BitVec.ofNat 32 p.1)) ∧
      (fld 0 4 ≠ 0xFFFFFFFF → Maps.get s.instances (fld 0 4) = none → exec .quench s = .next (s1.reply n seq 4 [])) ∧
      (fld 0 4 ≠ 0xFFFFFFFF → (Maps.get s.instances (fld 0 4)).isSome = true → end_ [BitVec.ofNat 32 (fld 0 4)])) ∧
    (typ = 0x32 → b.length = 8 → fld 1 3 = 0 →
      let t : BitVec 32 := BitVec.ofNat 32 (fld 4 4)
      (fld 0 1 = 0xFE → ok .latency { s1 with modTol := t, modState := if t.toNat < 20000 then 0 else s.modState } []) ∧
      (∀ d : BitVec 3, fld 0 1 = d.toNat → ok .latency (s1.setTol d t) [])) ∧
    (typ = 0x33 → b.length = 16 →
      (∀ w, write = 0 → s.regRead a = some w → ok .registerWrite s1 (leBytes 8 w.toNat)) ∧
      (write = 1 → a = 0x10060 → v.toNat < 512 → ok .registerWrite { s1 with tracesel := BitVec.ofNat 9 v.toNat } (leBytes 8 v.toNat)) ∧
      (write = 1 → 0x100000 ≤ a → a < 0x180000 → a % 8 = 0 →
        let w : Word := v &&& 0x80FF80FF80FF80FF
        ok .registerWrite { s1 with flash := Maps.put s.flash a w } (leBytes 8 w.toNat)) ∧
      (write = 1 → a = 0x10040 → v.toNat < 16 → v.toNat ≠ s.plan.toNat → (s1.takePlan v.toNat).planOk (BitVec.ofNat 4 v.toNat) = true →
        ok .planloadWrite (s1.takePlan v.toNat) (leBytes 8 0)) ∧
      (write = 1 → 0x1000 ≤ a → a < 0x1100 → a % 8 = 0 →
        exec .hostkeyWrite s = .next (({ s1 with flash := Maps.put s.flash a v }.remeasure.reply n seq 0 (leBytes 8 v.toNat)).endEnrolment)) ∧
      (write = 1 → a = 0x20 → v = 0x5253 → exec .resetWrite s = .next ((s1.reply n seq 0 (leBytes 8 0)).coldReset))) ∧
    (typ = 0x34 → b.length = 32 → ok .quote s1 (s.quoted b ++ Config.quoteSignature (s.quoted b))) ∧
    (typ = 4 → b = [] → exec .close s = .next ((s1.reply n seq 0 []).closeSession n)) ∧
    (typ.toNat ∉ ([0x04, 0x10, 0x11, 0x12, 0x13, 0x20, 0x21, 0x22, 0x23, 0x24, 0x30, 0x31, 0x32, 0x33, 0x34] : List Nat) →
      exec .uhpUnknownType s = .next (s1.reply n seq 9 []))

/-- Sessions open, confirm, deliver, acknowledge and retransmit; RDMA writes post their units and reads answer data (R35, R36, R39, R43, R46, R47, R389). In READY: an OPEN that arrives joins the Keep's order, a repeated one does not; at its head, with a slot and fewer than 16 sessions, it is answered OPENED under a number no session has had, with its nonce, ciphertext and signature, and the keys are derived; CONFIRM at the head opens the session, or opens it for enrolment while no host key is stored, or with a bad signature closes it; its timeout closes it, unless a CONFIRM has come and waits for the Keep. A datagram in turn that ends a message hands it to the Keep and is acknowledged; one whose tag fails is only logged; an acknowledgement drops what it covers; a retransmission repeats a datagram, and past 16 closes the session. A WRITE in turn through its region posts one operation per 8 bytes, each with the pair's number as its ordinal, and notes the message, with its seal if it has one; a READ posts one read per block and is answered with the bytes when the last has come, an empty one at once; a packet ahead of its turn gets a sequence NAK with the PSN that is due; a repeated packet is acknowledged again unless its message waits; an unsupported operation is NAKed and the pair goes to its error state; an unknown pair does nothing; the oldest message is acknowledged once it has taken effect. (The model's choices: first SEQs, layouts and the length of H, log entry 24; NAK codes and PSNs, and READ by one read per block, log entry 26.) -/
def Obligations.HostSessionsAndRdma : Prop :=
  ∀ (s : State), s.boot.stage = 7 →
    (∀ (port : Bool) (d : Datagram), d.ver = 1 → d.session = 0 → d.typ = 1 → d.m = false → .openReq port d.seq d.body ∉ s.keepq →
      ∃ t, exec (.uhpSegment port d) s = .next t ∧ t.hbm = s.hbm ∧ t.keepq = if (s.sessions.any fun p =>
        p.2.port == port && p.2.openSeq == d.seq && p.2.openBody == d.body) then s.keepq else s.keepq ++ [.openReq port d.seq d.body]) ∧
    (∀ (port : Bool) (seq number : BitVec 32) (body : List Byte) (q : List KeepReq), s.starting = none → s.keepWait = none →
      s.keepq = .openReq port seq body :: q → number ≠ 0 → number.toNat ∉ s.sessUsed →
      s.sessions.length < 16 → body.length = 1601 → recField body 32 1 ≤ 3 →
      let unsigned := leBytes 4 number.toNat ++ leBytes 32 (Config.partNonce s.tick).toNat ++
        leBytes 1568 (Config.cipherText s.tick (body.drop 33)).toNat
      let hash := shake32 (body ++ unsigned)
      let opened := unsigned ++ Config.identitySignature hash
      let keys := shake256 (leBytes 32 (Config.sharedSecret s.tick (body.drop 33)).toNat ++ leBytes 32 hash.toNat)
      let se : Session := {
        port := port, slot := BitVec.ofNat 2 (recField body 32 1), phase := .opening, openSeq := seq, openBody := body, opened := opened
        keys := BitVec.ofNat 704 keys.toNat, rxNext := seq + 1, rxHeld := [], partOn := false
        partSeq := 0, partTyp := 0, part := [], partBad := false, txNext := 0, unacked := [], stored := [] }
      exec (.openSession port seq body number) s = .next (State.sendMsg { s with
        keepq := q, sessUsed := s.sessUsed ++ [number.toNat], sessions := Maps.put s.sessions number.toNat se } number 2 opened)) ∧
    (∀ (n : BitVec 32) (se : Session), Maps.get s.sessions n.toNat = some se →

      let gone := { s with sessions := Maps.del s.sessions n.toNat }
      let empty := fun k => (s.hostKey k).all fun w => w == 0
      let enrol := se.slot = 0 ∧ s.enrolLock = false ∧ ∀ k < 4, empty k = true
      let under := fun seq : BitVec 32 => (se.keys.extractLsb' 256 256, se.keys.extractLsb' 608 96 ^^^ seq.zeroExtend 96)
      let came := ∃ seq bad body, .uhp n seq 3 bad body ∈ s.keepq
      (se.phase = .opening → (¬came → exec (.confirmTimeout n) s = .next gone) ∧ (came → exec (.confirmTimeout n) s = .next s) ∧
        ∀ seq body q, s.starting = none → s.keepWait = none → s.keepq = .uhp n seq 3 false body :: q →
          let as_ := fun x => ({ s with keepq := q, sessions := Maps.put s.sessions n.toNat { se with phase := x } }).reply n seq 0 []
          (enrol → ∀ sig, exec (.confirm n seq sig) s = .next (as_ .enrolling)) ∧
          (empty se.slot.toNat = false → exec (.confirm n seq true) s = .next (as_ .opened)) ∧
          (¬enrol → exec (.confirm n seq false) s = .next { gone with keepq := q })) ∧
      (∀ (port : Bool) (d : Datagram), n ≠ 0 → d.ver = 1 → d.session = n → d.typ = 0x8F → d.a = true → d.under = some n →
        exec (.ack port d) s = .next { s with modState := 0, sessions := Maps.put s.sessions n.toNat { se with
          unacked := se.unacked.filter fun q => decide (2 ^ 31 ≤ (d.ack - q.1).toNat) } }) ∧
      (∀ seq typ more body sent, se.unacked.find? (fun q => q.1 == seq) = some (seq, typ, more, body, sent) →
        (16 < sent → exec (.uhpRetransmit n seq) s = .next gone) ∧
        (sent ≤ 16 → ∃ l, exec (.uhpRetransmit n seq) s = .next (State.emit
            { s with sessions := Maps.put s.sessions n.toNat { se with unacked := l } }
            (.uhp se.port (if typ = 2 then 0 else n) seq typ more (se.rxNext - 1) body (if typ = 2 then none else some (under seq)))) ∧
          l.length = se.unacked.length ∧ (seq, typ, more, body, sent + 1) ∈ l)) ∧
      (∀ (port : Bool) (d : Datagram), d.ver = 1 → n ≠ 0 → d.session = n → d.typ ≠ 3 →
        (d.under ≠ some n → ∃ t, exec (.uhpSegment port d) s = .next t ∧ t.keepq = s.keepq ∧ t.sessions = s.sessions ∧
          t.outbox = s.outbox ∧ t.hbm = s.hbm ∧ t.errHead = s.errHead + 1) ∧
        (d.under = some n → se.phase ≠ .opening → d.a = false → d.typ ≠ 0x8F → d.seq = se.rxNext → d.m = false → se.partOn = false →
          se.rxHeld = [] → d.body.length ≤ 8192 → ∃ t, exec (.uhpSegment port d) s = .next t ∧
          t.keepq = s.keepq ++ [.uhp n d.seq d.typ false d.body] ∧
          t.outbox = s.outbox ++ [.uhp se.port n se.txNext 0x8F false d.seq [] (some (under se.txNext))] ∧
          Maps.get t.sessions n.toNat = some { se with rxNext := se.rxNext + 1, part := [], partBad := false } ∧ t.hbm = s.hbm))) ∧
    ∀ (p : Packet) (data : List Byte) (len : Nat),
      (s.pairOf p = none → exec (.roceUnknownQp p) s = .next s) ∧
      ∀ q, s.pairOf p = some q → q.err = false →
       (2 ^ 23 ≤ (p.psn - q.psn).toNat → exec (.roceWrite p data) s = .next
        (if q.msgs.any fun m => decide ((p.psn - m.first).toNat < 2 ^ 23) then s else s.emit (.roceAck p.qpn p.psn))) ∧
       (0 < (p.psn - q.psn).toNat → (p.psn - q.psn).toNat < 2 ^ 23 → exec (.roceWrite p data) s = .next (s.emit (.roceNak p.qpn q.psn 0x60))) ∧
       (p.psn = q.psn →
        let room := fun (h : Word) (n : Nat) => ∃ pl, s.placeOf h 0 = some pl ∧ s.roomFor (unitPort p.port) (homeOf pl) n = true
        let count := fun k => BitVec.ofNat 24 (max 1 ((k + q.mtu - 1) / max 1 q.mtu))
        exec (.roceUnsupportedOp p) s = .next (State.emit { s with qps := Maps.put s.qps p.qpn.toNat { q with err := true } }
          (.roceNak p.qpn p.psn 0x61)) ∧
        (s.regionOk p len false false = true → q.msgs = [] →
          let blocks := (touched p.va len false).2
          let block := fun i : Nat => padd49 (p.va &&& ~~~0xFFF#64) (BitVec.ofNat 64 (4096 * i))
          let m : HostMsg := {
            id := s.fresh, first := p.psn, psn := p.psn + count len - 1, left := blocks, applied := 0, bad := false, badSeal := false
            sealDue := none, read := some (p.va.toNat % 4096, len, []) }
          (blocks = 0 → ∃ t, exec (.roceRead p len) s = .next t ∧ t.outbox = s.outbox ++ [.roceData p.qpn p.psn []] ∧
            Maps.get t.qps p.qpn.toNat = some { q with psn := p.psn + count len } ∧ t.net = s.net ∧ t.hbm = s.hbm) ∧
          (0 < blocks → (∀ i < blocks, room (block i) blocks) → ∃ t, exec (.roceRead p len) s = .next t ∧
            Maps.get t.qps p.qpn.toNat = some { q with psn := p.psn + count len, msgs := [m] } ∧ t.strands = s.strands ∧ t.hbm = s.hbm ∧
            ∀ i < blocks, ∃ k o, t.onWay k o ∧ o.h = block i ∧ o.kind = .read false ∧ s.placeOf o.h 0 = some o.place ∧
              o.unit = unitPort p.port ∧ o.asker = .host p.qpn s.fresh ∧ o.ordinal = p.qpn.toNat) ∧
          ((∃ i < blocks, s.placeOf (block i) 0 = none) → exec (.roceRead p len) s = .next
            (State.emit { s with qps := Maps.put s.qps p.qpn.toNat { q with err := true } } (.roceNak p.qpn p.psn 0x62)))) ∧
        (∀ (imm : BitVec 32) (x : Bool), p.va.toNat % 8 = 0 → data.length % 8 = 0 → data ≠ [] → q.msgs = [] →
          (∀ i < data.length / 8, room (padd49 p.va (BitVec.ofNat 64 (8 * i))) (data.length / 8)) →
          s.regionOk p data.length x true = true → imm.toNat < 2 →
          let end_ := padd49 p.va (BitVec.ofNat 64 (data.length - 1))
          let m : HostMsg := {
            id := s.fresh, first := p.psn, psn := p.psn + count data.length - 1, left := data.length / 8, applied := 0, bad := false
            badSeal := false
            sealDue := if x then some (end_, imm.getLsbD 0) else none }
          ∃ t, exec (if x then .roceWriteImm p data imm else .roceWrite p data) s = .next t ∧
            Maps.get t.qps p.qpn.toNat = some { q with psn := p.psn + count data.length, msgs := [m] } ∧ t.strands = s.strands ∧ t.hbm = s.hbm ∧
            ∀ i < data.length / 8, ∃ k o, t.onWay k o ∧ o.h = padd49 p.va (BitVec.ofNat 64 (8 * i)) ∧
              o.kind = .write (BitVec.ofNat 12 o.h.toNat) 8 (Payload.ofBytes ((data.drop (8 * i)).take 8)) false ∧
              s.placeOf o.h 0 = some o.place ∧ o.unit = unitPort p.port ∧ o.asker = .host p.qpn s.fresh ∧ o.ordinal = p.qpn.toNat) ∧
        (∀ m : HostMsg, q.msgs = [m] → m.read = none → m.todo = [] → m.left = 0 → m.sealDue = none → m.bad = false → m.badSeal = false →
          exec (.roceWriteAck p.qpn) s = .next (State.emit { s with qps := Maps.put s.qps p.qpn.toNat { q with msgs := [] } }
            (.roceAck p.qpn m.psn))) ∧
        ∀ (k : Nat) (o : Op) (d : Payload) (pw bits : BitVec 16) (m : HostMsg) (off n : Nat) (got : FMap Payload),
          Maps.get s.net k = some (.reply o (.data d pw bits)) → o.asker = .host p.qpn m.id →
          (∃ z ∈ Maps.getD s.units o.unit [], z.seq = o.seq) → s.qps = [(p.qpn.toNat, q)] → q.msgs = [m] → m.todo = [] → m.bad = false →
          m.left = 1 → m.read = some (off, n, got) →
          let all := Maps.put got (o.h.toNat / 2 ^ 12 % 2 ^ 37) d
          ∃ t, exec (.operationAck k) s = .next t ∧ t.qps = [(p.qpn.toNat, { q with msgs := [] })] ∧ t.hbm = s.hbm ∧ t.strands = s.strands ∧
            t.outbox = s.outbox ++ [.roceData p.qpn m.first (((all.flatMap fun x => Payload.toBytes x.2).drop off).take n)])

/-- Fills, dedupe windows, retransmission, acknowledgement, walks and the fault queue (R199, R222, R229, R251, R252, R255, R266). BLOCK_FILL with room in the store, and in the deferral table for the stubs of its log, and no uncorrectable line makes the block resident with its memory contents, to which the log's entries are applied in order under a running mask that starts as HBM's, removes the log, counts an activation of its row, and lets the waiting operations take effect in order; a line that cannot be read poisons the block, which keeps of mode, counts and quota what other lines hold, and is logged; a copy that a PREF asked for is placed then. A unit with nothing unacknowledged at a slice or another module sends it its release; a released window is dropped once no copy for it is under way. OPERATION_RETRANSMIT sends another copy under the same number. OPERATION_ACK of a posted operation takes it off its unit's list; one no longer held is dropped. WALK_COMPLETE, whose reads wake the stack's die and count as activations, puts the leaf into the TLB and lets the strand run, or puts its record on the fault queue. FAULT_QUEUE_SERVICE returns the oldest record whose need is met to its dispatcher, else ends its instance with XLATE. (The model's choices: TLB eviction, log entry 22; the release told to another module, log entry 35; what a record on the fault queue needs, log entry 47; the count of a row, log entry 95.) -/
def Obligations.HomesAndUnitsUpkeep : Prop :=
  ∀ (s : State),
    (∀ (cl : BitVec 9) (blk : Nat) (ms : List Nat), Maps.get (s.cluster cl).fills blk = some ms →
      let c := s.cluster cl
      let old := s.hbmState blk
      let x : Resident := { b := s.resident cl blk, used := s.tick, dirty := (Maps.get c.logs blk).isSome }
      c.res.length + c.copies.length < c.capacity → x.b.stubs.length ≤ c.stubRoom →
      let t := { s with rowActs := Maps.put s.rowActs blk (Maps.getD s.rowActs blk 0 + 1) }.setCluster cl { c with
        res := Maps.put c.res blk x, logs := Maps.del c.logs blk, fills := Maps.del c.fills blk, pcache := Maps.del c.pcache blk }
      ((∀ p ∈ c.prefs, p.1 ≠ blk) →
        (old.poisoned = true ∨ s.unreadable cl blk = false →
          exec (.blockFill cl blk) s = .next (ms.foldl (fun t m => t.serveWaiting cl m) t)) ∧
        (old.poisoned = false → s.unreadable cl blk = true → ms = [] → ∃ t y, exec (.blockFill cl blk) s = .next t ∧
          Maps.get (t.cluster cl).res blk = some y ∧ y.b.poisoned = true ∧ y.b.st = 1 ∧ y.b.gen = x.b.gen ∧ t.errHead = s.errHead + 1 ∧
          (Maps.get c.logs blk = none → y.b.mode = (if s.badLine blk 34 then 0 else old.mode) ∧
            y.b.acount = (if s.badLine blk 35 then 4096 else old.acount) ∧ y.b.arrivals = (if s.badLine blk 36 then 0 else old.arrivals) ∧
            (y.b.qarmed, y.b.qrem) = if s.badLine blk 37 then (0, 0) else (old.qarmed, old.qrem)))) ∧
      (∀ h k, c.prefs = [(blk, h, none, k)] → k ≠ cl → ms = [] → s.unreadable cl blk = false → x.b.st = 1 →
        x.b.gen.toNat = h.toNat / 2 ^ 52 → x.b.poisoned = false → s.inService k = true →
        (s.cluster k).res.length + (s.cluster k).copies.length < (s.cluster k).capacity → ∃ t, exec (.blockFill cl blk) s = .next t ∧
          Maps.get (t.cluster cl).res blk = some x ∧ (t.cluster cl).prefs = [] ∧
          Maps.get (t.cluster k).copies (copyKey h) = some { data := x.b.payload, used := s.tick }) ∧
      (Maps.get c.logs blk = none → x.b = { old with payload := s.hbmPayload blk }) ∧
      ∀ l, Maps.get c.logs blk = some l →
        let r := l.entries.foldl (fun (p : Payload × BitVec 512) y => match y with
          | .acc _ fmt rule off d => (combineInto p.1 p.2 fmt rule off.toNat 128 (d.zeroExtend 32768), p.2 ||| maskRange off.toNat 128)
          | .acct _ fmt rule d => (combineInto p.1 p.2 fmt rule 0 4096 d, BitVec.allOnes 512)
          | .seal _ => (zeroUnwritten p.1 p.2, 0)
          | .clear _ => (p.1, 0)
          | .stubs _ _ _ => p) (s.hbmPayload blk, old.mask)
        x.b = { l.desc with
          stubs := l.entries.flatMap fun y => match y with | .stubs _ _ z => z | _ => []
          payload := r.1, lastWrite := if l.desc.st.toNat % 2 = 1 then none else l.desc.lastWrite }) ∧
    (∀ (cl : BitVec 9) (u : Nat) (w : Window), Maps.get (s.cluster cl).windows u = some w →
      let mine := fun o : Op => o.unit = u ∧ homeOf o.place = cl.toNat
      (u < 16384 → (∀ o ∈ Maps.getD s.units u [], homeOf o.place ≠ cl.toNat) → exec (.dedupeRelease cl.toNat u) s = .next
        (s.setCluster cl { s.cluster cl with windows := Maps.put (s.cluster cl).windows u { w with released := true } })) ∧
      (w.released = true → (∀ p ∈ s.net, ∀ o, p.2 = .op o → ¬mine o) → exec (.dedupeWindowExpiry cl u) s = .next
        (s.setCluster cl { s.cluster cl with windows := Maps.del (s.cluster cl).windows u })) ∧
      ((∃ p ∈ s.net, ∃ o, p.2 = .op o ∧ mine o) → exec (.dedupeWindowExpiry cl u) s = .next s)) ∧
    (∀ (u : Nat) (k : BitVec 8), u < 16384 → (∀ o ∈ Maps.getD s.units u [], homeOf o.place ≠ 2048 + k.toNat) →
      exec (.dedupeRelease (2048 + k.toNat) u) s = .next (s.routed k (.release u))) ∧
    (∀ (u seq : Nat) (o : Op), (Maps.getD s.units u []).find? (fun o => o.seq.toNat == seq) = some o →
      ((∀ k, o.place ≠ .off k) → exec (.operationRetransmit u seq) s = .next
        { s with net := Maps.put s.net s.fresh (.op o), fresh := s.fresh + 1 }) ∧
      (∀ k, o.place = .off k → (∀ c, o.asker ≠ .circuit c) → exec (.operationRetransmit u seq) s = .next (s.routed k (s.opBody o)))) ∧
    (∀ (m : Nat) (o : Op) (bits : BitVec 16) (cause : BitVec 5), Maps.get s.net m = some (.reply o (.report bits cause)) → o.asker = .batch →
      let l := Maps.getD s.units o.unit []
      ((∃ q ∈ l, q.seq = o.seq) → exec (.operationAck m) s = .next { s with
        net := Maps.del s.net m, units := Maps.put s.units o.unit (l.filter fun q => q.seq != o.seq) }) ∧
      ((∀ q ∈ l, q.seq ≠ o.seq) → exec (.operationAck m) s = .next { s with net := Maps.del s.net m })) ∧
    (∀ (r : Nat) (st : Strand) (h : Word) (perm : BitVec 4), s.strand r = some st → st.wait = .walk h perm →
      let vbn : BitVec 37 := BitVec.ofNat 37 (h.toNat / 4096)
      let cl := st.clusterOf
      let c := s.cluster cl
      let w := s.walked vbn
      (s.walk vbn = none → perm ≠ 0 → exec (.walkComplete r) s = .next (w.toFaultQueue r h (.perm perm))) ∧
      (s.walk vbn = none → perm = 0 → exec (.walkComplete r) s = .next (w.setStrand r { st with pc := st.pc + 12, wait := .run })) ∧
      (∀ e big, s.walk vbn = some (e, big) →
        let key := if big then 2 * (vbn.toNat / 2 ^ 18) + 1 else 2 * (vbn.toNat / 2 ^ 9)
        let old := Maps.del c.tlb key
        let t := w.setCluster cl { c with tlb := Maps.put (if old.length < 1024 then old else old.drop 1) key e }
        let grant := Pte.perm e &&& perm = perm ∧ s.inDomain (Pte.module e) = true
        (grant → exec (.walkComplete r) s = .next (t.setStrand r { st with wait := .run })) ∧
        (¬grant → perm ≠ 0 → exec (.walkComplete r) s = .next (t.toFaultQueue r h (.perm perm))) ∧
        (¬grant → perm = 0 → exec (.walkComplete r) s = .next (t.setStrand r { st with pc := st.pc + 12, wait := .run })))) ∧
    ∀ (d : BitVec 3) (r : Nat) (q : List Nat) (st : Strand) (v : Word) (n : Need), (s.die d).faultq = r :: q → s.strand r = some st →
      st.wait = .fault v n →
      let t := s.setDie d { s.die d with faultq := q }
      let met := match n with
        | .perm p => (match s.xlate st.clusterOf false v p with | .ok _ => true | .migrate _ => true | _ => false)
        | .permHere p => (match s.xlate st.clusterOf false v p with | .ok (.off _) => false | .ok _ => true | .migrate _ => true | _ => false)
        | .ctx k => Maps.getD s.flash (0x12018 + 32 * k.toNat) 0 != 0
        | .never => false
      (met = true → s.victim st = false → st.inSlot = false →
        exec (.faultQueueService d) s = .next (t.setStrand r { st with wait := .run, loc := .arriving st.clusterOf })) ∧
      (met = true → s.victim st = false → st.inSlot = true → exec (.faultQueueService d) s = .next (t.setStrand r { st with wait := .run })) ∧
      (met = false → exec (.faultQueueService d) s = .next (t.endOwner r 18 v))

/-- Node instances become ready, are dispatched with a root strand, and retire through DONE and the last-use discards (R52, R55, R56, R57, R64, R280, R355, R356, R357, R358, R33, R237). WATCHER_WAKE lowers the missing-input count; at zero the node instance joins the tail of its priority's ready queue at its owner. A dispatch round first sends a seal that found no room at its home, if there is room now; it takes the first examined entry that some cluster can take, counts a skip for those before it, reserves its tiles at one quad of the cluster and queues a root strand whose registers hold node, instance and the first handles of its ranges. A hand-over moves a ready entry to the tail at another die. SPAWN is served as a RUN of the parent's root; refused, gD holds the status with bit 63 set. A DONE seal that is not STALE, POISON or XLATE lets the last-use blocks be discarded in order, each when there is room at its home, each refusal logged, then the node instance is gone; those three end the instance. -/
def Obligations.NodeInstancesAdvance : Prop :=
  ∀ (s : State),
    (∀ (m : Nat) (d : BitVec 3) (n : BitVec 32) (nd : Node), Maps.get s.net m = some (.fire d n) → s.node n = some nd → nd.stage = .waiting →
      (3 ≤ nd.missing → exec (.watcherWake m) s = .next (((s.take m).rouse d).setNode n { nd with missing := nd.missing - 1 })) ∧
      (nd.missing = 2 → ∃ t, exec (.watcherWake m) s = .next t ∧ t.node n = some { nd with missing := 1 } ∧ t.strands = s.strands) ∧
      (∀ r i, nd.missing ≤ 1 → s.nodeRec nd = some (r, i) → ∃ t, exec (.watcherWake m) s = .next t ∧
        t.node n = some { nd with missing := 0, stage := .ready } ∧ t.strands = s.strands ∧ t.hbm = s.hbm ∧
        ∀ k : Fin 4, (t.die nd.owner).ready[k] = if k.val = (NodeRec.prio r).toNat then (s.die nd.owner).ready[k] ++ [n]
          else (s.die nd.owner).ready[k])) ∧
    (∀ (d : BitVec 3) (quad : BitVec 2) (passed rest : List (BitVec 32)) (n : BitVec 32) (nd : Node) (r : NodeRec) (i : Instance)
        (cl : BitVec 9), (s.die d).alive = true → (∀ x, s.starting = some x → x.todo = []) →
      (∀ p ∈ s.nodes, p.2.owner = d → p.2.stage ≠ .sealDue ∧ ∀ left, p.2.stage ≠ .discardDue left) → s.examined (s.die d) 4 = passed ++ n :: rest → (∀ x ∈ passed, s.choice d x = none) →
      s.choice d n = some (r, i, cl) → s.node n = some nd → passed.Nodup →
      ∃ t a st, exec (.belfryDispatchRound d quad) s = .next t ∧ anvilCluster a = cl ∧
        t.node n = some { nd with stage := .running, cluster := some cl, anvil := some a } ∧
        (∀ x ∈ passed, (t.node x).map Node.skip = (s.node x).map fun y => y.skip + 1) ∧ (∀ k : Fin 4, n ∉ (t.die d).ready[k]) ∧
        (t.anvil a).tiles.toList.count (.reserved n) = (s.anvil a).tiles.toList.count (.reserved n) + NodeRec.tiles r ∧
        (t.cluster cl).queue = (s.cluster cl).queue ++ [s.fresh + 1] ∧ t.strand (s.fresh + 1) = some st ∧
        st.reg 0 = BitVec.ofNat 64 n.toNat ∧ st.reg 1 = BitVec.ofNat 64 nd.inst.toNat ∧ (∀ k : Fin 6, st.regs[k.val + 2] = 0) ∧
        (∀ k : Fin 8, st.regs[k.val + 8] =
          ((NodeRec.inputs r ++ NodeRec.outputs r).map fun x => RangeDesc.handle x i.args 0).getD k.val nullHandle) ∧
        st.pc = Image.entry (Maps.getD s.images (NodeRec.image r).toNat []) (NodeRec.entry r) ∧ st.image = NodeRec.image r ∧
        st.prio = NodeRec.prio r ∧ st.win = NodeRec.win r ∧ st.steal = NodeRec.steal r ∧ st.node = n ∧ st.root = true ∧ st.anch = false ∧
        Maps.get t.trackers st.tracker = some { Tracker.zero with cl := cl }) ∧
    (∀ (d : BitVec 3) (quad : BitVec 2) (n : BitVec 32) (nd : Node) (r : NodeRec) (i : Instance) (p : Place), (s.die d).alive = true →
      s.starting = none → s.nodes = [(n.toNat, nd)] → nd.owner = d → nd.stage = .sealDue → s.nodeRec nd = some (r, i) → NodeRec.done r ≠ 0 →
      s.placeOf (RangeDesc.handle (NodeRec.done r) i.args 0) 2 = some p → s.roomFor (unitBelfry d) (homeOf p) 1 = true →
      (∀ k : Fin 4, (s.die d).ready[k] = []) → ∃ t k o, exec (.belfryDispatchRound d quad) s = .next t ∧
        t.node n = some { nd with stage := .doneSeal } ∧ t.onWay k o ∧ o.kind = .seal (NodeRec.stream r) ∧ o.place = p ∧
        o.h = RangeDesc.handle (NodeRec.done r) i.args 0 ∧ o.unit = unitBelfry d ∧ o.asker = .belfryDone n) ∧
    (∀ (d dest : BitVec 3) (n : BitVec 32) (nd : Node) (r : NodeRec) (i : Instance), s.node n = some nd → nd.owner = d → nd.stage = .ready →
      dest ≠ d → (s.die dest).alive = true → s.choice d n = none → (s.choice dest n).isSome = true → s.nodeRec nd = some (r, i) →
      ∃ t, exec (.belfryHandover d dest n) s = .next t ∧ t.node n = some { nd with owner := dest, skip := 0 } ∧
        (∀ k : Fin 4, n ∉ (t.die d).ready[k]) ∧ t.strands = s.strands ∧
        (t.die dest).ready[(NodeRec.prio r).toNat]'((NodeRec.prio r).isLt) =
          (s.die dest).ready[(NodeRec.prio r).toNat]'((NodeRec.prio r).isLt) ++ [n]) ∧
    (∀ (r : Nat) (graph : BitVec 16) (l : List Word) (q : List KeepReq) (number : BitVec 32) (nodes : List (BitVec 32)), s.starting = none → s.keepWait = none →
      s.keepq = .spawn r graph l :: q →
      let s1 := { s with keepq := q }
      let args : Vector Word 8 := Vector.ofFn fun k : Fin 8 => l.getD k.val 0x000E000000000000
      (∀ pn p g, s.runStatus false graph.toNat args = 0 → Maps.get s.graphs graph.toNat = some g →
        s.numbersFree number nodes g.nodes.length = true → s.ownInstance r = some (pn, p) →
        let x : Starting := { inst := number, left := 0, session := 0, seq := 0, strand := some r }
        exec (.spawnService number nodes) s = .next ((s1.setInst pn { p with spawned := p.spawned + 1 }).startInstance x {
          graph := graph, args := args, cookie := p.cookie, session := p.session, root := p.root, parent := pn, slice := 0, started := s.tick
          nodes := nodes, spawned := 0, quenched := false } g)) ∧
      (∀ (st : Strand) (f : Form) (rd ra rb : BitVec 4), s.runStatus false graph.toNat args ≠ 0 → s.runStatus false graph.toNat args < 16 →
        s.strand r = some st → st.inSlot = true → st.wait = .keep (.spawn f rd ra rb) → exec (.spawnService number nodes) s = .next
          (s1.setStrand r { st with
            regs := st.regs.set rd.toNat (BitVec.ofNat 64 (2 ^ 63 + 2 ^ 32 * s.runStatus false graph.toNat args)) rd.isLt
            pc := st.pc + BitVec.ofNat 32 f.len, wait := .run }))) ∧
    ∀ (m : Nat) (o : Op) (n : BitVec 32) (nd : Node) (r : NodeRec) (i : Instance), s.node n = some nd → s.nodeRec nd = some (r, i) →
      Maps.wf s.nodes = true →
      let base := (s.take m).unack o.unit o.seq
      let hs := ((NodeRec.inputs r).filter RangeDesc.lastUse).flatMap fun d => (List.range (RangeDesc.count d)).map (RangeDesc.handle d i.args)
      let goes := fun (ev : Instr) (u : State) (l : List Word) =>
        (∀ h l' p, l = h :: l' → s.placeOf h 2 = some p →
          (base.roomFor (unitBelfry nd.owner) (homeOf p) 1 = true → exec ev s = .next ((u.setNode n { nd with stage := .discards l.length }).sendOp
            .discard h p (unitBelfry nd.owner) (.belfryLu n) 0 0 0 n)) ∧
          (base.roomFor (unitBelfry nd.owner) (homeOf p) 1 = false → exec ev s = .next (u.setNode n { nd with stage := .discardDue l.length }))) ∧
        (l = [] → (i.nodes.filter (· != n) ≠ [] ∨ i.spawned ≠ 0) → ∃ t, exec ev s = .next t ∧ t.node n = none ∧
          t.inst nd.inst = some { i with nodes := i.nodes.filter (· != n) } ∧ t.strands = s.strands)
      (∀ bits cause, Maps.get s.net m = some (.reply o (.report bits cause)) → o.asker = .belfryDone n → nd.stage = .doneSeal →
        (bits &&& 0x1A = 0 → goes (.doneSealOutcome m) base hs) ∧
        (bits &&& 0x1A ≠ 0 → bits.getLsbD 0 = false → bits.getLsbD 2 = false → exec (.doneSealOutcome m) s = .next (base.endInstance nd.inst {
          idx := BitVec.ofNat 16 nd.idx, node := n, cause := if bits.getLsbD 1 then 8 else if bits.getLsbD 3 then 17 else 18, tpc := 0, tval := o.h }))) ∧
      (∀ code ticket left, Maps.get s.net m = some (.reply o (.status code ticket)) → o.asker = .belfryLu n → nd.stage = .discards left →
        left ≤ hs.length → 1 ≤ left →
        goes (.luDiscardStatus m) (if code = 1 ∨ code = 3 then
          base.logEvent 3 (BitVec.ofNat 8 code.toNat) (BitVec.ofNat 16 nd.idx) nd.inst o.h n 0 base.hearthCycle else base) (hs.drop (hs.length + 1 - left)))

/-- Dispatchers accept and place records, cores pop and steal, and an image switch loads the store (R58, R59, R60, R61, R65, R25, R275, R277). An arriving record, one from another cluster too, joins its dispatcher's queue when none waits before it and there is room; else it waits behind those, one from another cluster in the outbound buffer of its core; a victim's does the same. The record the dispatcher picks, the bottom record of a deque for a free slot of its core, and a record stolen within a cluster take a slot (the one named if free, else the lowest free one): the record stands in it with its window words allocated on that core and its contents unchanged, and a root strand is live from then on. A thief takes the victims of its nearest level with a record for it in turn (in order of number after the one it took last there); a record from another cluster goes to the thief's dispatcher; no steal is made while the dispatcher, placing its waiting records in their order, would put one on the thief. When none qualifies a core may begin to switch, and the end of a switch leaves the image's code and data sections, zeros elsewhere, its bases and its number in the core. (The model's choice: which steals a full outbound buffer stops, log entry 98.) -/
def Obligations.RecordsTakeSlots : Prop :=
  ∀ (s : State),
    let placed := fun (t : State) (r : Nat) (st : Strand) (k : BitVec 13) (slot : BitVec 3) => ∃ tiles,
      let free := (List.range 8).filter fun j => (s.core k).slots[j]? == some none
      let sl : BitVec 3 := if slot.toNat ∈ free then slot else BitVec.ofNat 3 (free.headD slot.toNat)
      t.strand r = some { st with loc := .slot k sl, core := k, bound := decide (st.words ≠ 0), root := false, tiles } ∧
      (∀ j : Fin 8, (tiles[j]).map Tile.data = (st.tiles[j]).map Tile.data) ∧
      (t.core k).slots[sl.toNat]'(sl.isLt) = some r ∧ (∀ q, q ≠ r → t.strand q = s.strand q) ∧ t.hbm = s.hbm ∧
      (∀ nd, st.root = true → s.node st.node = some nd → t.node st.node = some { nd with live := 1 })
    (∀ (r : Nat) (st : Strand) (cl : BitVec 9), s.strand r = some st → st.loc = .arriving cl ∨ (∃ k, st.loc = .migrating cl k) →
      let first := (s.cluster cl).waiting = [] ∨ (s.cluster cl).waiting.head? = some r
      (first → s.queueRoom cl r = true → ∃ t, exec (.dispatcherAccept r) s = .next t ∧ t.strand r = some { st with loc := .queue cl } ∧
        (t.cluster cl).queue = (s.cluster cl).queue.filter (· != r) ++ [r] ∧ r ∉ (t.cluster cl).waiting ∧
        (∀ q, q ≠ r → t.strand q = s.strand q) ∧ t.hbm = s.hbm) ∧
      (¬first ∨ s.queueRoom cl r = false → r ∉ (s.cluster cl).waiting → ∃ t, exec (.dispatcherAccept r) s = .next t ∧
        (t.cluster cl).waiting = (s.cluster cl).waiting ++ [r] ∧ t.strands = s.strands ∧ t.hbm = s.hbm ∧
        ∀ k, st.loc = .migrating cl k → r ∈ (t.core k).outbuf)) ∧
    (∀ (cl : BitVec 9) (slot : BitVec 3), s.inService cl = true →
      (∀ r st k, s.pick cl = some (r, st, k) → ∃ t, exec (.dispatcherPlace cl slot) s = .next t ∧ placed t r st k slot) ∧
      (∀ image k, s.pick cl = none → s.switchFor cl = some (image, k) → ∃ t, exec (.dispatcherPlace cl slot) s = .next t ∧
        t.core k = { s.core k with switching := some image } ∧ t.strands = s.strands ∧ t.hbm = s.hbm)) ∧
    (∀ (k : BitVec 13) (slot : BitVec 3), (∃ j : Fin 8, (s.core k).slots[j] = none) → s.canIssue k = true →
      (∀ r st q, (s.core k).deque = r :: q → s.strand r = some st → s.usedWords k + st.words ≤ 2048 → s.victim st = false →
        ∃ t, exec (.dequePop k slot) s = .next t ∧ placed t r st k slot) ∧
      let cl := coreCluster k
      let place := fun t : State => match exec (.dispatcherPlace cl 0) t with
        | .next u => u
        | _ => t
      let lands := ∃ n < (s.cluster cl).queue.length, (∀ i < n, (place^[i] s).pick cl ≠ none) ∧ ∃ r st, (place^[n] s).pick cl = some (r, st, k)
      (lands → ∀ v, exec (.stealAttempt k v slot) s = .next s) ∧
      (∀ (v : BitVec 13) (r : Nat) (st : Strand) (i : Fin 4), s.poppable k = none → ¬lands → Maps.wf s.cores = true → (∀ p ∈ s.cores, p.1 < 8192) →
        (∀ w, distance k w ≤ i.val → s.stealable k w = none) → distance k v = i.val + 1 → s.stealable k v = some (r, st) →
        let last := (s.core k).victims[i]
        let others := fun p : BitVec 13 → Prop => ∀ w, distance k w = i.val + 1 → (s.stealable k w).isSome = true → p w
        (last < v ∧ others fun w => w ≤ last ∨ v ≤ w) ∨ (others fun w => w ≤ last ∧ v ≤ w) → ∃ t, exec (.stealAttempt k v slot) s = .next t ∧
          (t.core k).perf5 = (s.core k).perf5 + 1 ∧ (t.core k).victims = (s.core k).victims.set i.val v i.isLt ∧
          (i.val < 2 → placed t r st k slot) ∧
          (2 ≤ i.val → t.strand r = some { st with loc := .migrating (coreCluster k) v, core := v } ∧ r ∉ (t.core v).deque))) ∧
    ∀ (k : BitVec 13) (image : BitVec 16) (b : List Byte), (s.core k).switching = some image → Maps.get s.images image.toNat = some b →
      let co := recField b 0x2C 4
      let cs := recField b 8 4
      let db := recField b 12 4
      let ds := recField b 16 4
      cs ≤ db → co + cs + ds ≤ b.length → ∃ m, exec (.imageSwitchDone k) s = .next (s.setCore k { s.core k with
          store := m, xb := BitVec.ofNat 32 cs, trapbase := BitVec.ofNat 32 (recField b 0x18 4), database := BitVec.ofNat 32 db
          image := image, switching := none }) ∧ Memory.wf m = true ∧
        ∀ a, Mem.byte m a = if a < cs then b.getD (co + a) 0 else if db ≤ a ∧ a < db + ds then b.getD (co + cs + (a - db)) 0 else 0

/-- A waiting node of higher priority, or the end of a slice, quenches an instance, which is saved and later resumes (R320, R321, R322, R336). PREEMPT_WAIT_EXPIRY of a ready node instance that no cluster can take quenches the running instance of lowest priority below it, TIME_SLICE_EXPIRY quenches its own instance when a node instance of another one waits. When every victim strand stands at an instruction boundary and no victim's record is in flight to a dispatcher, QUENCH_DONE saves what stands in slots, on deques and in queues, and while one is in flight it saves that much and the quench goes on. QUENCH_RESUME unmarks the victim of highest priority, when the work it made room for has left, none of higher priority waits, and no self-test that it makes way for runs, and its saved and held records go to their dispatchers. (Marking and saving are single steps: log entry 27.) -/
def Obligations.QuenchSavesAndResumes : Prop :=
  ∀ (s : State),
    (∀ (n v : BitVec 32) (nd : Node) (i : Instance), s.node n = some nd → (∀ q, s.quench = some q → q.saved = true) → s.starved n = true →
      s.lowestBelow (s.nodePrio n) nd.inst = some v → s.inst v = some i → ∃ t, exec (.preemptWaitExpiry n) s = .next t ∧
        t.inst v = some { i with quenched := true } ∧ t.nodes = s.nodes ∧ t.hbm = s.hbm ∧
        t.quench = some { victims := (s.quench.elim [] Quench.victims) ++ [v], saved := false, waits := (s.quench.elim [] Quench.waits) ++ [n] }) ∧
    (∀ (v : BitVec 32) (i : Instance), s.inst v = some i → i.slice ≠ 0 → i.quenched = false →
      (∀ q, s.quench = some q → q.saved = true) →
      let w := s.starving.filter fun n => match s.node n with
        | none => false
        | some nd => nd.inst != v
      w ≠ [] → ∃ t, exec (.timeSliceExpiry v) s = .next t ∧ t.inst v = some { i with quenched := true } ∧ t.nodes = s.nodes ∧
        t.quench = some { victims := (s.quench.elim [] Quench.victims) ++ [v], saved := false, waits := (s.quench.elim [] Quench.waits) ++ w }) ∧
    (∀ q, s.quench = some q → q.saved = false →
      let halted := ∀ p ∈ s.strands, s.victim p.2 = true → p.2.inSlot = true → p.2.wait = .run
      let flying := ∃ p ∈ s.strands, s.victim p.2 = true ∧ ∃ c, p.2.loc = .arriving c ∨ ∃ k, p.2.loc = .migrating c k
      (¬halted → exec .quenchDone s = .next s) ∧
      (halted → Maps.wf s.strands = true → ∃ t, exec .quenchDone s = .next t ∧ t.hbm = s.hbm ∧
        (flying → t.quench = some q) ∧ (¬flying → t.quench = some { q with saved := true }) ∧
        (∀ r st, s.strand r = some st → s.victim st = true →
          (st.savable = true → t.strand r = some { st with
            loc := .saved (clusterDie st.clusterOf) st.clusterOf, core := st.home, bound := false, root := false, wait := .run }) ∧
          (st.savable = false → (∀ f rd, st.wait ≠ .keep (.idle f rd)) → t.strand r = some st)))) ∧
    ∀ (q : Quench) (v : BitVec 32) (i : Instance), s.quench = some q → q.saved = true → s.inst v = some i → v ∈ q.victims →
      let prio := fun n => (s.inst n).elim 0 s.instPrio
      least (fun n => 3 - prio n) q.victims = some v → ((∃ x ∈ s.tests, v ∈ x.moved) → exec .quenchResume s = .next s) ∧
      ((∀ n ∈ q.waits, ∀ nd, s.node n = some nd → nd.stage = .ready → s.dispatchable n = false) → (∀ x ∈ s.tests, v ∉ x.moved) →
      (∀ n ∈ s.starving, s.nodePrio n ≤ prio v) → ∃ t, exec .quenchResume s = .next t ∧ t.inst v = some { i with quenched := false } ∧
        t.quench = (if q.victims.filter (· != v) = [] then none else some { q with victims := q.victims.filter (· != v) }) ∧
        t.hbm = s.hbm ∧ t.nodes = s.nodes ∧ (Maps.wf s.strands = true → ∀ r st nd, s.strand r = some st → s.node st.node = some nd → nd.inst = v →
          ∀ c, ((∃ d, st.loc = .saved d c) ∨ st.loc = .held c) → t.strand r = some { st with loc := .arriving c, wait := .run }))

/-- MAPB installs a leaf, SAVEREC writes the records of a cluster to memory, and LOADREC brings one back (R333, R334, R335, R62, R63, R227, R86). For a privileged strand whose guard holds: MAPB of a legal leaf for an unmapped extent under an existing level-2 table writes the entry, tells the other modules and gives gD 0, and RANGE (for the Keep's reserved frames too), DUPLICATE or ABSENT otherwise, with no effect; SAVEREC, with every victim strand of the cluster halted, its destination translated and room at the homes, posts the entries of the records it finds as writes, piece by piece, takes those records into the save area and gives gD their number and length, or BUSY (2 in bits 51:48) while one has not halted; LOADREC of a legal entry readable at the handle gives the record to the dispatcher of its cluster and gD the length: the saved record the entry was made from, else a new one with the entry's contents; without room there LOADREC tries again. (The model's choices: the Keep's reserved frames, log entry 6; the writes of SAVEREC piece by piece, and finding a saved record by the bytes of its entry, log entry 61; an entry whose PC is no multiple of 4, log entry 99.) -/
def Obligations.PrivilegedObjects : Prop :=
  ∀ (f : Form) (rd ra rb : BitVec 4) (s : State) (r : Nat) (st : Strand), s.issuing = some (r, st) → st.guardOk f.gd = true → st.image = 0xFFFF →
    let v := st.reg ra
    let e := st.reg rb
    let gd := fun (u : State) (x : Nat) => u.setStrand r { st with
      regs := st.regs.set rd.toNat (BitVec.ofNat 64 x) rd.isLt, pc := st.pc + BitVec.ofNat 32 f.len }
    let vbn : BitVec 37 := BitVec.ofNat 37 v.toNat
    let legal := v.toNat % 512 = 0 ∧ v.toNat < 2 ^ 37 ∧ e.getLsbD 63 = true ∧ e.getLsbD 62 = true ∧ e.toNat / 2 ^ 24 % 2 ^ 21 = 0 ∧
      e.toNat % 2 ^ 24 < 32704 ∧ e.toNat / 2 ^ 50 % 256 = s.modNo.toNat
    let cl : BitVec 9 := coreDie st.home ++ BitVec.ofNat 6 e.toNat
    (¬legal → exec (.mapb f rd ra rb) s = .next (gd s 2)) ∧
    (legal → (s.walk vbn).isSome = true → exec (.mapb f rd ra rb) s = .next (gd s 3)) ∧
    (legal → s.walk vbn = none →
      (s.l2Addr vbn = none → exec (.mapb f rd ra rb) s = .next (gd s 4)) ∧
      (∀ a, s.l2Addr vbn = some a → exec (.mapb f rd ra rb) s = .next (gd ((s.installLeaf a e).tellExtent vbn e) 0) ∧
        (Memory.wf s.hbm = true → ∀ k, Mem.byte (s.installLeaf a e).hbm k =
          if a ≤ k ∧ k < a + 8 then BitVec.ofNat 8 (e.toNat / 2 ^ (8 * (k - a))) else Mem.byte s.hbm k))) ∧
    (v.toNat % 64 = 0 →
      ((∃ p ∈ s.strands, s.victim p.2 = true ∧ p.2.inSlot = true ∧ p.2.clusterOf = cl ∧ p.2.wait ≠ .run) →
        exec (.saverec f rd ra rb) s = .next (gd s (2 * 2 ^ 48))) ∧
      ((∀ p ∈ s.strands, s.victim p.2 = true → p.2.inSlot = true → p.2.clusterOf = cl → p.2.wait = .run) →
        Maps.wf s.strands = true → s.victim st = false →
        let recs := s.savableIn cl
        let bytes := recs.flatMap fun q => (s.strand q).elim [] Strand.entry
        let ps := blockPieces v bytes (bytes.length / 64 + 1)
        ∀ pl : Word → Place, (∀ x ∈ ps, s.xlate (coreCluster st.home) true x.1 2 = .ok (pl x.1)) →
          (∀ x ∈ ps, s.roomFor (unitCore st.home) (homeOf (pl x.1)) (ps.filter fun y => homeOf (pl y.1) == homeOf (pl x.1)).length = true) →
          recs.length < 65536 → bytes.length < 2 ^ 32 →
          ∃ t st', exec (.saverec f rd ra rb) s = .next t ∧ t.strand r = some st' ∧ st'.pc = st.pc + BitVec.ofNat 32 f.len ∧
            st'.regs = st.regs.set rd.toNat (BitVec.ofNat 64 (recs.length * 2 ^ 32 + bytes.length)) rd.isLt ∧
            (∀ q x, q ∈ recs → s.strand q = some x → ∃ y, t.strand q = some y ∧ y.loc = .saved (clusterDie cl) cl ∧ y.regs = x.regs ∧ y.pc = x.pc) ∧
            t.savePool = s.savePool.filter (fun q => !recs.contains q) ++ recs ∧
            ∀ x ∈ ps, ∃ k o, t.onWay k o ∧ o.h = x.1 ∧ o.place = pl x.1 ∧ o.asker = .batch ∧
              o.kind = .write (BitVec.ofNat 12 x.1.toNat) x.2.length (Payload.ofBytes x.2) false)) ∧
    ∀ (l b : List Byte), v.toNat % 64 = 0 → st.handing = none → s.entryBytes st (coreCluster st.home) v 4 3 = .inl l →
      let done := ((gd s (leNat l)).strand r).map fun y => { y with loaded := [] }
      s.entryBytes st (coreCluster st.home) v (leNat l) 10 = .inl b → 256 ≤ leNat l → leNat l ≤ 32768 → leNat l % 64 = 0 → entryBad b = false →
      (Maps.get s.images (recField b 0xE4 2)).isSome = true → (s.cluster cl).waiting = [] →
      (∀ q x, s.savePool.find? (fun q => (s.strand q).any fun y => y.entry == b) = some q → s.strand q = some x → q ≠ r →
        (s.queueRoom cl q = true → ∃ t, exec (.loadrec f rd ra rb) s = .next t ∧
          t.strand q = some { x with loc := .queue cl, wait := .run } ∧ (t.cluster cl).queue = (s.cluster cl).queue.filter (· != q) ++ [q] ∧
          q ∉ t.savePool ∧ t.strand r = done) ∧
        (s.queueRoom cl q = false → q ∉ (s.cluster cl).queue → ∃ t, exec (.loadrec f rd ra rb) s = .next t ∧
          t.strand q = some { x with loc := .arriving cl, wait := .run } ∧ (t.cluster cl).waiting = [q] ∧
          t.strand r = some { st with handing := some q })) ∧
      (s.savePool.find? (fun q => (s.strand q).any fun y => y.entry == b) = none → r ≠ s.fresh + 1 → s.node (entryStrand b 0).node = none →
        (s.cluster cl).queue.length < 64 → ∃ t x, exec (.loadrec f rd ra rb) s = .next t ∧ t.strand (s.fresh + 1) = some x ∧
          x.loc = .queue cl ∧ x.regs = (entryStrand b 0).regs ∧ x.pc = (entryStrand b 0).pc ∧ x.window = (entryStrand b 0).window ∧
          x.vecs = (entryStrand b 0).vecs ∧ x.tags = (entryStrand b 0).tags ∧ x.tiles = (entryStrand b 0).tiles ∧
          t.strand r = done)

/-- Bring-up, supply, the Bellows, idle states, errors, self-tests and the loss of a die (R15, R16, R187, R363, R367, R371, R372, R376, R378, R380, R382, R390). POWER_GOOD ends the step that STAGE shows: the first flash copy whose stage-1 component verifies runs, with FAIL the last reason; the others are verified and measured; the hearth, the dies and the fibres are found as the event says; then READY, with plan 0 as provisioned if it passes its tests, and ROLLBACK at the floor (or, when another module leads the domain, a request for the plan), else RECOVERY. COLD_RESET leaves the reset state but for flash, fuses, retired units and a supply fault, which holds the dies in S3 until it is over; one before the Keep runs is not reported. BELLOWS_PERIOD shares the current by demand above the floors (with no demand, the floors), caps it, and sets the matrix budget. A unit whose condition and tolerance allow it enters its next idle state, without a grant, and leaves it at once. A corrected error is logged; an uncorrected one of a copy drops that copy, one of a strand ends its instance with MCHECK, and one at a block poisons it only if it strikes the generation it was lost from. A unit with an error since its last test is tested, the instances of its cluster making way, returns when it passes without lasting errors, and else is retired: a core by its spare, or with its cluster; a cluster by a spare site, which brings a spare core of its own; a wavelength with its fibre once that has no spare, a pseudo-channel with the die that drives its stack. RFM_ALERT counts its delay when a row of the stack has reached its threshold, whose count it ends; a scrub counts an activation and logs what it finds, but while its die is in S3 does nothing; a lost die is out of service with its stacks on their second port. (The model's choices: plan 0, log entry 91; what FAIL holds and what a step finds, log entry 93; the floors, log entry 94; outcomes, spares and lasting errors, log entry 57; the lost die, log entry 58; dies held in S3, log entry 59; the supply report, log entry 83; one event for each step of bring-up, log entry 4; rows, log entry 95.) -/
def Obligations.ServiceAndBringUp : Prop :=
  ∀ (s : State),
    (∀ o : BootOutcome, s.supplyOk = true →
      let why := fun (roll : Word) (copy : List Component) (n : Nat) => (match copy[n]? with
        | none => 4
        | some c => if c.readable = false then 4 else if c.signed = false then 1 else if c.version.toNat < popcount roll.toNat 64 then 2
          else if c.number.toNat ≠ n then 3 else 0 : BitVec 8)
      let hash := fun (copy : List Component) (n : Nat) => shake32 ((copy[n]?).elim [] Component.bytes)
      let floor := fun copy : List Component => (copy[0]?).elim 0 Component.floor
      let copy := if s.boot.copyB then o.copyB else o.copyA
      let up := fun i : Fin 8 => (s.dies[i]).alive ∧ o.dies.getLsbD i.val = true ∧
        ∃ c : BitVec 9, (clusterDie c).toNat = i.val ∧ s.inService c = true
      (s.boot.stage = 0 → ∃ t, exec (.powerGood o) s = .next t ∧
        let module := (s.flashReg 0x10000).toNat
        let roll := s.rollback ||| Config.rollback
        t.modNo = BitVec.ofNat 8 module ∧ t.modSet = (decide (module / 256 % 2 = 1)) ∧ t.leader = BitVec.ofNat 8 (s.flashReg 0x10028).toNat ∧
        t.domain = s.flashReg 0x10020 ++ s.flashReg 0x10018 ++ s.flashReg 0x10010 ++ s.flashReg 0x10008 ∧ t.rollback = roll ∧
        (why roll o.copyA 0 = 0 → t.boot = { s.boot with stage := 1, copyB := false, floor := floor o.copyA } ∧ t.measure[0] = hash o.copyA 0) ∧
        (why roll o.copyA 0 ≠ 0 → why roll o.copyB 0 = 0 → t.measure[0] = hash o.copyB 0 ∧
          t.boot = { s.boot with stage := 1, copyB := true, fail := why roll o.copyA 0, floor := floor o.copyB }) ∧
        (why roll o.copyA 0 ≠ 0 → why roll o.copyB 0 ≠ 0 → t.boot = { s.boot with stage := 15, fail := why roll o.copyB 0 })) ∧
      (s.boot.stage = 1 → ∃ t, exec (.powerGood o) s = .next t ∧
        let all := ∀ n : Fin 5, why s.rollback copy (n.val + 1) = 0
        (all → t.boot = { s.boot with stage := 2 } ∧ ∀ n : Fin 5, t.measure[n.val + 1] = hash copy (n.val + 1)) ∧
        (¬all → s.boot.copyB = true → t.boot.stage = 15 ∧ ∃ n : Fin 5, t.boot.fail = why s.rollback copy (n.val + 1) ∧ t.boot.fail ≠ 0) ∧
        (¬all → s.boot.copyB = false → t.boot.copyB = decide (why s.rollback o.copyB 0 = 0) ∧
          t.boot.stage = if why s.rollback o.copyB 0 = 0 then 1 else 15)) ∧
      (s.boot.stage = 2 →
        (o.hearth = false → exec (.powerGood o) s = .next { s with boot := { s.boot with stage := 15 } }) ∧
        (o.hearth = true → o.failed = [] → exec (.powerGood o) s = .next { s.remeasure with boot := { s.boot with stage := 3 } })) ∧
      (s.boot.stage = 3 ∨ s.boot.stage = 4 → o.failed = [] → ∃ t, exec (.powerGood o) s = .next t ∧
        (∀ i : Fin 8, ((t.dies[i]).alive = true ↔ up i) ∧ ((t.dies[i]).secondPort = true ↔ ¬up i)) ∧
        ((∃ i, up i) → t.boot = { s.boot with stage := s.boot.stage + 1 }) ∧ ((¬∃ i, up i) → t.boot = { s.boot with stage := 15 })) ∧
      (s.boot.stage = 5 → s.boot.wantsPlan = false → o.fibres = BitVec.allOnes 64 → ∃ t, exec (.powerGood o) s = .next t ∧
        (let plan : FMap (BitVec 16) := o.plan0.foldl (fun m e => if e.2 &&& 0x80FF = 0 ∨ 16384 ≤ e.1 then m else Maps.put m e.1 (e.2 &&& 0x80FF)) []
         let with0 : State := { s with plans := Maps.put s.plans 0 plan }
         t.plans = Maps.put s.plans 0 (if s.modSet = true ∧ with0.planOk 0 = true then plan else [])) ∧ t.tgen = s.tgen ∧
        (s.modSet = false ∨ s.leader = s.modNo → t.boot.stage = 7 ∧ t.boot.copyB = s.boot.copyB ∧ t.boot.fail = s.boot.fail ∧
          t.outbox = s.outbox ∧ t.rollback &&& s.rollback = s.rollback ∧ min 64 s.boot.floor.toNat ≤ popcount t.rollback.toNat 64) ∧
        (s.modSet = true → s.leader ≠ s.modNo → t.boot = { s.boot with wantsPlan := true } ∧ t.rollback = s.rollback ∧
          t.outbox = s.outbox ++ [.domainMsg s.leader .planRequest]))) ∧
    exec .coldReset s = .next { State.reset with
      tick := s.tick, schedule := s.schedule, fresh := s.fresh, outbox := s.outbox, flash := s.flash, rollback := s.rollback
      enrolLock := s.enrolLock, supplyOk := s.supplyOk, keepSize := s.keepSize, badClusters := s.badClusters, spareUse := s.spareUse
      dies := State.reset.dies.map fun d => if s.supplyOk then d else { d with idle := 3 }
      fibresUp := s.tests.foldl (fun v t => if t.unit.unit = 9 then v ||| (1#64 <<< UnitId.fibre t.unit) else v) s.fibresUp
      modNo := BitVec.ofNat 8 (s.flashReg 0x10000).toNat, modSet := decide ((s.flashReg 0x10000).toNat / 256 % 2 = 1)
      domain := s.flashReg 0x10020 ++ s.flashReg 0x10018 ++ s.flashReg 0x10010 ++ s.flashReg 0x10008
      leader := BitVec.ofNat 8 (s.flashReg 0x10028).toNat } ∧
    (s.supplyOk = true → s.boot.stage.toNat < 2 ∨ s.boot.stage = 15 → exec .supplyFault s = .next { s with supplyOk := false }) ∧
    (s.supplyOk = true → 2 ≤ s.boot.stage.toNat → s.boot.stage ≠ 15 → exec .supplyFault s = .next (State.emit { s with
      supplyOk := false, dies := s.dies.map fun d => if d.alive then { d with idle := 3, grant := (0, 1), budget := 0 } else d } .supplyReport)) ∧
    (s.supplyOk = false → exec .supplyRestored s = .next { s with
      supplyOk := true, dies := s.dies.map fun d => if d.alive then { d with idle := 0 } else d }) ∧
    (∀ (want : List Nat) (hbm : Nat),
      let on := fun i : Fin 8 => (s.dies[i]).alive && decide ((s.dies[i]).idle.toNat < 2)
      let active := (List.finRange 8).filter on
      let rest := 7070 - 150 * active.length
      let total := (active.map fun i => want.getD i.val 0).sum + hbm
      let watts := fun floor d cap : Nat => if total = 0 then min (cap : ℚ) floor else min (cap : ℚ) (floor + rest * d / total)
      let val := fun x : Nat × Nat => (x.1 : ℚ) / x.2
      ∃ t, exec (.bellowsPeriod want hbm) s = .next t ∧ val t.hbmGrant = watts 600 hbm 2600 ∧ t.strands = s.strands ∧ t.cores = s.cores ∧
        (∀ i : Fin 8, if on i then val (t.dies[i]).grant = watts 150 (want.getD i.val 0) 650 ∧
            ((t.dies[i]).budget : ℤ) = min 312 (max 0 ⌊312 * (watts 150 (want.getD i.val 0) 650 - 150) / 500⌋)
          else (t.dies[i]).budget = 0 ∧ (t.dies[i]).grant = (0, 1)) ∧
        ∀ a, t.anvil a = { s.anvil a with spent := 0 }) ∧
    (∀ (k : BitVec 13) (d : BitVec 3),
      let x := s.die d
      let tol := (s.dieTol[d.toNat]'(d.isLt)).toNat
      (s.coreQuiet k = true → k.toNat ∉ s.idleCores → exec (.idleStateEntry (.core k)) s = .next { s with idleCores := s.idleCores ++ [k.toNat] }) ∧
      exec (.idleStateExit (.core k)) s = .next { s with idleCores := s.idleCores.filter (· != k.toNat) } ∧
      (x.alive = true → x.idle = 0 → s.dieQuiet d = true → 10 ≤ tol → exec (.idleStateEntry (.die d)) s = .next
        (s.setDie d { x with idle := 2, grant := (0, 1), budget := 0 })) ∧
      (x.alive = true → x.idle = 2 → s.dieEmpty d = true → 300 ≤ tol → ∃ t, exec (.idleStateEntry (.die d)) s = .next t ∧
        t.die d = { x with idle := 3, grant := (0, 1), budget := 0 } ∧ t.strands = s.strands ∧
        ∀ c, clusterDie c = d → (t.cluster c).copies = []) ∧
      (s.supplyOk = true → exec (.idleStateExit (.die d)) s = .next ({ s with modState := 0 }.setDie d { x with idle := 0 })) ∧
      ((∀ i : Fin 8, (s.dies[i]).alive = false ∨ (s.dies[i]).idle = 3) → 20000 ≤ s.modTol.toNat → (∀ p ∈ s.qps, p.2.msgs = []) →
        exec (.idleStateEntry .module) s = .next { s with modState := 4 }) ∧
      exec (.idleStateExit .module) s = .next { s with modState := 0 }) ∧
    (∀ e : ErrorReport,
      let hearth := e.unit.unit = 8 ∨ e.unit.unit = 9
      let cycle := if hearth then (if e.unit.die.toNat % 2 = 1 then s.hearth[1] else s.hearth[0]) else (s.die e.unit.die).cycle
      let word : Word := BitVec.ofNat 64 (2 ^ 32 * e.syndrome.toNat + 2 ^ 17 * e.unit.index.toNat + 2 ^ 11 * e.unit.cluster.toNat
        + 2 ^ 8 * e.unit.die.toNat + e.unit.unit.toNat)
      let record := fun kind : BitVec 8 => (cycle ++ 0#48 ++ 0#8 ++ kind ++ e.addr ++ word : BitVec 256)
      (e.corrected = true → ∃ t, exec (.errorReport e) s = .next t ∧ t.errHead = s.errHead + 1 ∧ t.strands = s.strands ∧ t.hbm = s.hbm ∧
        t.clusters = s.clusters ∧ Maps.get t.errLog (s.errHead.toNat % 1024) = some (record 0)) ∧
      (∀ r st nd i, e.corrected = false → e.target = .strand r → s.strand r = some st → s.node st.node = some nd → s.inst nd.inst = some i →
        Maps.wf s.strands = true → (∀ c pins p, st.wait ≠ .command c true pins p) → ∃ t, exec (.errorReport e) s = .next t ∧ t.errHead = s.errHead + 1 ∧ t.strand r = none ∧
          Maps.get t.errLog (s.errHead.toNat % 1024) = some (record 1)) ∧
      (∀ cl vbn gen, e.corrected = false → e.target = .copy cl vbn gen → ∃ t, exec (.errorReport e) s = .next t ∧ t.errHead = s.errHead + 1 ∧
        (t.cluster cl).copies = Maps.del (s.cluster cl).copies (vbn.toNat * 4096 + gen.toNat) ∧ ∀ c, c ≠ cl → t.cluster c = s.cluster c) ∧
      ∀ cl blk gen, e.corrected = false → e.target = .block cl blk gen false →
        let b := s.stateAt cl blk
        (b.gen ≠ gen → ∃ t, exec (.errorReport e) s = .next t ∧ t.errHead = s.errHead + 1 ∧ t.clusters = s.clusters ∧
          Maps.get t.errLog (s.errHead.toNat % 1024) = some (record 1)) ∧
        (b.gen = gen → b.poisoned = false → ∃ t, exec (.errorReport e) s = .next t ∧ t.errHead = s.errHead + 1 ∧
          Maps.get t.errLog (s.errHead.toNat % 1024) = some (record 2))) ∧
    (∀ (u : UnitId) (k : Nat), s.recordOf u = some k → 1 ≤ u.unit.toNat → u.unit.toNat ≤ 10 → (∀ t ∈ s.tests, UnitId.same t.unit u = false) →
      (k < Maps.getD s.tested (UnitId.key u) 0 → exec (.selfTestStart u) s = .next s) ∧
      (Maps.getD s.tested (UnitId.key u) 0 ≤ k → ∃ t, exec (.selfTestStart u) s = .next t ∧ t.tests = s.tests ++ [{
          unit := u, record := Maps.getD s.tested (UnitId.key u) 0, second := false
          moved := if u.unit = 4 ∨ u.unit = 10 then s.instsIn (u.die ++ u.cluster) else [] }] ∧
        (u.unit = 9 → t.fibresUp = s.fibresUp &&& ~~~(1#64 <<< (32 * (u.die.toNat % 2) + u.index.toNat % 32))) ∧
        (u.unit = 4 ∨ u.unit = 10 → ∀ r st nd i, s.strand r = some st → st.clusterOf = u.die ++ u.cluster → s.node st.node = some nd →
          s.inst nd.inst = some i → (t.inst nd.inst).map Instance.quenched = some true))) ∧
    (∀ (u : UnitId) (x : Test), s.tests.find? (fun t => UnitId.same t.unit u) = some x → u.unit ≠ 9 → x.second = false →
      (∀ c b a l, (Maps.getD s.errTimes (UnitId.key u) []).reverse = c :: b :: a :: l → 172800000000000 < (c - a).toNat) →
      ∃ l, exec (.selfTestComplete u true) s = .next { s with
          tests := s.tests.filter (fun t => !UnitId.same t.unit u), errLog := l, tested := Maps.put s.tested (UnitId.key u) s.errHead.toNat } ∧
        ∀ slot rec, Maps.get s.errLog slot = some rec →
          let entered := UnitId.names u rec = true ∧ ∃ j, x.record ≤ j ∧ j < s.errHead.toNat ∧ j % 1024 = slot
          (entered → Maps.get l slot = some (rec.extractLsb' 144 112 ++ 0#8 ++ rec.extractLsb' 0 136)) ∧
          (¬entered → Maps.get l slot = some rec)) ∧
    (∀ (u : UnitId) (x : Test), s.tests.find? (fun t => UnitId.same t.unit u) = some x → u.unit = 7 →
      1 ≤ Maps.getD s.spareUse (7 + 16 * (u.die.toNat + 8 * u.index.toNat)) 0 → ∃ t, exec (.selfTestComplete u false) s = .next t ∧
        (t.die (if (s.die u.die).secondPort then u.die ^^^ 4 else u.die)).alive = false) ∧
    (∀ (u : UnitId) (x : Test), s.tests.find? (fun t => UnitId.same t.unit u) = some x → u.unit = 1 → s.inService (u.die ++ u.cluster) = true →
      let key := 1 + 16 * (u.die ++ u.cluster : BitVec 9).toNat
      ∃ t, exec (.selfTestComplete u false) s = .next t ∧ (∀ y ∈ t.tests, UnitId.same y.unit u = false) ∧
        (Maps.getD s.spareUse key 0 = 0 → t.spareUse = Maps.put s.spareUse key 1 ∧ t.badClusters = s.badClusters) ∧
        (1 ≤ Maps.getD s.spareUse key 0 → (u.die ++ u.cluster : BitVec 9).toNat ∈ t.badClusters)) ∧
    (∀ (u : UnitId) (x : Test), s.tests.find? (fun t => UnitId.same t.unit u) = some x → u.unit = 4 → Maps.getD s.spareUse (10 + 16 * u.die.toNat) 0 < 2 →
      Maps.wf s.spareUse = true → s.inService (u.die ++ u.cluster) = true → ∃ t, exec (.selfTestComplete u false) s = .next t ∧
        t.badClusters = s.badClusters ∧ Maps.getD t.spareUse (10 + 16 * u.die.toNat) 0 = Maps.getD s.spareUse (10 + 16 * u.die.toNat) 0 + 1 ∧
        ∀ j ∈ [1, 2], Maps.getD t.spareUse (j + 16 * (u.die ++ u.cluster : BitVec 9).toNat) 0 = 0) ∧
    (∀ (u : UnitId) (x : Test), s.tests.find? (fun t => UnitId.same t.unit u) = some x → u.unit = 8 →
      let k := 32 * (u.die.toNat % 2) + u.index.toNat % 32
      ∃ t, exec (.selfTestComplete u false) s = .next t ∧
        (Maps.getD s.spareUse (8 + 16 * k) 0 = 0 → t.fibresUp = s.fibresUp ∧ Maps.getD t.spareUse (8 + 16 * k) 0 = 1) ∧
        (1 ≤ Maps.getD s.spareUse (8 + 16 * k) 0 → t.fibresUp = s.fibresUp &&& ~~~(1#64 <<< k))) ∧
    (∀ (stack : BitVec 5) (line : BitVec 30) (n : Nat),
      let d := if (s.die (stack.extractLsb' 2 3)).secondPort then stack.extractLsb' 2 3 ^^^ 4 else stack.extractLsb' 2 3
      let blk := stack.toNat * 2 ^ 24 + line.toNat / 64
      let hot := fun p : Nat × Nat => p.1 / 2 ^ 24 = stack.toNat ∧ Config.rowThreshold stack.toNat ≤ p.2
      ((s.die d).idle = 3 → ∀ bad, exec (.hbmScrub stack line bad) s = .next s) ∧
      ((s.die d).idle ≠ 3 →
        exec (.hbmScrub stack line false) s = .next { s with rowActs := Maps.put s.rowActs blk (Maps.getD s.rowActs blk 0 + 1) } ∧
        ∃ t, exec (.hbmScrub stack line true) s = .next t ∧ t.errHead = s.errHead + 1) ∧
      ((∀ p ∈ s.rowActs, ¬hot p) → exec (.rfmAlert stack n) s = .next s) ∧
      ((∃ p ∈ s.rowActs, hot p) → Maps.wf s.rowActs = true → ∃ t, exec (.rfmAlert stack n) s = .next t ∧
        t.die d = { s.die d with perf8 := (s.die d).perf8 + BitVec.ofNat 64 n } ∧ (∀ p, p ∈ t.rowActs ↔ p ∈ s.rowActs ∧ ¬hot p) ∧
        t.strands = s.strands ∧ t.hbm = s.hbm)) ∧
    ∀ d : BitVec 3, (s.die d).alive = true → ∃ t, exec (.dieFailure d) s = .next t ∧ (t.die d).alive = false ∧ (t.die d).secondPort = true ∧
      (∀ k : Fin 4, (t.die d).ready[k] = []) ∧ (∀ c, (t.cluster c).tlb = [])

/-- After cold reset no object exists, the store is 1.5 MiB of L2, ring weights are 1, counters 0 and tolerances as stated (R5, R221, R232, R328, R362, R385, R388, R390). In the state after reset there is no session, instance, image, graph, region or queue pair; BOOTSTATUS, TRACESEL, the heads of both logs and TGEN read 0; every cluster has 12 L2 units, so 128 scratchpad slots, and no resident block, log or translation; every core's ring weight is 1 and its performance counters are 0; the tolerance is 1 microsecond for each die and 0 for the module. That no line of HBM has metadata stored yet (every line reads as a correct line of zeros) is the model's choice, log entry 11. -/
def Obligations.ResetLeavesStatedValues : Prop :=
  let s := State.reset
  s.sessions = [] ∧ s.instances = [] ∧ s.nodes = [] ∧ s.strands = [] ∧ s.images = [] ∧ s.graphs = [] ∧ s.regions = [] ∧ s.qps = [] ∧
  s.regRead 0x18 = some 0 ∧ s.regRead 0x10060 = some 0 ∧ s.regRead 0x10048 = some 0 ∧ s.regRead 0x10050 = some 0 ∧ s.tgen = 0 ∧
  (∀ c, (s.cluster c).l2units = 12 ∧ (s.cluster c).padSlots = 128 ∧ (s.cluster c).res = [] ∧ (s.cluster c).logs = [] ∧ (s.cluster c).tlb = [] ∧
    (s.cluster c).perf4 = 0 ∧ (s.cluster c).perf7 = 0) ∧
  (∀ k, (s.core k).ringwt = 1 ∧ (s.core k).perf0 = 0 ∧ (s.core k).perf1 = 0 ∧ (s.core k).perf5 = 0) ∧
  (∀ a, (s.anvil a).perf2 = 0 ∧ (s.anvil a).perf3 = 0) ∧ (∀ d, (s.die d).perf6 = 0 ∧ (s.die d).perf8 = 0) ∧
  (∀ d : Fin 8, s.dieTol[d] = 1) ∧ s.modTol = 0 ∧ s.lantern = [] ∧ s.hbmMeta = []

/-- The invariant holds after reset (R5, R380, R388). In the state after reset HBM and every core-private store are in canonical form and BOOTSTATUS.STAGE is a stage of the sequence (0). That memory lists nothing is the model's choice: log entries 9 and 11. -/
def Obligations.ResetMeetsTheInvariant : Prop :=
  State.reset.Inv

/-- Every step keeps memory canonical and the boot stage legal (R23, R70, R121, R198, R227, R380, R384, R386). From every state in which HBM and every core-private store are in canonical form and BOOTSTATUS.STAGE is at most 7, or 15, a step that answers a next state leaves a state of which the same holds: no instruction, trap or event leaves memory out of its form, or BOOTSTATUS.STAGE at a value that the sequence does not have. -/
def Obligations.StepKeepsTheInvariant : Prop :=
  ∀ s t : State, s.Inv → step s = .next t → t.Inv

/-- No step of the machine stops (R101, R103, R316, R319, R365). From every state, reached or not, a step answers a next state, never a fault or a refusal: what the part reports it reports by a trap, a status, a fault queue or the end of an instance, and the turn of a core always has an instruction of its strand to run or passes unused. -/
def Obligations.EveryStepGoesOn : Prop :=
  ∀ s : State, s.goesOn

/-- An instruction whose guard does not hold only moves the pc past its words, whatever its class (R83, R85, R87). For every instruction of the five classes - scalar, sync and system, window, block, vector, tile, matrix and fabric, and those with a literal - whose guard names a bit that is not as it asks: exec answers the state in which the pc of the strand has passed the words of the instruction (12 bytes, 20 with a literal; a guard stands only in the extended form) and nothing else has changed: no register, no field, no memory, no request, no trap. -/
def Obligations.FalseGuardMovesThePc : Prop :=
  ∀ (f : Form) (wf : WForm) (o : XOp) (a b c : BitVec 4) (u v w x : BitVec 6) (i : BitVec 12) (j : BitVec 12) (k : BitVec 8) (z : BitVec 2) (t : BitVec 3)
    (x1 : Bool) (lit : Word) (s : State) (r : Nat) (st : Strand), s.issuing = some (r, st) →
    let passed : Nat → Host.Outcome State Fault Refusal := fun n => .next (s.setStrand r { st with pc := st.pc + BitVec.ofNat 32 n })
    (st.guardOk f.gd = false →
      (∀ q ∈ ([.add f a b c, .sub f a b c, .mul f a b c, .mulh f a b c, .mulhu f a b c, .div f a b c, .divu f a b c, .rem f a b c,
      .remu f a b c, .and f a b c, .or f a b c, .xor f a b c, .andn f a b c, .shl f a b c, .shr f a b c, .sra f a b c,
      .ror f a b c, .min f a b c, .max f a b c, .minu f a b c, .maxu f a b c, .pmk f a b c, .padd f a b c, .pidx f a b c,
      .psub f a b c, .pgen f a b c, .pfld f a b c, .clz f a b, .ctz f a b, .popc f a b, .brev f a b, .abs f a b, .mov f a b,
      .pinc f a b, .pblk f a b, .jalr f a b, .sext f a b u, .zext f a b u, .shli f a b u, .shri f a b u, .srai f a b u,
      .rori f a b u, .bset f a b u, .bclr f a b u, .binv f a b u, .addi f a b i, .andi f a b i, .ori f a b i, .xori f a b i,
      .paddi f a b i, .movi f a (i ++ k), .movhi f a (i ++ k), .bz f a (i ++ k), .bnz f a (i ++ k), .dbnz f a (i ++ k),
      .bfx f a b u v, .bfxu f a b u v, .bfi f a b u v, .ceq f a b c u, .cne f a b c u, .clt f a b c u, .cltu f a b c u,
      .cle f a b c u, .cleu f a b c u, .bmov f a b c u, .sel f a b c u, .ceqi f a b k u, .clti f a b k u, .j f (i ++ j),
      .jal f (i ++ j), .jr f a, .bbs f a u (k ++ v), .bbc f a u (k ++ v), .ldl f z a b i, .ldlu f z a b i, .stl f z a b i,
      .nop f, .yield f, .endStrand f, .spawn f a b c, .saverec f a b c, .loadrec f a b c, .mapb f a b c, .perf f a b,
      .join f a, .wrsrPartition f a, .xbset f a, .ovld f a, .idle f a, .fence f t, .bsel f z, .bclose f a z x1, .fork f a t,
      .trap f k, .rett f x1, .rdsr f a k, .wrsr f a k, .tlbi f a x1] : List Instr), exec q s = passed f.len) ∧
      (∀ q ∈ ([.addiLiteral f a b lit, .andiLiteral f a b lit, .oriLiteral f a b lit, .xoriLiteral f a b lit, .ldk f a lit,
      .ceqiLiteral f a b u lit, .cltiLiteral f a b u lit] : List Instr), exec q s = passed f.litLen)) ∧
    (st.guardOk wf.gd = false →
      ∀ q ∈ ([.fadd wf u v w, .fsub wf u v w, .fmul wf u v w, .fdiv wf u v w, .fmin wf u v w, .fmax wf u v w, .fsqrt wf u v,
      .fabs wf u v, .fneg wf u v, .wmov wf u v, .fcvti wf u v, .fcvtf wf u v, .ffma wf u v w x, .ffms wf u v w x,
      .fclt wf u v a w, .fcle wf u v a w, .fceq wf u v a w, .wget wf a u, .wput wf u a, .wldl wf u a i, .wstl wf u a i] : List Instr), exec q s = passed wf.len) ∧
    (st.guardOk o.gd = false →
      (∀ q ∈ ([.ld o, .ldv o, .wld o, .st o, .stv o, .fill o, .wait o, .probe o, .seal o, .seale o, .arm o, .clr o, .clrx o, .rel o,
      .genr o, .acc o, .acct o, .acnt o, .pref o, .discard o, .migr o, .cpy o, .cpys o, .cpyx o, .cpyh o, .hadd o, .hcas o,
      .vadd o, .vsub o, .vmul o, .vfma o, .vfms o, .vmin o, .vmax o, .vabs o, .vneg o, .vand o, .vor o, .vxor o, .vshl o,
      .vshr o, .vsra o, .vcvt o, .vscl o, .vrcp o, .vrsq o, .vexp2 o, .vlog2 o, .vtanh o, .vred o, .vcmp o, .vsel o,
      .vperm o, .vbcast o, .vins o, .vext o, .viota o, .vzero o, .vtag o, .vsettToDescriptor o, .vsettFromDescriptor o,
      .vpack o, .vunpk o, .tacq o, .trel o, .tzero o, .tld o, .tst o, .taddr o, .taddc o, .tscl o, .tmaxr o, .tsumr o,
      .texpr o, .trdv o, .twrv o, .mma o, .mmas o, .mmai o, .topk o, .topkm o, .send o, .chmk o, .rcir o, .tgenr o] : List Instr), exec q s = passed 12) ∧
      ∀ q ∈ ([.fillLiteral o lit, .vbcastLiteral o lit] : List Instr), exec q s = passed 20)
end

