-- ==== Sys2Proof/Laws/Memory.lean ====
section
/-!
SUPPORT. Laws of sparse tables and byte memories: what a read finds after an update, and that every memory operation keeps
the canonical form.
-/
namespace Sys2Proof.Machine

/-- Every key of the table lies above `k`. -/
def Maps.above {α : Type} (k : Nat) (m : FMap α) : Prop := ∀ p ∈ m, k < p.1

theorem Maps.wf_cons {α : Type} (a : Nat) (v : α) (m : FMap α) : Maps.wf ((a, v) :: m) = true ↔ Maps.above a m ∧ Maps.wf m = true := by
  induction m generalizing a v with
  | nil => simp [Maps.wf, Maps.above]
  | cons p r ih =>
    obtain ⟨b, w⟩ := p
    have h := ih b w
    simp only [Maps.wf, Bool.and_eq_true, decide_eq_true_eq, h, Maps.above, List.mem_cons, forall_eq_or_imp]
    constructor
    · rintro ⟨hab, hb, hr⟩
      exact ⟨⟨hab, fun q hq => Nat.lt_trans hab (hb q hq)⟩, hb, hr⟩
    · rintro ⟨⟨hab, -⟩, hb, hr⟩
      exact ⟨hab, hb, hr⟩

theorem Maps.above_get {α : Type} (m : FMap α) (k a : Nat) (h : Maps.above k m) (ha : a ≤ k) : Maps.get m a = none := by
  induction m with
  | nil => rfl
  | cons p r ih =>
    have hp := h p (List.mem_cons_self ..)
    have hne : p.1 ≠ a := by omega
    simpa [Maps.get, hne] using ih fun q hq => h q (List.mem_cons_of_mem _ hq)

theorem Maps.above_put {α : Type} (m : FMap α) (k a : Nat) (v : α) (h : Maps.above a m) (hk : a < k) : Maps.above a (Maps.put m k v) := by
  induction m with
  | nil => simpa [Maps.put, Maps.above] using hk
  | cons p r ih =>
    have hr : Maps.above a r := fun q hq => h q (List.mem_cons_of_mem _ hq)
    have hp := h p (List.mem_cons_self ..)
    unfold Maps.put
    intro q hq
    split at hq
    · rcases List.mem_cons.1 hq with rfl | hq
      · exact hk
      · exact h q hq
    · split at hq
      · rcases List.mem_cons.1 hq with rfl | hq
        · exact hk
        · exact hr q hq
      · rcases List.mem_cons.1 hq with rfl | hq
        · exact hp
        · exact ih hr q hq

theorem Maps.above_del {α : Type} (m : FMap α) (k a : Nat) (h : Maps.above a m) : Maps.above a (Maps.del m k) := by
  induction m with
  | nil => exact h
  | cons p r ih =>
    have hr : Maps.above a r := fun q hq => h q (List.mem_cons_of_mem _ hq)
    unfold Maps.del
    split
    · exact hr
    · intro q hq
      rcases List.mem_cons.1 hq with hq | hq
      · exact hq ▸ h p (List.mem_cons_self ..)
      · exact ih hr q hq

theorem Maps.wf_put {α : Type} (m : FMap α) (k : Nat) (v : α) (h : Maps.wf m = true) : Maps.wf (Maps.put m k v) = true := by
  induction m with
  | nil => rfl
  | cons p r ih =>
    obtain ⟨a, w⟩ := p
    obtain ⟨ha, hr⟩ := (Maps.wf_cons a w r).1 h
    unfold Maps.put
    split
    · rename_i hk
      refine (Maps.wf_cons k v _).2 ⟨fun q hq => ?_, h⟩
      rcases List.mem_cons.1 hq with rfl | hq
      · exact hk
      · exact Nat.lt_trans hk (ha q hq)
    · split
      · rename_i hk
        exact (Maps.wf_cons k v r).2 ⟨hk ▸ ha, hr⟩
      · rename_i h1 h2
        exact (Maps.wf_cons a w _).2 ⟨Maps.above_put r k a v ha (by omega), ih hr⟩

theorem Maps.wf_del {α : Type} (m : FMap α) (k : Nat) (h : Maps.wf m = true) : Maps.wf (Maps.del m k) = true := by
  induction m with
  | nil => rfl
  | cons p r ih =>
    obtain ⟨a, w⟩ := p
    obtain ⟨ha, hr⟩ := (Maps.wf_cons a w r).1 h
    unfold Maps.del
    split
    · exact hr
    · exact (Maps.wf_cons a w _).2 ⟨Maps.above_del r k a ha, ih hr⟩

theorem Maps.get_put_same {α : Type} (m : FMap α) (k : Nat) (v : α) : Maps.get (Maps.put m k v) k = some v := by
  induction m with
  | nil => simp [Maps.put, Maps.get]
  | cons p r ih =>
    unfold Maps.put
    split
    · simp [Maps.get]
    · split
      · simp [Maps.get]
      · rename_i h1 h2
        simp [Maps.get, h2, ih]

theorem Maps.get_put_other {α : Type} (m : FMap α) (k a : Nat) (v : α) (h : a ≠ k) : Maps.get (Maps.put m k v) a = Maps.get m a := by
  induction m with
  | nil => simp [Maps.put, Maps.get, Ne.symm h]
  | cons p r ih =>
    unfold Maps.put
    split
    · simp [Maps.get, Ne.symm h]
    · split
      · rename_i h1 h2
        simp [Maps.get, h2, Ne.symm h]
      · simp [Maps.get, ih]

theorem Maps.get_del_other {α : Type} (m : FMap α) (k a : Nat) (h : a ≠ k) : Maps.get (Maps.del m k) a = Maps.get m a := by
  induction m with
  | nil => rfl
  | cons p r ih =>
    unfold Maps.del
    split
    · rename_i h2
      simp [Maps.get, h2, Ne.symm h]
    · simp [Maps.get, ih]

theorem Maps.get_del_same {α : Type} (m : FMap α) (k : Nat) (h : Maps.wf m = true) : Maps.get (Maps.del m k) k = none := by
  induction m with
  | nil => rfl
  | cons p r ih =>
    obtain ⟨a, w⟩ := p
    obtain ⟨ha, hr⟩ := (Maps.wf_cons a w r).1 h
    unfold Maps.del
    split
    · rename_i h2
      exact Maps.above_get r a k ha (by simp_all)
    · rename_i h2
      simp_all [Maps.get]

theorem Maps.mem_put {α : Type} (m : FMap α) (k : Nat) (v : α) (q : Nat × α) (h : q ∈ Maps.put m k v) : q = (k, v) ∨ q ∈ m := by
  induction m with
  | nil => simpa [Maps.put] using h
  | cons p r ih =>
    unfold Maps.put at h
    split at h
    · simpa using h
    · split at h <;> rcases List.mem_cons.1 h with h | h
      · exact .inl h
      · exact .inr (List.mem_cons_of_mem _ h)
      · exact .inr (h ▸ List.mem_cons_self ..)
      · rcases ih h with h | h
        · exact .inl h
        · exact .inr (List.mem_cons_of_mem _ h)

theorem Maps.mem_del {α : Type} (m : FMap α) (k : Nat) (q : Nat × α) (h : q ∈ Maps.del m k) : q ∈ m := by
  induction m with
  | nil => exact h
  | cons p r ih =>
    unfold Maps.del at h
    split at h
    · exact List.mem_cons_of_mem _ h
    · rcases List.mem_cons.1 h with h | h
      · exact h ▸ List.mem_cons_self ..
      · exact List.mem_cons_of_mem _ (ih h)

theorem Memory.wf_iff (m : Memory) : Memory.wf m = true ↔ Maps.wf m = true ∧ ∀ c ∈ m, c.2 ≠ 0#8 := by
  simp [Memory.wf, List.all_eq_true]

theorem Mem.wf_setByte (m : Memory) (a : Nat) (b : Byte) (h : Memory.wf m = true) : Memory.wf (Mem.setByte m a b) = true := by
  obtain ⟨h1, h2⟩ := (Memory.wf_iff m).1 h
  unfold Mem.setByte
  split
  · exact (Memory.wf_iff _).2 ⟨Maps.wf_del m a h1, fun c hc => h2 c (Maps.mem_del m a c hc)⟩
  · rename_i hb
    refine (Memory.wf_iff _).2 ⟨Maps.wf_put m a b h1, fun c hc => ?_⟩
    rcases Maps.mem_put m a b c hc with rfl | hc
    · exact hb
    · exact h2 c hc

theorem Mem.wf_setBytes (m : Memory) (a : Nat) (bs : List Byte) (h : Memory.wf m = true) : Memory.wf (Mem.setBytes m a bs) = true := by
  induction bs generalizing m a with
  | nil => exact h
  | cons b r ih => exact ih _ _ (Mem.wf_setByte m a b h)

theorem Mem.byte_setByte_other (m : Memory) (a k : Nat) (b : Byte) (h : k ≠ a) : Mem.byte (Mem.setByte m a b) k = Mem.byte m k := by
  unfold Mem.setByte Mem.byte Maps.getD
  split
  · rw [Maps.get_del_other m a k h]
  · rw [Maps.get_put_other m a k b h]

theorem Mem.byte_setByte_same (m : Memory) (a : Nat) (b : Byte) (h : Memory.wf m = true) : Mem.byte (Mem.setByte m a b) a = b := by
  unfold Mem.setByte Mem.byte Maps.getD
  split
  · rename_i hb
    rw [Maps.get_del_same m a ((Memory.wf_iff m).1 h).1, hb]
    rfl
  · rw [Maps.get_put_same]
    rfl

end Sys2Proof.Machine
end

