-- ==== Sys2Proof/Laws/State.lean ====
section
/-!
SUPPORT. One lemma per field per update, true by unfolding: what an update of the state or of a strand writes and what it leaves.
-/
namespace Sys2Proof.Machine

@[simp] theorem State.setCluster_tick (s : State) (c : BitVec 9) (v : Cluster) : (s.setCluster c v).tick = s.tick := rfl
@[simp] theorem State.setCluster_schedule (s : State) (c : BitVec 9) (v : Cluster) : (s.setCluster c v).schedule = s.schedule := rfl
@[simp] theorem State.setCluster_cur (s : State) (c : BitVec 9) (v : Cluster) : (s.setCluster c v).cur = s.cur := rfl
@[simp] theorem State.setCluster_fresh (s : State) (c : BitVec 9) (v : Cluster) : (s.setCluster c v).fresh = s.fresh := rfl
@[simp] theorem State.setCluster_outbox (s : State) (c : BitVec 9) (v : Cluster) : (s.setCluster c v).outbox = s.outbox := rfl
@[simp] theorem State.setCluster_boot (s : State) (c : BitVec 9) (v : Cluster) : (s.setCluster c v).boot = s.boot := rfl
@[simp] theorem State.setCluster_flash (s : State) (c : BitVec 9) (v : Cluster) : (s.setCluster c v).flash = s.flash := rfl
@[simp] theorem State.setCluster_modNo (s : State) (c : BitVec 9) (v : Cluster) : (s.setCluster c v).modNo = s.modNo := rfl
@[simp] theorem State.setCluster_modSet (s : State) (c : BitVec 9) (v : Cluster) : (s.setCluster c v).modSet = s.modSet := rfl
@[simp] theorem State.setCluster_domain (s : State) (c : BitVec 9) (v : Cluster) : (s.setCluster c v).domain = s.domain := rfl
@[simp] theorem State.setCluster_leader (s : State) (c : BitVec 9) (v : Cluster) : (s.setCluster c v).leader = s.leader := rfl
@[simp] theorem State.setCluster_measure (s : State) (c : BitVec 9) (v : Cluster) : (s.setCluster c v).measure = s.measure := rfl
@[simp] theorem State.setCluster_rollback (s : State) (c : BitVec 9) (v : Cluster) : (s.setCluster c v).rollback = s.rollback := rfl
@[simp] theorem State.setCluster_enrolLock (s : State) (c : BitVec 9) (v : Cluster) : (s.setCluster c v).enrolLock = s.enrolLock := rfl
@[simp] theorem State.setCluster_tracesel (s : State) (c : BitVec 9) (v : Cluster) : (s.setCluster c v).tracesel = s.tracesel := rfl
@[simp] theorem State.setCluster_ttbase (s : State) (c : BitVec 9) (v : Cluster) : (s.setCluster c v).ttbase = s.ttbase := rfl
@[simp] theorem State.setCluster_errHead (s : State) (c : BitVec 9) (v : Cluster) : (s.setCluster c v).errHead = s.errHead := rfl
@[simp] theorem State.setCluster_errLog (s : State) (c : BitVec 9) (v : Cluster) : (s.setCluster c v).errLog = s.errLog := rfl
@[simp] theorem State.setCluster_evtHead (s : State) (c : BitVec 9) (v : Cluster) : (s.setCluster c v).evtHead = s.evtHead := rfl
@[simp] theorem State.setCluster_evtLog (s : State) (c : BitVec 9) (v : Cluster) : (s.setCluster c v).evtLog = s.evtLog := rfl
@[simp] theorem State.setCluster_supplyOk (s : State) (c : BitVec 9) (v : Cluster) : (s.setCluster c v).supplyOk = s.supplyOk := rfl
@[simp] theorem State.setCluster_hbmGrant (s : State) (c : BitVec 9) (v : Cluster) : (s.setCluster c v).hbmGrant = s.hbmGrant := rfl
@[simp] theorem State.setCluster_dieTol (s : State) (c : BitVec 9) (v : Cluster) : (s.setCluster c v).dieTol = s.dieTol := rfl
@[simp] theorem State.setCluster_modTol (s : State) (c : BitVec 9) (v : Cluster) : (s.setCluster c v).modTol = s.modTol := rfl
@[simp] theorem State.setCluster_modState (s : State) (c : BitVec 9) (v : Cluster) : (s.setCluster c v).modState = s.modState := rfl
@[simp] theorem State.setCluster_idleCores (s : State) (c : BitVec 9) (v : Cluster) : (s.setCluster c v).idleCores = s.idleCores := rfl
@[simp] theorem State.setCluster_badClusters (s : State) (c : BitVec 9) (v : Cluster) : (s.setCluster c v).badClusters = s.badClusters := rfl
@[simp] theorem State.setCluster_spareUse (s : State) (c : BitVec 9) (v : Cluster) : (s.setCluster c v).spareUse = s.spareUse := rfl
@[simp] theorem State.setCluster_tests (s : State) (c : BitVec 9) (v : Cluster) : (s.setCluster c v).tests = s.tests := rfl
@[simp] theorem State.setCluster_errTimes (s : State) (c : BitVec 9) (v : Cluster) : (s.setCluster c v).errTimes = s.errTimes := rfl
@[simp] theorem State.setCluster_tested (s : State) (c : BitVec 9) (v : Cluster) : (s.setCluster c v).tested = s.tested := rfl
@[simp] theorem State.setCluster_dies (s : State) (c : BitVec 9) (v : Cluster) : (s.setCluster c v).dies = s.dies := rfl
@[simp] theorem State.setCluster_clusters (s : State) (c : BitVec 9) (v : Cluster) : (s.setCluster c v).clusters = Maps.put s.clusters c.toNat v := rfl
@[simp] theorem State.setCluster_cores (s : State) (c : BitVec 9) (v : Cluster) : (s.setCluster c v).cores = s.cores := rfl
@[simp] theorem State.setCluster_anvils (s : State) (c : BitVec 9) (v : Cluster) : (s.setCluster c v).anvils = s.anvils := rfl
@[simp] theorem State.setCluster_strands (s : State) (c : BitVec 9) (v : Cluster) : (s.setCluster c v).strands = s.strands := rfl
@[simp] theorem State.setCluster_trackers (s : State) (c : BitVec 9) (v : Cluster) : (s.setCluster c v).trackers = s.trackers := rfl
@[simp] theorem State.setCluster_sums (s : State) (c : BitVec 9) (v : Cluster) : (s.setCluster c v).sums = s.sums := rfl
@[simp] theorem State.setCluster_net (s : State) (c : BitVec 9) (v : Cluster) : (s.setCluster c v).net = s.net := rfl
@[simp] theorem State.setCluster_units (s : State) (c : BitVec 9) (v : Cluster) : (s.setCluster c v).units = s.units := rfl
@[simp] theorem State.setCluster_seqs (s : State) (c : BitVec 9) (v : Cluster) : (s.setCluster c v).seqs = s.seqs := rfl
@[simp] theorem State.setCluster_hbm (s : State) (c : BitVec 9) (v : Cluster) : (s.setCluster c v).hbm = s.hbm := rfl
@[simp] theorem State.setCluster_hbmMeta (s : State) (c : BitVec 9) (v : Cluster) : (s.setCluster c v).hbmMeta = s.hbmMeta := rfl
@[simp] theorem State.setCluster_badLines (s : State) (c : BitVec 9) (v : Cluster) : (s.setCluster c v).badLines = s.badLines := rfl
@[simp] theorem State.setCluster_rowActs (s : State) (c : BitVec 9) (v : Cluster) : (s.setCluster c v).rowActs = s.rowActs := rfl
@[simp] theorem State.setCluster_poison (s : State) (c : BitVec 9) (v : Cluster) : (s.setCluster c v).poison = s.poison := rfl
@[simp] theorem State.setCluster_lastWr (s : State) (c : BitVec 9) (v : Cluster) : (s.setCluster c v).lastWr = s.lastWr := rfl
@[simp] theorem State.setCluster_usedFrames (s : State) (c : BitVec 9) (v : Cluster) : (s.setCluster c v).usedFrames = s.usedFrames := rfl
@[simp] theorem State.setCluster_images (s : State) (c : BitVec 9) (v : Cluster) : (s.setCluster c v).images = s.images := rfl
@[simp] theorem State.setCluster_keepSize (s : State) (c : BitVec 9) (v : Cluster) : (s.setCluster c v).keepSize = s.keepSize := rfl
@[simp] theorem State.setCluster_graphs (s : State) (c : BitVec 9) (v : Cluster) : (s.setCluster c v).graphs = s.graphs := rfl
@[simp] theorem State.setCluster_instances (s : State) (c : BitVec 9) (v : Cluster) : (s.setCluster c v).instances = s.instances := rfl
@[simp] theorem State.setCluster_nodes (s : State) (c : BitVec 9) (v : Cluster) : (s.setCluster c v).nodes = s.nodes := rfl
@[simp] theorem State.setCluster_quench (s : State) (c : BitVec 9) (v : Cluster) : (s.setCluster c v).quench = s.quench := rfl
@[simp] theorem State.setCluster_savePool (s : State) (c : BitVec 9) (v : Cluster) : (s.setCluster c v).savePool = s.savePool := rfl
@[simp] theorem State.setCluster_keepEvents (s : State) (c : BitVec 9) (v : Cluster) : (s.setCluster c v).keepEvents = s.keepEvents := rfl
@[simp] theorem State.setCluster_sessions (s : State) (c : BitVec 9) (v : Cluster) : (s.setCluster c v).sessions = s.sessions := rfl
@[simp] theorem State.setCluster_sessUsed (s : State) (c : BitVec 9) (v : Cluster) : (s.setCluster c v).sessUsed = s.sessUsed := rfl
@[simp] theorem State.setCluster_keepq (s : State) (c : BitVec 9) (v : Cluster) : (s.setCluster c v).keepq = s.keepq := rfl
@[simp] theorem State.setCluster_starting (s : State) (c : BitVec 9) (v : Cluster) : (s.setCluster c v).starting = s.starting := rfl
@[simp] theorem State.setCluster_keepWait (s : State) (c : BitVec 9) (v : Cluster) : (s.setCluster c v).keepWait = s.keepWait := rfl
@[simp] theorem State.setCluster_ending (s : State) (c : BitVec 9) (v : Cluster) : (s.setCluster c v).ending = s.ending := rfl
@[simp] theorem State.setCluster_regions (s : State) (c : BitVec 9) (v : Cluster) : (s.setCluster c v).regions = s.regions := rfl
@[simp] theorem State.setCluster_qps (s : State) (c : BitVec 9) (v : Cluster) : (s.setCluster c v).qps = s.qps := rfl
@[simp] theorem State.setCluster_tgen (s : State) (c : BitVec 9) (v : Cluster) : (s.setCluster c v).tgen = s.tgen := rfl
@[simp] theorem State.setCluster_plan (s : State) (c : BitVec 9) (v : Cluster) : (s.setCluster c v).plan = s.plan := rfl
@[simp] theorem State.setCluster_reconf (s : State) (c : BitVec 9) (v : Cluster) : (s.setCluster c v).reconf = s.reconf := rfl
@[simp] theorem State.setCluster_plans (s : State) (c : BitVec 9) (v : Cluster) : (s.setCluster c v).plans = s.plans := rfl
@[simp] theorem State.setCluster_fibresUp (s : State) (c : BitVec 9) (v : Cluster) : (s.setCluster c v).fibresUp = s.fibresUp := rfl
@[simp] theorem State.setCluster_rcir (s : State) (c : BitVec 9) (v : Cluster) : (s.setCluster c v).rcir = s.rcir := rfl
@[simp] theorem State.setCluster_lead (s : State) (c : BitVec 9) (v : Cluster) : (s.setCluster c v).lead = s.lead := rfl
@[simp] theorem State.setCluster_chanOut (s : State) (c : BitVec 9) (v : Cluster) : (s.setCluster c v).chanOut = s.chanOut := rfl
@[simp] theorem State.setCluster_chanIn (s : State) (c : BitVec 9) (v : Cluster) : (s.setCluster c v).chanIn = s.chanIn := rfl
@[simp] theorem State.setCluster_chanLast (s : State) (c : BitVec 9) (v : Cluster) : (s.setCluster c v).chanLast = s.chanLast := rfl
@[simp] theorem State.setCluster_held (s : State) (c : BitVec 9) (v : Cluster) : (s.setCluster c v).held = s.held := rfl
@[simp] theorem State.setCluster_lantern (s : State) (c : BitVec 9) (v : Cluster) : (s.setCluster c v).lantern = s.lantern := rfl
@[simp] theorem State.setCluster_kept (s : State) (c : BitVec 9) (v : Cluster) : (s.setCluster c v).kept = s.kept := rfl
@[simp] theorem State.setCluster_heard (s : State) (c : BitVec 9) (v : Cluster) : (s.setCluster c v).heard = s.heard := rfl
@[simp] theorem State.setCluster_noPath (s : State) (c : BitVec 9) (v : Cluster) : (s.setCluster c v).noPath = s.noPath := rfl
@[simp] theorem State.setCluster_toSelf (s : State) (c : BitVec 9) (v : Cluster) : (s.setCluster c v).toSelf = s.toSelf := rfl
@[simp] theorem State.setCluster_remade (s : State) (c : BitVec 9) (v : Cluster) : (s.setCluster c v).remade = s.remade := rfl
@[simp] theorem State.setCluster_chanMade (s : State) (c : BitVec 9) (v : Cluster) : (s.setCluster c v).chanMade = s.chanMade := rfl
@[simp] theorem State.setCluster_planesUp (s : State) (c : BitVec 9) (v : Cluster) : (s.setCluster c v).planesUp = s.planesUp := rfl
@[simp] theorem State.setCluster_hearth (s : State) (c : BitVec 9) (v : Cluster) : (s.setCluster c v).hearth = s.hearth := rfl
@[simp] theorem State.setCluster_upcSeq (s : State) (c : BitVec 9) (v : Cluster) : (s.setCluster c v).upcSeq = s.upcSeq := rfl
@[simp] theorem State.setCore_tick (s : State) (k : BitVec 13) (v : Core) : (s.setCore k v).tick = s.tick := rfl
@[simp] theorem State.setCore_schedule (s : State) (k : BitVec 13) (v : Core) : (s.setCore k v).schedule = s.schedule := rfl
@[simp] theorem State.setCore_cur (s : State) (k : BitVec 13) (v : Core) : (s.setCore k v).cur = s.cur := rfl
@[simp] theorem State.setCore_fresh (s : State) (k : BitVec 13) (v : Core) : (s.setCore k v).fresh = s.fresh := rfl
@[simp] theorem State.setCore_outbox (s : State) (k : BitVec 13) (v : Core) : (s.setCore k v).outbox = s.outbox := rfl
@[simp] theorem State.setCore_boot (s : State) (k : BitVec 13) (v : Core) : (s.setCore k v).boot = s.boot := rfl
@[simp] theorem State.setCore_flash (s : State) (k : BitVec 13) (v : Core) : (s.setCore k v).flash = s.flash := rfl
@[simp] theorem State.setCore_modNo (s : State) (k : BitVec 13) (v : Core) : (s.setCore k v).modNo = s.modNo := rfl
@[simp] theorem State.setCore_modSet (s : State) (k : BitVec 13) (v : Core) : (s.setCore k v).modSet = s.modSet := rfl
@[simp] theorem State.setCore_domain (s : State) (k : BitVec 13) (v : Core) : (s.setCore k v).domain = s.domain := rfl
@[simp] theorem State.setCore_leader (s : State) (k : BitVec 13) (v : Core) : (s.setCore k v).leader = s.leader := rfl
@[simp] theorem State.setCore_measure (s : State) (k : BitVec 13) (v : Core) : (s.setCore k v).measure = s.measure := rfl
@[simp] theorem State.setCore_rollback (s : State) (k : BitVec 13) (v : Core) : (s.setCore k v).rollback = s.rollback := rfl
@[simp] theorem State.setCore_enrolLock (s : State) (k : BitVec 13) (v : Core) : (s.setCore k v).enrolLock = s.enrolLock := rfl
@[simp] theorem State.setCore_tracesel (s : State) (k : BitVec 13) (v : Core) : (s.setCore k v).tracesel = s.tracesel := rfl
@[simp] theorem State.setCore_ttbase (s : State) (k : BitVec 13) (v : Core) : (s.setCore k v).ttbase = s.ttbase := rfl
@[simp] theorem State.setCore_errHead (s : State) (k : BitVec 13) (v : Core) : (s.setCore k v).errHead = s.errHead := rfl
@[simp] theorem State.setCore_errLog (s : State) (k : BitVec 13) (v : Core) : (s.setCore k v).errLog = s.errLog := rfl
@[simp] theorem State.setCore_evtHead (s : State) (k : BitVec 13) (v : Core) : (s.setCore k v).evtHead = s.evtHead := rfl
@[simp] theorem State.setCore_evtLog (s : State) (k : BitVec 13) (v : Core) : (s.setCore k v).evtLog = s.evtLog := rfl
@[simp] theorem State.setCore_supplyOk (s : State) (k : BitVec 13) (v : Core) : (s.setCore k v).supplyOk = s.supplyOk := rfl
@[simp] theorem State.setCore_hbmGrant (s : State) (k : BitVec 13) (v : Core) : (s.setCore k v).hbmGrant = s.hbmGrant := rfl
@[simp] theorem State.setCore_dieTol (s : State) (k : BitVec 13) (v : Core) : (s.setCore k v).dieTol = s.dieTol := rfl
@[simp] theorem State.setCore_modTol (s : State) (k : BitVec 13) (v : Core) : (s.setCore k v).modTol = s.modTol := rfl
@[simp] theorem State.setCore_modState (s : State) (k : BitVec 13) (v : Core) : (s.setCore k v).modState = s.modState := rfl
@[simp] theorem State.setCore_idleCores (s : State) (k : BitVec 13) (v : Core) : (s.setCore k v).idleCores = s.idleCores := rfl
@[simp] theorem State.setCore_badClusters (s : State) (k : BitVec 13) (v : Core) : (s.setCore k v).badClusters = s.badClusters := rfl
@[simp] theorem State.setCore_spareUse (s : State) (k : BitVec 13) (v : Core) : (s.setCore k v).spareUse = s.spareUse := rfl
@[simp] theorem State.setCore_tests (s : State) (k : BitVec 13) (v : Core) : (s.setCore k v).tests = s.tests := rfl
@[simp] theorem State.setCore_errTimes (s : State) (k : BitVec 13) (v : Core) : (s.setCore k v).errTimes = s.errTimes := rfl
@[simp] theorem State.setCore_tested (s : State) (k : BitVec 13) (v : Core) : (s.setCore k v).tested = s.tested := rfl
@[simp] theorem State.setCore_dies (s : State) (k : BitVec 13) (v : Core) : (s.setCore k v).dies = s.dies := rfl
@[simp] theorem State.setCore_clusters (s : State) (k : BitVec 13) (v : Core) : (s.setCore k v).clusters = s.clusters := rfl
@[simp] theorem State.setCore_cores (s : State) (k : BitVec 13) (v : Core) : (s.setCore k v).cores = Maps.put s.cores k.toNat v := rfl
@[simp] theorem State.setCore_anvils (s : State) (k : BitVec 13) (v : Core) : (s.setCore k v).anvils = s.anvils := rfl
@[simp] theorem State.setCore_strands (s : State) (k : BitVec 13) (v : Core) : (s.setCore k v).strands = s.strands := rfl
@[simp] theorem State.setCore_trackers (s : State) (k : BitVec 13) (v : Core) : (s.setCore k v).trackers = s.trackers := rfl
@[simp] theorem State.setCore_sums (s : State) (k : BitVec 13) (v : Core) : (s.setCore k v).sums = s.sums := rfl
@[simp] theorem State.setCore_net (s : State) (k : BitVec 13) (v : Core) : (s.setCore k v).net = s.net := rfl
@[simp] theorem State.setCore_units (s : State) (k : BitVec 13) (v : Core) : (s.setCore k v).units = s.units := rfl
@[simp] theorem State.setCore_seqs (s : State) (k : BitVec 13) (v : Core) : (s.setCore k v).seqs = s.seqs := rfl
@[simp] theorem State.setCore_hbm (s : State) (k : BitVec 13) (v : Core) : (s.setCore k v).hbm = s.hbm := rfl
@[simp] theorem State.setCore_hbmMeta (s : State) (k : BitVec 13) (v : Core) : (s.setCore k v).hbmMeta = s.hbmMeta := rfl
@[simp] theorem State.setCore_badLines (s : State) (k : BitVec 13) (v : Core) : (s.setCore k v).badLines = s.badLines := rfl
@[simp] theorem State.setCore_rowActs (s : State) (k : BitVec 13) (v : Core) : (s.setCore k v).rowActs = s.rowActs := rfl
@[simp] theorem State.setCore_poison (s : State) (k : BitVec 13) (v : Core) : (s.setCore k v).poison = s.poison := rfl
@[simp] theorem State.setCore_lastWr (s : State) (k : BitVec 13) (v : Core) : (s.setCore k v).lastWr = s.lastWr := rfl
@[simp] theorem State.setCore_usedFrames (s : State) (k : BitVec 13) (v : Core) : (s.setCore k v).usedFrames = s.usedFrames := rfl
@[simp] theorem State.setCore_images (s : State) (k : BitVec 13) (v : Core) : (s.setCore k v).images = s.images := rfl
@[simp] theorem State.setCore_keepSize (s : State) (k : BitVec 13) (v : Core) : (s.setCore k v).keepSize = s.keepSize := rfl
@[simp] theorem State.setCore_graphs (s : State) (k : BitVec 13) (v : Core) : (s.setCore k v).graphs = s.graphs := rfl
@[simp] theorem State.setCore_instances (s : State) (k : BitVec 13) (v : Core) : (s.setCore k v).instances = s.instances := rfl
@[simp] theorem State.setCore_nodes (s : State) (k : BitVec 13) (v : Core) : (s.setCore k v).nodes = s.nodes := rfl
@[simp] theorem State.setCore_quench (s : State) (k : BitVec 13) (v : Core) : (s.setCore k v).quench = s.quench := rfl
@[simp] theorem State.setCore_savePool (s : State) (k : BitVec 13) (v : Core) : (s.setCore k v).savePool = s.savePool := rfl
@[simp] theorem State.setCore_keepEvents (s : State) (k : BitVec 13) (v : Core) : (s.setCore k v).keepEvents = s.keepEvents := rfl
@[simp] theorem State.setCore_sessions (s : State) (k : BitVec 13) (v : Core) : (s.setCore k v).sessions = s.sessions := rfl
@[simp] theorem State.setCore_sessUsed (s : State) (k : BitVec 13) (v : Core) : (s.setCore k v).sessUsed = s.sessUsed := rfl
@[simp] theorem State.setCore_keepq (s : State) (k : BitVec 13) (v : Core) : (s.setCore k v).keepq = s.keepq := rfl
@[simp] theorem State.setCore_starting (s : State) (k : BitVec 13) (v : Core) : (s.setCore k v).starting = s.starting := rfl
@[simp] theorem State.setCore_keepWait (s : State) (k : BitVec 13) (v : Core) : (s.setCore k v).keepWait = s.keepWait := rfl
@[simp] theorem State.setCore_ending (s : State) (k : BitVec 13) (v : Core) : (s.setCore k v).ending = s.ending := rfl
@[simp] theorem State.setCore_regions (s : State) (k : BitVec 13) (v : Core) : (s.setCore k v).regions = s.regions := rfl
@[simp] theorem State.setCore_qps (s : State) (k : BitVec 13) (v : Core) : (s.setCore k v).qps = s.qps := rfl
@[simp] theorem State.setCore_tgen (s : State) (k : BitVec 13) (v : Core) : (s.setCore k v).tgen = s.tgen := rfl
@[simp] theorem State.setCore_plan (s : State) (k : BitVec 13) (v : Core) : (s.setCore k v).plan = s.plan := rfl
@[simp] theorem State.setCore_reconf (s : State) (k : BitVec 13) (v : Core) : (s.setCore k v).reconf = s.reconf := rfl
@[simp] theorem State.setCore_plans (s : State) (k : BitVec 13) (v : Core) : (s.setCore k v).plans = s.plans := rfl
@[simp] theorem State.setCore_fibresUp (s : State) (k : BitVec 13) (v : Core) : (s.setCore k v).fibresUp = s.fibresUp := rfl
@[simp] theorem State.setCore_rcir (s : State) (k : BitVec 13) (v : Core) : (s.setCore k v).rcir = s.rcir := rfl
@[simp] theorem State.setCore_lead (s : State) (k : BitVec 13) (v : Core) : (s.setCore k v).lead = s.lead := rfl
@[simp] theorem State.setCore_chanOut (s : State) (k : BitVec 13) (v : Core) : (s.setCore k v).chanOut = s.chanOut := rfl
@[simp] theorem State.setCore_chanIn (s : State) (k : BitVec 13) (v : Core) : (s.setCore k v).chanIn = s.chanIn := rfl
@[simp] theorem State.setCore_chanLast (s : State) (k : BitVec 13) (v : Core) : (s.setCore k v).chanLast = s.chanLast := rfl
@[simp] theorem State.setCore_held (s : State) (k : BitVec 13) (v : Core) : (s.setCore k v).held = s.held := rfl
@[simp] theorem State.setCore_lantern (s : State) (k : BitVec 13) (v : Core) : (s.setCore k v).lantern = s.lantern := rfl
@[simp] theorem State.setCore_kept (s : State) (k : BitVec 13) (v : Core) : (s.setCore k v).kept = s.kept := rfl
@[simp] theorem State.setCore_heard (s : State) (k : BitVec 13) (v : Core) : (s.setCore k v).heard = s.heard := rfl
@[simp] theorem State.setCore_noPath (s : State) (k : BitVec 13) (v : Core) : (s.setCore k v).noPath = s.noPath := rfl
@[simp] theorem State.setCore_toSelf (s : State) (k : BitVec 13) (v : Core) : (s.setCore k v).toSelf = s.toSelf := rfl
@[simp] theorem State.setCore_remade (s : State) (k : BitVec 13) (v : Core) : (s.setCore k v).remade = s.remade := rfl
@[simp] theorem State.setCore_chanMade (s : State) (k : BitVec 13) (v : Core) : (s.setCore k v).chanMade = s.chanMade := rfl
@[simp] theorem State.setCore_planesUp (s : State) (k : BitVec 13) (v : Core) : (s.setCore k v).planesUp = s.planesUp := rfl
@[simp] theorem State.setCore_hearth (s : State) (k : BitVec 13) (v : Core) : (s.setCore k v).hearth = s.hearth := rfl
@[simp] theorem State.setCore_upcSeq (s : State) (k : BitVec 13) (v : Core) : (s.setCore k v).upcSeq = s.upcSeq := rfl
@[simp] theorem State.setAnvil_tick (s : State) (a : BitVec 11) (v : Anvil) : (s.setAnvil a v).tick = s.tick := rfl
@[simp] theorem State.setAnvil_schedule (s : State) (a : BitVec 11) (v : Anvil) : (s.setAnvil a v).schedule = s.schedule := rfl
@[simp] theorem State.setAnvil_cur (s : State) (a : BitVec 11) (v : Anvil) : (s.setAnvil a v).cur = s.cur := rfl
@[simp] theorem State.setAnvil_fresh (s : State) (a : BitVec 11) (v : Anvil) : (s.setAnvil a v).fresh = s.fresh := rfl
@[simp] theorem State.setAnvil_outbox (s : State) (a : BitVec 11) (v : Anvil) : (s.setAnvil a v).outbox = s.outbox := rfl
@[simp] theorem State.setAnvil_boot (s : State) (a : BitVec 11) (v : Anvil) : (s.setAnvil a v).boot = s.boot := rfl
@[simp] theorem State.setAnvil_flash (s : State) (a : BitVec 11) (v : Anvil) : (s.setAnvil a v).flash = s.flash := rfl
@[simp] theorem State.setAnvil_modNo (s : State) (a : BitVec 11) (v : Anvil) : (s.setAnvil a v).modNo = s.modNo := rfl
@[simp] theorem State.setAnvil_modSet (s : State) (a : BitVec 11) (v : Anvil) : (s.setAnvil a v).modSet = s.modSet := rfl
@[simp] theorem State.setAnvil_domain (s : State) (a : BitVec 11) (v : Anvil) : (s.setAnvil a v).domain = s.domain := rfl
@[simp] theorem State.setAnvil_leader (s : State) (a : BitVec 11) (v : Anvil) : (s.setAnvil a v).leader = s.leader := rfl
@[simp] theorem State.setAnvil_measure (s : State) (a : BitVec 11) (v : Anvil) : (s.setAnvil a v).measure = s.measure := rfl
@[simp] theorem State.setAnvil_rollback (s : State) (a : BitVec 11) (v : Anvil) : (s.setAnvil a v).rollback = s.rollback := rfl
@[simp] theorem State.setAnvil_enrolLock (s : State) (a : BitVec 11) (v : Anvil) : (s.setAnvil a v).enrolLock = s.enrolLock := rfl
@[simp] theorem State.setAnvil_tracesel (s : State) (a : BitVec 11) (v : Anvil) : (s.setAnvil a v).tracesel = s.tracesel := rfl
@[simp] theorem State.setAnvil_ttbase (s : State) (a : BitVec 11) (v : Anvil) : (s.setAnvil a v).ttbase = s.ttbase := rfl
@[simp] theorem State.setAnvil_errHead (s : State) (a : BitVec 11) (v : Anvil) : (s.setAnvil a v).errHead = s.errHead := rfl
@[simp] theorem State.setAnvil_errLog (s : State) (a : BitVec 11) (v : Anvil) : (s.setAnvil a v).errLog = s.errLog := rfl
@[simp] theorem State.setAnvil_evtHead (s : State) (a : BitVec 11) (v : Anvil) : (s.setAnvil a v).evtHead = s.evtHead := rfl
@[simp] theorem State.setAnvil_evtLog (s : State) (a : BitVec 11) (v : Anvil) : (s.setAnvil a v).evtLog = s.evtLog := rfl
@[simp] theorem State.setAnvil_supplyOk (s : State) (a : BitVec 11) (v : Anvil) : (s.setAnvil a v).supplyOk = s.supplyOk := rfl
@[simp] theorem State.setAnvil_hbmGrant (s : State) (a : BitVec 11) (v : Anvil) : (s.setAnvil a v).hbmGrant = s.hbmGrant := rfl
@[simp] theorem State.setAnvil_dieTol (s : State) (a : BitVec 11) (v : Anvil) : (s.setAnvil a v).dieTol = s.dieTol := rfl
@[simp] theorem State.setAnvil_modTol (s : State) (a : BitVec 11) (v : Anvil) : (s.setAnvil a v).modTol = s.modTol := rfl
@[simp] theorem State.setAnvil_modState (s : State) (a : BitVec 11) (v : Anvil) : (s.setAnvil a v).modState = s.modState := rfl
@[simp] theorem State.setAnvil_idleCores (s : State) (a : BitVec 11) (v : Anvil) : (s.setAnvil a v).idleCores = s.idleCores := rfl
@[simp] theorem State.setAnvil_badClusters (s : State) (a : BitVec 11) (v : Anvil) : (s.setAnvil a v).badClusters = s.badClusters := rfl
@[simp] theorem State.setAnvil_spareUse (s : State) (a : BitVec 11) (v : Anvil) : (s.setAnvil a v).spareUse = s.spareUse := rfl
@[simp] theorem State.setAnvil_tests (s : State) (a : BitVec 11) (v : Anvil) : (s.setAnvil a v).tests = s.tests := rfl
@[simp] theorem State.setAnvil_errTimes (s : State) (a : BitVec 11) (v : Anvil) : (s.setAnvil a v).errTimes = s.errTimes := rfl
@[simp] theorem State.setAnvil_tested (s : State) (a : BitVec 11) (v : Anvil) : (s.setAnvil a v).tested = s.tested := rfl
@[simp] theorem State.setAnvil_dies (s : State) (a : BitVec 11) (v : Anvil) : (s.setAnvil a v).dies = s.dies := rfl
@[simp] theorem State.setAnvil_clusters (s : State) (a : BitVec 11) (v : Anvil) : (s.setAnvil a v).clusters = s.clusters := rfl
@[simp] theorem State.setAnvil_cores (s : State) (a : BitVec 11) (v : Anvil) : (s.setAnvil a v).cores = s.cores := rfl
@[simp] theorem State.setAnvil_anvils (s : State) (a : BitVec 11) (v : Anvil) : (s.setAnvil a v).anvils = Maps.put s.anvils a.toNat v := rfl
@[simp] theorem State.setAnvil_strands (s : State) (a : BitVec 11) (v : Anvil) : (s.setAnvil a v).strands = s.strands := rfl
@[simp] theorem State.setAnvil_trackers (s : State) (a : BitVec 11) (v : Anvil) : (s.setAnvil a v).trackers = s.trackers := rfl
@[simp] theorem State.setAnvil_sums (s : State) (a : BitVec 11) (v : Anvil) : (s.setAnvil a v).sums = s.sums := rfl
@[simp] theorem State.setAnvil_net (s : State) (a : BitVec 11) (v : Anvil) : (s.setAnvil a v).net = s.net := rfl
@[simp] theorem State.setAnvil_units (s : State) (a : BitVec 11) (v : Anvil) : (s.setAnvil a v).units = s.units := rfl
@[simp] theorem State.setAnvil_seqs (s : State) (a : BitVec 11) (v : Anvil) : (s.setAnvil a v).seqs = s.seqs := rfl
@[simp] theorem State.setAnvil_hbm (s : State) (a : BitVec 11) (v : Anvil) : (s.setAnvil a v).hbm = s.hbm := rfl
@[simp] theorem State.setAnvil_hbmMeta (s : State) (a : BitVec 11) (v : Anvil) : (s.setAnvil a v).hbmMeta = s.hbmMeta := rfl
@[simp] theorem State.setAnvil_badLines (s : State) (a : BitVec 11) (v : Anvil) : (s.setAnvil a v).badLines = s.badLines := rfl
@[simp] theorem State.setAnvil_rowActs (s : State) (a : BitVec 11) (v : Anvil) : (s.setAnvil a v).rowActs = s.rowActs := rfl
@[simp] theorem State.setAnvil_poison (s : State) (a : BitVec 11) (v : Anvil) : (s.setAnvil a v).poison = s.poison := rfl
@[simp] theorem State.setAnvil_lastWr (s : State) (a : BitVec 11) (v : Anvil) : (s.setAnvil a v).lastWr = s.lastWr := rfl
@[simp] theorem State.setAnvil_usedFrames (s : State) (a : BitVec 11) (v : Anvil) : (s.setAnvil a v).usedFrames = s.usedFrames := rfl
@[simp] theorem State.setAnvil_images (s : State) (a : BitVec 11) (v : Anvil) : (s.setAnvil a v).images = s.images := rfl
@[simp] theorem State.setAnvil_keepSize (s : State) (a : BitVec 11) (v : Anvil) : (s.setAnvil a v).keepSize = s.keepSize := rfl
@[simp] theorem State.setAnvil_graphs (s : State) (a : BitVec 11) (v : Anvil) : (s.setAnvil a v).graphs = s.graphs := rfl
@[simp] theorem State.setAnvil_instances (s : State) (a : BitVec 11) (v : Anvil) : (s.setAnvil a v).instances = s.instances := rfl
@[simp] theorem State.setAnvil_nodes (s : State) (a : BitVec 11) (v : Anvil) : (s.setAnvil a v).nodes = s.nodes := rfl
@[simp] theorem State.setAnvil_quench (s : State) (a : BitVec 11) (v : Anvil) : (s.setAnvil a v).quench = s.quench := rfl
@[simp] theorem State.setAnvil_savePool (s : State) (a : BitVec 11) (v : Anvil) : (s.setAnvil a v).savePool = s.savePool := rfl
@[simp] theorem State.setAnvil_keepEvents (s : State) (a : BitVec 11) (v : Anvil) : (s.setAnvil a v).keepEvents = s.keepEvents := rfl
@[simp] theorem State.setAnvil_sessions (s : State) (a : BitVec 11) (v : Anvil) : (s.setAnvil a v).sessions = s.sessions := rfl
@[simp] theorem State.setAnvil_sessUsed (s : State) (a : BitVec 11) (v : Anvil) : (s.setAnvil a v).sessUsed = s.sessUsed := rfl
@[simp] theorem State.setAnvil_keepq (s : State) (a : BitVec 11) (v : Anvil) : (s.setAnvil a v).keepq = s.keepq := rfl
@[simp] theorem State.setAnvil_starting (s : State) (a : BitVec 11) (v : Anvil) : (s.setAnvil a v).starting = s.starting := rfl
@[simp] theorem State.setAnvil_keepWait (s : State) (a : BitVec 11) (v : Anvil) : (s.setAnvil a v).keepWait = s.keepWait := rfl
@[simp] theorem State.setAnvil_ending (s : State) (a : BitVec 11) (v : Anvil) : (s.setAnvil a v).ending = s.ending := rfl
@[simp] theorem State.setAnvil_regions (s : State) (a : BitVec 11) (v : Anvil) : (s.setAnvil a v).regions = s.regions := rfl
@[simp] theorem State.setAnvil_qps (s : State) (a : BitVec 11) (v : Anvil) : (s.setAnvil a v).qps = s.qps := rfl
@[simp] theorem State.setAnvil_tgen (s : State) (a : BitVec 11) (v : Anvil) : (s.setAnvil a v).tgen = s.tgen := rfl
@[simp] theorem State.setAnvil_plan (s : State) (a : BitVec 11) (v : Anvil) : (s.setAnvil a v).plan = s.plan := rfl
@[simp] theorem State.setAnvil_reconf (s : State) (a : BitVec 11) (v : Anvil) : (s.setAnvil a v).reconf = s.reconf := rfl
@[simp] theorem State.setAnvil_plans (s : State) (a : BitVec 11) (v : Anvil) : (s.setAnvil a v).plans = s.plans := rfl
@[simp] theorem State.setAnvil_fibresUp (s : State) (a : BitVec 11) (v : Anvil) : (s.setAnvil a v).fibresUp = s.fibresUp := rfl
@[simp] theorem State.setAnvil_rcir (s : State) (a : BitVec 11) (v : Anvil) : (s.setAnvil a v).rcir = s.rcir := rfl
@[simp] theorem State.setAnvil_lead (s : State) (a : BitVec 11) (v : Anvil) : (s.setAnvil a v).lead = s.lead := rfl
@[simp] theorem State.setAnvil_chanOut (s : State) (a : BitVec 11) (v : Anvil) : (s.setAnvil a v).chanOut = s.chanOut := rfl
@[simp] theorem State.setAnvil_chanIn (s : State) (a : BitVec 11) (v : Anvil) : (s.setAnvil a v).chanIn = s.chanIn := rfl
@[simp] theorem State.setAnvil_chanLast (s : State) (a : BitVec 11) (v : Anvil) : (s.setAnvil a v).chanLast = s.chanLast := rfl
@[simp] theorem State.setAnvil_held (s : State) (a : BitVec 11) (v : Anvil) : (s.setAnvil a v).held = s.held := rfl
@[simp] theorem State.setAnvil_lantern (s : State) (a : BitVec 11) (v : Anvil) : (s.setAnvil a v).lantern = s.lantern := rfl
@[simp] theorem State.setAnvil_kept (s : State) (a : BitVec 11) (v : Anvil) : (s.setAnvil a v).kept = s.kept := rfl
@[simp] theorem State.setAnvil_heard (s : State) (a : BitVec 11) (v : Anvil) : (s.setAnvil a v).heard = s.heard := rfl
@[simp] theorem State.setAnvil_noPath (s : State) (a : BitVec 11) (v : Anvil) : (s.setAnvil a v).noPath = s.noPath := rfl
@[simp] theorem State.setAnvil_toSelf (s : State) (a : BitVec 11) (v : Anvil) : (s.setAnvil a v).toSelf = s.toSelf := rfl
@[simp] theorem State.setAnvil_remade (s : State) (a : BitVec 11) (v : Anvil) : (s.setAnvil a v).remade = s.remade := rfl
@[simp] theorem State.setAnvil_chanMade (s : State) (a : BitVec 11) (v : Anvil) : (s.setAnvil a v).chanMade = s.chanMade := rfl
@[simp] theorem State.setAnvil_planesUp (s : State) (a : BitVec 11) (v : Anvil) : (s.setAnvil a v).planesUp = s.planesUp := rfl
@[simp] theorem State.setAnvil_hearth (s : State) (a : BitVec 11) (v : Anvil) : (s.setAnvil a v).hearth = s.hearth := rfl
@[simp] theorem State.setAnvil_upcSeq (s : State) (a : BitVec 11) (v : Anvil) : (s.setAnvil a v).upcSeq = s.upcSeq := rfl
@[simp] theorem State.setDie_tick (s : State) (d : BitVec 3) (v : Die) : (s.setDie d v).tick = s.tick := rfl
@[simp] theorem State.setDie_schedule (s : State) (d : BitVec 3) (v : Die) : (s.setDie d v).schedule = s.schedule := rfl
@[simp] theorem State.setDie_cur (s : State) (d : BitVec 3) (v : Die) : (s.setDie d v).cur = s.cur := rfl
@[simp] theorem State.setDie_fresh (s : State) (d : BitVec 3) (v : Die) : (s.setDie d v).fresh = s.fresh := rfl
@[simp] theorem State.setDie_outbox (s : State) (d : BitVec 3) (v : Die) : (s.setDie d v).outbox = s.outbox := rfl
@[simp] theorem State.setDie_boot (s : State) (d : BitVec 3) (v : Die) : (s.setDie d v).boot = s.boot := rfl
@[simp] theorem State.setDie_flash (s : State) (d : BitVec 3) (v : Die) : (s.setDie d v).flash = s.flash := rfl
@[simp] theorem State.setDie_modNo (s : State) (d : BitVec 3) (v : Die) : (s.setDie d v).modNo = s.modNo := rfl
@[simp] theorem State.setDie_modSet (s : State) (d : BitVec 3) (v : Die) : (s.setDie d v).modSet = s.modSet := rfl
@[simp] theorem State.setDie_domain (s : State) (d : BitVec 3) (v : Die) : (s.setDie d v).domain = s.domain := rfl
@[simp] theorem State.setDie_leader (s : State) (d : BitVec 3) (v : Die) : (s.setDie d v).leader = s.leader := rfl
@[simp] theorem State.setDie_measure (s : State) (d : BitVec 3) (v : Die) : (s.setDie d v).measure = s.measure := rfl
@[simp] theorem State.setDie_rollback (s : State) (d : BitVec 3) (v : Die) : (s.setDie d v).rollback = s.rollback := rfl
@[simp] theorem State.setDie_enrolLock (s : State) (d : BitVec 3) (v : Die) : (s.setDie d v).enrolLock = s.enrolLock := rfl
@[simp] theorem State.setDie_tracesel (s : State) (d : BitVec 3) (v : Die) : (s.setDie d v).tracesel = s.tracesel := rfl
@[simp] theorem State.setDie_ttbase (s : State) (d : BitVec 3) (v : Die) : (s.setDie d v).ttbase = s.ttbase := rfl
@[simp] theorem State.setDie_errHead (s : State) (d : BitVec 3) (v : Die) : (s.setDie d v).errHead = s.errHead := rfl
@[simp] theorem State.setDie_errLog (s : State) (d : BitVec 3) (v : Die) : (s.setDie d v).errLog = s.errLog := rfl
@[simp] theorem State.setDie_evtHead (s : State) (d : BitVec 3) (v : Die) : (s.setDie d v).evtHead = s.evtHead := rfl
@[simp] theorem State.setDie_evtLog (s : State) (d : BitVec 3) (v : Die) : (s.setDie d v).evtLog = s.evtLog := rfl
@[simp] theorem State.setDie_supplyOk (s : State) (d : BitVec 3) (v : Die) : (s.setDie d v).supplyOk = s.supplyOk := rfl
@[simp] theorem State.setDie_hbmGrant (s : State) (d : BitVec 3) (v : Die) : (s.setDie d v).hbmGrant = s.hbmGrant := rfl
@[simp] theorem State.setDie_dieTol (s : State) (d : BitVec 3) (v : Die) : (s.setDie d v).dieTol = s.dieTol := rfl
@[simp] theorem State.setDie_modTol (s : State) (d : BitVec 3) (v : Die) : (s.setDie d v).modTol = s.modTol := rfl
@[simp] theorem State.setDie_modState (s : State) (d : BitVec 3) (v : Die) : (s.setDie d v).modState = s.modState := rfl
@[simp] theorem State.setDie_idleCores (s : State) (d : BitVec 3) (v : Die) : (s.setDie d v).idleCores = s.idleCores := rfl
@[simp] theorem State.setDie_badClusters (s : State) (d : BitVec 3) (v : Die) : (s.setDie d v).badClusters = s.badClusters := rfl
@[simp] theorem State.setDie_spareUse (s : State) (d : BitVec 3) (v : Die) : (s.setDie d v).spareUse = s.spareUse := rfl
@[simp] theorem State.setDie_tests (s : State) (d : BitVec 3) (v : Die) : (s.setDie d v).tests = s.tests := rfl
@[simp] theorem State.setDie_errTimes (s : State) (d : BitVec 3) (v : Die) : (s.setDie d v).errTimes = s.errTimes := rfl
@[simp] theorem State.setDie_tested (s : State) (d : BitVec 3) (v : Die) : (s.setDie d v).tested = s.tested := rfl
@[simp] theorem State.setDie_dies (s : State) (d : BitVec 3) (v : Die) : (s.setDie d v).dies = s.dies.set d.toNat v d.isLt := rfl
@[simp] theorem State.setDie_clusters (s : State) (d : BitVec 3) (v : Die) : (s.setDie d v).clusters = s.clusters := rfl
@[simp] theorem State.setDie_cores (s : State) (d : BitVec 3) (v : Die) : (s.setDie d v).cores = s.cores := rfl
@[simp] theorem State.setDie_anvils (s : State) (d : BitVec 3) (v : Die) : (s.setDie d v).anvils = s.anvils := rfl
@[simp] theorem State.setDie_strands (s : State) (d : BitVec 3) (v : Die) : (s.setDie d v).strands = s.strands := rfl
@[simp] theorem State.setDie_trackers (s : State) (d : BitVec 3) (v : Die) : (s.setDie d v).trackers = s.trackers := rfl
@[simp] theorem State.setDie_sums (s : State) (d : BitVec 3) (v : Die) : (s.setDie d v).sums = s.sums := rfl
@[simp] theorem State.setDie_net (s : State) (d : BitVec 3) (v : Die) : (s.setDie d v).net = s.net := rfl
@[simp] theorem State.setDie_units (s : State) (d : BitVec 3) (v : Die) : (s.setDie d v).units = s.units := rfl
@[simp] theorem State.setDie_seqs (s : State) (d : BitVec 3) (v : Die) : (s.setDie d v).seqs = s.seqs := rfl
@[simp] theorem State.setDie_hbm (s : State) (d : BitVec 3) (v : Die) : (s.setDie d v).hbm = s.hbm := rfl
@[simp] theorem State.setDie_hbmMeta (s : State) (d : BitVec 3) (v : Die) : (s.setDie d v).hbmMeta = s.hbmMeta := rfl
@[simp] theorem State.setDie_badLines (s : State) (d : BitVec 3) (v : Die) : (s.setDie d v).badLines = s.badLines := rfl
@[simp] theorem State.setDie_rowActs (s : State) (d : BitVec 3) (v : Die) : (s.setDie d v).rowActs = s.rowActs := rfl
@[simp] theorem State.setDie_poison (s : State) (d : BitVec 3) (v : Die) : (s.setDie d v).poison = s.poison := rfl
@[simp] theorem State.setDie_lastWr (s : State) (d : BitVec 3) (v : Die) : (s.setDie d v).lastWr = s.lastWr := rfl
@[simp] theorem State.setDie_usedFrames (s : State) (d : BitVec 3) (v : Die) : (s.setDie d v).usedFrames = s.usedFrames := rfl
@[simp] theorem State.setDie_images (s : State) (d : BitVec 3) (v : Die) : (s.setDie d v).images = s.images := rfl
@[simp] theorem State.setDie_keepSize (s : State) (d : BitVec 3) (v : Die) : (s.setDie d v).keepSize = s.keepSize := rfl
@[simp] theorem State.setDie_graphs (s : State) (d : BitVec 3) (v : Die) : (s.setDie d v).graphs = s.graphs := rfl
@[simp] theorem State.setDie_instances (s : State) (d : BitVec 3) (v : Die) : (s.setDie d v).instances = s.instances := rfl
@[simp] theorem State.setDie_nodes (s : State) (d : BitVec 3) (v : Die) : (s.setDie d v).nodes = s.nodes := rfl
@[simp] theorem State.setDie_quench (s : State) (d : BitVec 3) (v : Die) : (s.setDie d v).quench = s.quench := rfl
@[simp] theorem State.setDie_savePool (s : State) (d : BitVec 3) (v : Die) : (s.setDie d v).savePool = s.savePool := rfl
@[simp] theorem State.setDie_keepEvents (s : State) (d : BitVec 3) (v : Die) : (s.setDie d v).keepEvents = s.keepEvents := rfl
@[simp] theorem State.setDie_sessions (s : State) (d : BitVec 3) (v : Die) : (s.setDie d v).sessions = s.sessions := rfl
@[simp] theorem State.setDie_sessUsed (s : State) (d : BitVec 3) (v : Die) : (s.setDie d v).sessUsed = s.sessUsed := rfl
@[simp] theorem State.setDie_keepq (s : State) (d : BitVec 3) (v : Die) : (s.setDie d v).keepq = s.keepq := rfl
@[simp] theorem State.setDie_starting (s : State) (d : BitVec 3) (v : Die) : (s.setDie d v).starting = s.starting := rfl
@[simp] theorem State.setDie_keepWait (s : State) (d : BitVec 3) (v : Die) : (s.setDie d v).keepWait = s.keepWait := rfl
@[simp] theorem State.setDie_ending (s : State) (d : BitVec 3) (v : Die) : (s.setDie d v).ending = s.ending := rfl
@[simp] theorem State.setDie_regions (s : State) (d : BitVec 3) (v : Die) : (s.setDie d v).regions = s.regions := rfl
@[simp] theorem State.setDie_qps (s : State) (d : BitVec 3) (v : Die) : (s.setDie d v).qps = s.qps := rfl
@[simp] theorem State.setDie_tgen (s : State) (d : BitVec 3) (v : Die) : (s.setDie d v).tgen = s.tgen := rfl
@[simp] theorem State.setDie_plan (s : State) (d : BitVec 3) (v : Die) : (s.setDie d v).plan = s.plan := rfl
@[simp] theorem State.setDie_reconf (s : State) (d : BitVec 3) (v : Die) : (s.setDie d v).reconf = s.reconf := rfl
@[simp] theorem State.setDie_plans (s : State) (d : BitVec 3) (v : Die) : (s.setDie d v).plans = s.plans := rfl
@[simp] theorem State.setDie_fibresUp (s : State) (d : BitVec 3) (v : Die) : (s.setDie d v).fibresUp = s.fibresUp := rfl
@[simp] theorem State.setDie_rcir (s : State) (d : BitVec 3) (v : Die) : (s.setDie d v).rcir = s.rcir := rfl
@[simp] theorem State.setDie_lead (s : State) (d : BitVec 3) (v : Die) : (s.setDie d v).lead = s.lead := rfl
@[simp] theorem State.setDie_chanOut (s : State) (d : BitVec 3) (v : Die) : (s.setDie d v).chanOut = s.chanOut := rfl
@[simp] theorem State.setDie_chanIn (s : State) (d : BitVec 3) (v : Die) : (s.setDie d v).chanIn = s.chanIn := rfl
@[simp] theorem State.setDie_chanLast (s : State) (d : BitVec 3) (v : Die) : (s.setDie d v).chanLast = s.chanLast := rfl
@[simp] theorem State.setDie_held (s : State) (d : BitVec 3) (v : Die) : (s.setDie d v).held = s.held := rfl
@[simp] theorem State.setDie_lantern (s : State) (d : BitVec 3) (v : Die) : (s.setDie d v).lantern = s.lantern := rfl
@[simp] theorem State.setDie_kept (s : State) (d : BitVec 3) (v : Die) : (s.setDie d v).kept = s.kept := rfl
@[simp] theorem State.setDie_heard (s : State) (d : BitVec 3) (v : Die) : (s.setDie d v).heard = s.heard := rfl
@[simp] theorem State.setDie_noPath (s : State) (d : BitVec 3) (v : Die) : (s.setDie d v).noPath = s.noPath := rfl
@[simp] theorem State.setDie_toSelf (s : State) (d : BitVec 3) (v : Die) : (s.setDie d v).toSelf = s.toSelf := rfl
@[simp] theorem State.setDie_remade (s : State) (d : BitVec 3) (v : Die) : (s.setDie d v).remade = s.remade := rfl
@[simp] theorem State.setDie_chanMade (s : State) (d : BitVec 3) (v : Die) : (s.setDie d v).chanMade = s.chanMade := rfl
@[simp] theorem State.setDie_planesUp (s : State) (d : BitVec 3) (v : Die) : (s.setDie d v).planesUp = s.planesUp := rfl
@[simp] theorem State.setDie_hearth (s : State) (d : BitVec 3) (v : Die) : (s.setDie d v).hearth = s.hearth := rfl
@[simp] theorem State.setDie_upcSeq (s : State) (d : BitVec 3) (v : Die) : (s.setDie d v).upcSeq = s.upcSeq := rfl
@[simp] theorem State.setStrand_tick (s : State) (r : Nat) (v : Strand) : (s.setStrand r v).tick = s.tick := rfl
@[simp] theorem State.setStrand_schedule (s : State) (r : Nat) (v : Strand) : (s.setStrand r v).schedule = s.schedule := rfl
@[simp] theorem State.setStrand_cur (s : State) (r : Nat) (v : Strand) : (s.setStrand r v).cur = s.cur := rfl
@[simp] theorem State.setStrand_fresh (s : State) (r : Nat) (v : Strand) : (s.setStrand r v).fresh = s.fresh := rfl
@[simp] theorem State.setStrand_outbox (s : State) (r : Nat) (v : Strand) : (s.setStrand r v).outbox = s.outbox := rfl
@[simp] theorem State.setStrand_boot (s : State) (r : Nat) (v : Strand) : (s.setStrand r v).boot = s.boot := rfl
@[simp] theorem State.setStrand_flash (s : State) (r : Nat) (v : Strand) : (s.setStrand r v).flash = s.flash := rfl
@[simp] theorem State.setStrand_modNo (s : State) (r : Nat) (v : Strand) : (s.setStrand r v).modNo = s.modNo := rfl
@[simp] theorem State.setStrand_modSet (s : State) (r : Nat) (v : Strand) : (s.setStrand r v).modSet = s.modSet := rfl
@[simp] theorem State.setStrand_domain (s : State) (r : Nat) (v : Strand) : (s.setStrand r v).domain = s.domain := rfl
@[simp] theorem State.setStrand_leader (s : State) (r : Nat) (v : Strand) : (s.setStrand r v).leader = s.leader := rfl
@[simp] theorem State.setStrand_measure (s : State) (r : Nat) (v : Strand) : (s.setStrand r v).measure = s.measure := rfl
@[simp] theorem State.setStrand_rollback (s : State) (r : Nat) (v : Strand) : (s.setStrand r v).rollback = s.rollback := rfl
@[simp] theorem State.setStrand_enrolLock (s : State) (r : Nat) (v : Strand) : (s.setStrand r v).enrolLock = s.enrolLock := rfl
@[simp] theorem State.setStrand_tracesel (s : State) (r : Nat) (v : Strand) : (s.setStrand r v).tracesel = s.tracesel := rfl
@[simp] theorem State.setStrand_ttbase (s : State) (r : Nat) (v : Strand) : (s.setStrand r v).ttbase = s.ttbase := rfl
@[simp] theorem State.setStrand_errHead (s : State) (r : Nat) (v : Strand) : (s.setStrand r v).errHead = s.errHead := rfl
@[simp] theorem State.setStrand_errLog (s : State) (r : Nat) (v : Strand) : (s.setStrand r v).errLog = s.errLog := rfl
@[simp] theorem State.setStrand_evtHead (s : State) (r : Nat) (v : Strand) : (s.setStrand r v).evtHead = s.evtHead := rfl
@[simp] theorem State.setStrand_evtLog (s : State) (r : Nat) (v : Strand) : (s.setStrand r v).evtLog = s.evtLog := rfl
@[simp] theorem State.setStrand_supplyOk (s : State) (r : Nat) (v : Strand) : (s.setStrand r v).supplyOk = s.supplyOk := rfl
@[simp] theorem State.setStrand_hbmGrant (s : State) (r : Nat) (v : Strand) : (s.setStrand r v).hbmGrant = s.hbmGrant := rfl
@[simp] theorem State.setStrand_dieTol (s : State) (r : Nat) (v : Strand) : (s.setStrand r v).dieTol = s.dieTol := rfl
@[simp] theorem State.setStrand_modTol (s : State) (r : Nat) (v : Strand) : (s.setStrand r v).modTol = s.modTol := rfl
@[simp] theorem State.setStrand_modState (s : State) (r : Nat) (v : Strand) : (s.setStrand r v).modState = s.modState := rfl
@[simp] theorem State.setStrand_idleCores (s : State) (r : Nat) (v : Strand) : (s.setStrand r v).idleCores = s.idleCores := rfl
@[simp] theorem State.setStrand_badClusters (s : State) (r : Nat) (v : Strand) : (s.setStrand r v).badClusters = s.badClusters := rfl
@[simp] theorem State.setStrand_spareUse (s : State) (r : Nat) (v : Strand) : (s.setStrand r v).spareUse = s.spareUse := rfl
@[simp] theorem State.setStrand_tests (s : State) (r : Nat) (v : Strand) : (s.setStrand r v).tests = s.tests := rfl
@[simp] theorem State.setStrand_errTimes (s : State) (r : Nat) (v : Strand) : (s.setStrand r v).errTimes = s.errTimes := rfl
@[simp] theorem State.setStrand_tested (s : State) (r : Nat) (v : Strand) : (s.setStrand r v).tested = s.tested := rfl
@[simp] theorem State.setStrand_dies (s : State) (r : Nat) (v : Strand) : (s.setStrand r v).dies = s.dies := rfl
@[simp] theorem State.setStrand_clusters (s : State) (r : Nat) (v : Strand) : (s.setStrand r v).clusters = s.clusters := rfl
@[simp] theorem State.setStrand_cores (s : State) (r : Nat) (v : Strand) : (s.setStrand r v).cores = s.cores := rfl
@[simp] theorem State.setStrand_anvils (s : State) (r : Nat) (v : Strand) : (s.setStrand r v).anvils = s.anvils := rfl
@[simp] theorem State.setStrand_strands (s : State) (r : Nat) (v : Strand) : (s.setStrand r v).strands = Maps.put s.strands r v := rfl
@[simp] theorem State.setStrand_trackers (s : State) (r : Nat) (v : Strand) : (s.setStrand r v).trackers = s.trackers := rfl
@[simp] theorem State.setStrand_sums (s : State) (r : Nat) (v : Strand) : (s.setStrand r v).sums = s.sums := rfl
@[simp] theorem State.setStrand_net (s : State) (r : Nat) (v : Strand) : (s.setStrand r v).net = s.net := rfl
@[simp] theorem State.setStrand_units (s : State) (r : Nat) (v : Strand) : (s.setStrand r v).units = s.units := rfl
@[simp] theorem State.setStrand_seqs (s : State) (r : Nat) (v : Strand) : (s.setStrand r v).seqs = s.seqs := rfl
@[simp] theorem State.setStrand_hbm (s : State) (r : Nat) (v : Strand) : (s.setStrand r v).hbm = s.hbm := rfl
@[simp] theorem State.setStrand_hbmMeta (s : State) (r : Nat) (v : Strand) : (s.setStrand r v).hbmMeta = s.hbmMeta := rfl
@[simp] theorem State.setStrand_badLines (s : State) (r : Nat) (v : Strand) : (s.setStrand r v).badLines = s.badLines := rfl
@[simp] theorem State.setStrand_rowActs (s : State) (r : Nat) (v : Strand) : (s.setStrand r v).rowActs = s.rowActs := rfl
@[simp] theorem State.setStrand_poison (s : State) (r : Nat) (v : Strand) : (s.setStrand r v).poison = s.poison := rfl
@[simp] theorem State.setStrand_lastWr (s : State) (r : Nat) (v : Strand) : (s.setStrand r v).lastWr = s.lastWr := rfl
@[simp] theorem State.setStrand_usedFrames (s : State) (r : Nat) (v : Strand) : (s.setStrand r v).usedFrames = s.usedFrames := rfl
@[simp] theorem State.setStrand_images (s : State) (r : Nat) (v : Strand) : (s.setStrand r v).images = s.images := rfl
@[simp] theorem State.setStrand_keepSize (s : State) (r : Nat) (v : Strand) : (s.setStrand r v).keepSize = s.keepSize := rfl
@[simp] theorem State.setStrand_graphs (s : State) (r : Nat) (v : Strand) : (s.setStrand r v).graphs = s.graphs := rfl
@[simp] theorem State.setStrand_instances (s : State) (r : Nat) (v : Strand) : (s.setStrand r v).instances = s.instances := rfl
@[simp] theorem State.setStrand_nodes (s : State) (r : Nat) (v : Strand) : (s.setStrand r v).nodes = s.nodes := rfl
@[simp] theorem State.setStrand_quench (s : State) (r : Nat) (v : Strand) : (s.setStrand r v).quench = s.quench := rfl
@[simp] theorem State.setStrand_savePool (s : State) (r : Nat) (v : Strand) : (s.setStrand r v).savePool = s.savePool := rfl
@[simp] theorem State.setStrand_keepEvents (s : State) (r : Nat) (v : Strand) : (s.setStrand r v).keepEvents = s.keepEvents := rfl
@[simp] theorem State.setStrand_sessions (s : State) (r : Nat) (v : Strand) : (s.setStrand r v).sessions = s.sessions := rfl
@[simp] theorem State.setStrand_sessUsed (s : State) (r : Nat) (v : Strand) : (s.setStrand r v).sessUsed = s.sessUsed := rfl
@[simp] theorem State.setStrand_keepq (s : State) (r : Nat) (v : Strand) : (s.setStrand r v).keepq = s.keepq := rfl
@[simp] theorem State.setStrand_starting (s : State) (r : Nat) (v : Strand) : (s.setStrand r v).starting = s.starting := rfl
@[simp] theorem State.setStrand_keepWait (s : State) (r : Nat) (v : Strand) : (s.setStrand r v).keepWait = s.keepWait := rfl
@[simp] theorem State.setStrand_ending (s : State) (r : Nat) (v : Strand) : (s.setStrand r v).ending = s.ending := rfl
@[simp] theorem State.setStrand_regions (s : State) (r : Nat) (v : Strand) : (s.setStrand r v).regions = s.regions := rfl
@[simp] theorem State.setStrand_qps (s : State) (r : Nat) (v : Strand) : (s.setStrand r v).qps = s.qps := rfl
@[simp] theorem State.setStrand_tgen (s : State) (r : Nat) (v : Strand) : (s.setStrand r v).tgen = s.tgen := rfl
@[simp] theorem State.setStrand_plan (s : State) (r : Nat) (v : Strand) : (s.setStrand r v).plan = s.plan := rfl
@[simp] theorem State.setStrand_reconf (s : State) (r : Nat) (v : Strand) : (s.setStrand r v).reconf = s.reconf := rfl
@[simp] theorem State.setStrand_plans (s : State) (r : Nat) (v : Strand) : (s.setStrand r v).plans = s.plans := rfl
@[simp] theorem State.setStrand_fibresUp (s : State) (r : Nat) (v : Strand) : (s.setStrand r v).fibresUp = s.fibresUp := rfl
@[simp] theorem State.setStrand_rcir (s : State) (r : Nat) (v : Strand) : (s.setStrand r v).rcir = s.rcir := rfl
@[simp] theorem State.setStrand_lead (s : State) (r : Nat) (v : Strand) : (s.setStrand r v).lead = s.lead := rfl
@[simp] theorem State.setStrand_chanOut (s : State) (r : Nat) (v : Strand) : (s.setStrand r v).chanOut = s.chanOut := rfl
@[simp] theorem State.setStrand_chanIn (s : State) (r : Nat) (v : Strand) : (s.setStrand r v).chanIn = s.chanIn := rfl
@[simp] theorem State.setStrand_chanLast (s : State) (r : Nat) (v : Strand) : (s.setStrand r v).chanLast = s.chanLast := rfl
@[simp] theorem State.setStrand_held (s : State) (r : Nat) (v : Strand) : (s.setStrand r v).held = s.held := rfl
@[simp] theorem State.setStrand_lantern (s : State) (r : Nat) (v : Strand) : (s.setStrand r v).lantern = s.lantern := rfl
@[simp] theorem State.setStrand_kept (s : State) (r : Nat) (v : Strand) : (s.setStrand r v).kept = s.kept := rfl
@[simp] theorem State.setStrand_heard (s : State) (r : Nat) (v : Strand) : (s.setStrand r v).heard = s.heard := rfl
@[simp] theorem State.setStrand_noPath (s : State) (r : Nat) (v : Strand) : (s.setStrand r v).noPath = s.noPath := rfl
@[simp] theorem State.setStrand_toSelf (s : State) (r : Nat) (v : Strand) : (s.setStrand r v).toSelf = s.toSelf := rfl
@[simp] theorem State.setStrand_remade (s : State) (r : Nat) (v : Strand) : (s.setStrand r v).remade = s.remade := rfl
@[simp] theorem State.setStrand_chanMade (s : State) (r : Nat) (v : Strand) : (s.setStrand r v).chanMade = s.chanMade := rfl
@[simp] theorem State.setStrand_planesUp (s : State) (r : Nat) (v : Strand) : (s.setStrand r v).planesUp = s.planesUp := rfl
@[simp] theorem State.setStrand_hearth (s : State) (r : Nat) (v : Strand) : (s.setStrand r v).hearth = s.hearth := rfl
@[simp] theorem State.setStrand_upcSeq (s : State) (r : Nat) (v : Strand) : (s.setStrand r v).upcSeq = s.upcSeq := rfl
@[simp] theorem State.setNode_tick (s : State) (n : BitVec 32) (v : Node) : (s.setNode n v).tick = s.tick := rfl
@[simp] theorem State.setNode_schedule (s : State) (n : BitVec 32) (v : Node) : (s.setNode n v).schedule = s.schedule := rfl
@[simp] theorem State.setNode_cur (s : State) (n : BitVec 32) (v : Node) : (s.setNode n v).cur = s.cur := rfl
@[simp] theorem State.setNode_fresh (s : State) (n : BitVec 32) (v : Node) : (s.setNode n v).fresh = s.fresh := rfl
@[simp] theorem State.setNode_outbox (s : State) (n : BitVec 32) (v : Node) : (s.setNode n v).outbox = s.outbox := rfl
@[simp] theorem State.setNode_boot (s : State) (n : BitVec 32) (v : Node) : (s.setNode n v).boot = s.boot := rfl
@[simp] theorem State.setNode_flash (s : State) (n : BitVec 32) (v : Node) : (s.setNode n v).flash = s.flash := rfl
@[simp] theorem State.setNode_modNo (s : State) (n : BitVec 32) (v : Node) : (s.setNode n v).modNo = s.modNo := rfl
@[simp] theorem State.setNode_modSet (s : State) (n : BitVec 32) (v : Node) : (s.setNode n v).modSet = s.modSet := rfl
@[simp] theorem State.setNode_domain (s : State) (n : BitVec 32) (v : Node) : (s.setNode n v).domain = s.domain := rfl
@[simp] theorem State.setNode_leader (s : State) (n : BitVec 32) (v : Node) : (s.setNode n v).leader = s.leader := rfl
@[simp] theorem State.setNode_measure (s : State) (n : BitVec 32) (v : Node) : (s.setNode n v).measure = s.measure := rfl
@[simp] theorem State.setNode_rollback (s : State) (n : BitVec 32) (v : Node) : (s.setNode n v).rollback = s.rollback := rfl
@[simp] theorem State.setNode_enrolLock (s : State) (n : BitVec 32) (v : Node) : (s.setNode n v).enrolLock = s.enrolLock := rfl
@[simp] theorem State.setNode_tracesel (s : State) (n : BitVec 32) (v : Node) : (s.setNode n v).tracesel = s.tracesel := rfl
@[simp] theorem State.setNode_ttbase (s : State) (n : BitVec 32) (v : Node) : (s.setNode n v).ttbase = s.ttbase := rfl
@[simp] theorem State.setNode_errHead (s : State) (n : BitVec 32) (v : Node) : (s.setNode n v).errHead = s.errHead := rfl
@[simp] theorem State.setNode_errLog (s : State) (n : BitVec 32) (v : Node) : (s.setNode n v).errLog = s.errLog := rfl
@[simp] theorem State.setNode_evtHead (s : State) (n : BitVec 32) (v : Node) : (s.setNode n v).evtHead = s.evtHead := rfl
@[simp] theorem State.setNode_evtLog (s : State) (n : BitVec 32) (v : Node) : (s.setNode n v).evtLog = s.evtLog := rfl
@[simp] theorem State.setNode_supplyOk (s : State) (n : BitVec 32) (v : Node) : (s.setNode n v).supplyOk = s.supplyOk := rfl
@[simp] theorem State.setNode_hbmGrant (s : State) (n : BitVec 32) (v : Node) : (s.setNode n v).hbmGrant = s.hbmGrant := rfl
@[simp] theorem State.setNode_dieTol (s : State) (n : BitVec 32) (v : Node) : (s.setNode n v).dieTol = s.dieTol := rfl
@[simp] theorem State.setNode_modTol (s : State) (n : BitVec 32) (v : Node) : (s.setNode n v).modTol = s.modTol := rfl
@[simp] theorem State.setNode_modState (s : State) (n : BitVec 32) (v : Node) : (s.setNode n v).modState = s.modState := rfl
@[simp] theorem State.setNode_idleCores (s : State) (n : BitVec 32) (v : Node) : (s.setNode n v).idleCores = s.idleCores := rfl
@[simp] theorem State.setNode_badClusters (s : State) (n : BitVec 32) (v : Node) : (s.setNode n v).badClusters = s.badClusters := rfl
@[simp] theorem State.setNode_spareUse (s : State) (n : BitVec 32) (v : Node) : (s.setNode n v).spareUse = s.spareUse := rfl
@[simp] theorem State.setNode_tests (s : State) (n : BitVec 32) (v : Node) : (s.setNode n v).tests = s.tests := rfl
@[simp] theorem State.setNode_errTimes (s : State) (n : BitVec 32) (v : Node) : (s.setNode n v).errTimes = s.errTimes := rfl
@[simp] theorem State.setNode_tested (s : State) (n : BitVec 32) (v : Node) : (s.setNode n v).tested = s.tested := rfl
@[simp] theorem State.setNode_dies (s : State) (n : BitVec 32) (v : Node) : (s.setNode n v).dies = s.dies := rfl
@[simp] theorem State.setNode_clusters (s : State) (n : BitVec 32) (v : Node) : (s.setNode n v).clusters = s.clusters := rfl
@[simp] theorem State.setNode_cores (s : State) (n : BitVec 32) (v : Node) : (s.setNode n v).cores = s.cores := rfl
@[simp] theorem State.setNode_anvils (s : State) (n : BitVec 32) (v : Node) : (s.setNode n v).anvils = s.anvils := rfl
@[simp] theorem State.setNode_strands (s : State) (n : BitVec 32) (v : Node) : (s.setNode n v).strands = s.strands := rfl
@[simp] theorem State.setNode_trackers (s : State) (n : BitVec 32) (v : Node) : (s.setNode n v).trackers = s.trackers := rfl
@[simp] theorem State.setNode_sums (s : State) (n : BitVec 32) (v : Node) : (s.setNode n v).sums = s.sums := rfl
@[simp] theorem State.setNode_net (s : State) (n : BitVec 32) (v : Node) : (s.setNode n v).net = s.net := rfl
@[simp] theorem State.setNode_units (s : State) (n : BitVec 32) (v : Node) : (s.setNode n v).units = s.units := rfl
@[simp] theorem State.setNode_seqs (s : State) (n : BitVec 32) (v : Node) : (s.setNode n v).seqs = s.seqs := rfl
@[simp] theorem State.setNode_hbm (s : State) (n : BitVec 32) (v : Node) : (s.setNode n v).hbm = s.hbm := rfl
@[simp] theorem State.setNode_hbmMeta (s : State) (n : BitVec 32) (v : Node) : (s.setNode n v).hbmMeta = s.hbmMeta := rfl
@[simp] theorem State.setNode_badLines (s : State) (n : BitVec 32) (v : Node) : (s.setNode n v).badLines = s.badLines := rfl
@[simp] theorem State.setNode_rowActs (s : State) (n : BitVec 32) (v : Node) : (s.setNode n v).rowActs = s.rowActs := rfl
@[simp] theorem State.setNode_poison (s : State) (n : BitVec 32) (v : Node) : (s.setNode n v).poison = s.poison := rfl
@[simp] theorem State.setNode_lastWr (s : State) (n : BitVec 32) (v : Node) : (s.setNode n v).lastWr = s.lastWr := rfl
@[simp] theorem State.setNode_usedFrames (s : State) (n : BitVec 32) (v : Node) : (s.setNode n v).usedFrames = s.usedFrames := rfl
@[simp] theorem State.setNode_images (s : State) (n : BitVec 32) (v : Node) : (s.setNode n v).images = s.images := rfl
@[simp] theorem State.setNode_keepSize (s : State) (n : BitVec 32) (v : Node) : (s.setNode n v).keepSize = s.keepSize := rfl
@[simp] theorem State.setNode_graphs (s : State) (n : BitVec 32) (v : Node) : (s.setNode n v).graphs = s.graphs := rfl
@[simp] theorem State.setNode_instances (s : State) (n : BitVec 32) (v : Node) : (s.setNode n v).instances = s.instances := rfl
@[simp] theorem State.setNode_nodes (s : State) (n : BitVec 32) (v : Node) : (s.setNode n v).nodes = Maps.put s.nodes n.toNat v := rfl
@[simp] theorem State.setNode_quench (s : State) (n : BitVec 32) (v : Node) : (s.setNode n v).quench = s.quench := rfl
@[simp] theorem State.setNode_savePool (s : State) (n : BitVec 32) (v : Node) : (s.setNode n v).savePool = s.savePool := rfl
@[simp] theorem State.setNode_keepEvents (s : State) (n : BitVec 32) (v : Node) : (s.setNode n v).keepEvents = s.keepEvents := rfl
@[simp] theorem State.setNode_sessions (s : State) (n : BitVec 32) (v : Node) : (s.setNode n v).sessions = s.sessions := rfl
@[simp] theorem State.setNode_sessUsed (s : State) (n : BitVec 32) (v : Node) : (s.setNode n v).sessUsed = s.sessUsed := rfl
@[simp] theorem State.setNode_keepq (s : State) (n : BitVec 32) (v : Node) : (s.setNode n v).keepq = s.keepq := rfl
@[simp] theorem State.setNode_starting (s : State) (n : BitVec 32) (v : Node) : (s.setNode n v).starting = s.starting := rfl
@[simp] theorem State.setNode_keepWait (s : State) (n : BitVec 32) (v : Node) : (s.setNode n v).keepWait = s.keepWait := rfl
@[simp] theorem State.setNode_ending (s : State) (n : BitVec 32) (v : Node) : (s.setNode n v).ending = s.ending := rfl
@[simp] theorem State.setNode_regions (s : State) (n : BitVec 32) (v : Node) : (s.setNode n v).regions = s.regions := rfl
@[simp] theorem State.setNode_qps (s : State) (n : BitVec 32) (v : Node) : (s.setNode n v).qps = s.qps := rfl
@[simp] theorem State.setNode_tgen (s : State) (n : BitVec 32) (v : Node) : (s.setNode n v).tgen = s.tgen := rfl
@[simp] theorem State.setNode_plan (s : State) (n : BitVec 32) (v : Node) : (s.setNode n v).plan = s.plan := rfl
@[simp] theorem State.setNode_reconf (s : State) (n : BitVec 32) (v : Node) : (s.setNode n v).reconf = s.reconf := rfl
@[simp] theorem State.setNode_plans (s : State) (n : BitVec 32) (v : Node) : (s.setNode n v).plans = s.plans := rfl
@[simp] theorem State.setNode_fibresUp (s : State) (n : BitVec 32) (v : Node) : (s.setNode n v).fibresUp = s.fibresUp := rfl
@[simp] theorem State.setNode_rcir (s : State) (n : BitVec 32) (v : Node) : (s.setNode n v).rcir = s.rcir := rfl
@[simp] theorem State.setNode_lead (s : State) (n : BitVec 32) (v : Node) : (s.setNode n v).lead = s.lead := rfl
@[simp] theorem State.setNode_chanOut (s : State) (n : BitVec 32) (v : Node) : (s.setNode n v).chanOut = s.chanOut := rfl
@[simp] theorem State.setNode_chanIn (s : State) (n : BitVec 32) (v : Node) : (s.setNode n v).chanIn = s.chanIn := rfl
@[simp] theorem State.setNode_chanLast (s : State) (n : BitVec 32) (v : Node) : (s.setNode n v).chanLast = s.chanLast := rfl
@[simp] theorem State.setNode_held (s : State) (n : BitVec 32) (v : Node) : (s.setNode n v).held = s.held := rfl
@[simp] theorem State.setNode_lantern (s : State) (n : BitVec 32) (v : Node) : (s.setNode n v).lantern = s.lantern := rfl
@[simp] theorem State.setNode_kept (s : State) (n : BitVec 32) (v : Node) : (s.setNode n v).kept = s.kept := rfl
@[simp] theorem State.setNode_heard (s : State) (n : BitVec 32) (v : Node) : (s.setNode n v).heard = s.heard := rfl
@[simp] theorem State.setNode_noPath (s : State) (n : BitVec 32) (v : Node) : (s.setNode n v).noPath = s.noPath := rfl
@[simp] theorem State.setNode_toSelf (s : State) (n : BitVec 32) (v : Node) : (s.setNode n v).toSelf = s.toSelf := rfl
@[simp] theorem State.setNode_remade (s : State) (n : BitVec 32) (v : Node) : (s.setNode n v).remade = s.remade := rfl
@[simp] theorem State.setNode_chanMade (s : State) (n : BitVec 32) (v : Node) : (s.setNode n v).chanMade = s.chanMade := rfl
@[simp] theorem State.setNode_planesUp (s : State) (n : BitVec 32) (v : Node) : (s.setNode n v).planesUp = s.planesUp := rfl
@[simp] theorem State.setNode_hearth (s : State) (n : BitVec 32) (v : Node) : (s.setNode n v).hearth = s.hearth := rfl
@[simp] theorem State.setNode_upcSeq (s : State) (n : BitVec 32) (v : Node) : (s.setNode n v).upcSeq = s.upcSeq := rfl
@[simp] theorem State.setInst_tick (s : State) (n : BitVec 32) (v : Instance) : (s.setInst n v).tick = s.tick := rfl
@[simp] theorem State.setInst_schedule (s : State) (n : BitVec 32) (v : Instance) : (s.setInst n v).schedule = s.schedule := rfl
@[simp] theorem State.setInst_cur (s : State) (n : BitVec 32) (v : Instance) : (s.setInst n v).cur = s.cur := rfl
@[simp] theorem State.setInst_fresh (s : State) (n : BitVec 32) (v : Instance) : (s.setInst n v).fresh = s.fresh := rfl
@[simp] theorem State.setInst_outbox (s : State) (n : BitVec 32) (v : Instance) : (s.setInst n v).outbox = s.outbox := rfl
@[simp] theorem State.setInst_boot (s : State) (n : BitVec 32) (v : Instance) : (s.setInst n v).boot = s.boot := rfl
@[simp] theorem State.setInst_flash (s : State) (n : BitVec 32) (v : Instance) : (s.setInst n v).flash = s.flash := rfl
@[simp] theorem State.setInst_modNo (s : State) (n : BitVec 32) (v : Instance) : (s.setInst n v).modNo = s.modNo := rfl
@[simp] theorem State.setInst_modSet (s : State) (n : BitVec 32) (v : Instance) : (s.setInst n v).modSet = s.modSet := rfl
@[simp] theorem State.setInst_domain (s : State) (n : BitVec 32) (v : Instance) : (s.setInst n v).domain = s.domain := rfl
@[simp] theorem State.setInst_leader (s : State) (n : BitVec 32) (v : Instance) : (s.setInst n v).leader = s.leader := rfl
@[simp] theorem State.setInst_measure (s : State) (n : BitVec 32) (v : Instance) : (s.setInst n v).measure = s.measure := rfl
@[simp] theorem State.setInst_rollback (s : State) (n : BitVec 32) (v : Instance) : (s.setInst n v).rollback = s.rollback := rfl
@[simp] theorem State.setInst_enrolLock (s : State) (n : BitVec 32) (v : Instance) : (s.setInst n v).enrolLock = s.enrolLock := rfl
@[simp] theorem State.setInst_tracesel (s : State) (n : BitVec 32) (v : Instance) : (s.setInst n v).tracesel = s.tracesel := rfl
@[simp] theorem State.setInst_ttbase (s : State) (n : BitVec 32) (v : Instance) : (s.setInst n v).ttbase = s.ttbase := rfl
@[simp] theorem State.setInst_errHead (s : State) (n : BitVec 32) (v : Instance) : (s.setInst n v).errHead = s.errHead := rfl
@[simp] theorem State.setInst_errLog (s : State) (n : BitVec 32) (v : Instance) : (s.setInst n v).errLog = s.errLog := rfl
@[simp] theorem State.setInst_evtHead (s : State) (n : BitVec 32) (v : Instance) : (s.setInst n v).evtHead = s.evtHead := rfl
@[simp] theorem State.setInst_evtLog (s : State) (n : BitVec 32) (v : Instance) : (s.setInst n v).evtLog = s.evtLog := rfl
@[simp] theorem State.setInst_supplyOk (s : State) (n : BitVec 32) (v : Instance) : (s.setInst n v).supplyOk = s.supplyOk := rfl
@[simp] theorem State.setInst_hbmGrant (s : State) (n : BitVec 32) (v : Instance) : (s.setInst n v).hbmGrant = s.hbmGrant := rfl
@[simp] theorem State.setInst_dieTol (s : State) (n : BitVec 32) (v : Instance) : (s.setInst n v).dieTol = s.dieTol := rfl
@[simp] theorem State.setInst_modTol (s : State) (n : BitVec 32) (v : Instance) : (s.setInst n v).modTol = s.modTol := rfl
@[simp] theorem State.setInst_modState (s : State) (n : BitVec 32) (v : Instance) : (s.setInst n v).modState = s.modState := rfl
@[simp] theorem State.setInst_idleCores (s : State) (n : BitVec 32) (v : Instance) : (s.setInst n v).idleCores = s.idleCores := rfl
@[simp] theorem State.setInst_badClusters (s : State) (n : BitVec 32) (v : Instance) : (s.setInst n v).badClusters = s.badClusters := rfl
@[simp] theorem State.setInst_spareUse (s : State) (n : BitVec 32) (v : Instance) : (s.setInst n v).spareUse = s.spareUse := rfl
@[simp] theorem State.setInst_tests (s : State) (n : BitVec 32) (v : Instance) : (s.setInst n v).tests = s.tests := rfl
@[simp] theorem State.setInst_errTimes (s : State) (n : BitVec 32) (v : Instance) : (s.setInst n v).errTimes = s.errTimes := rfl
@[simp] theorem State.setInst_tested (s : State) (n : BitVec 32) (v : Instance) : (s.setInst n v).tested = s.tested := rfl
@[simp] theorem State.setInst_dies (s : State) (n : BitVec 32) (v : Instance) : (s.setInst n v).dies = s.dies := rfl
@[simp] theorem State.setInst_clusters (s : State) (n : BitVec 32) (v : Instance) : (s.setInst n v).clusters = s.clusters := rfl
@[simp] theorem State.setInst_cores (s : State) (n : BitVec 32) (v : Instance) : (s.setInst n v).cores = s.cores := rfl
@[simp] theorem State.setInst_anvils (s : State) (n : BitVec 32) (v : Instance) : (s.setInst n v).anvils = s.anvils := rfl
@[simp] theorem State.setInst_strands (s : State) (n : BitVec 32) (v : Instance) : (s.setInst n v).strands = s.strands := rfl
@[simp] theorem State.setInst_trackers (s : State) (n : BitVec 32) (v : Instance) : (s.setInst n v).trackers = s.trackers := rfl
@[simp] theorem State.setInst_sums (s : State) (n : BitVec 32) (v : Instance) : (s.setInst n v).sums = s.sums := rfl
@[simp] theorem State.setInst_net (s : State) (n : BitVec 32) (v : Instance) : (s.setInst n v).net = s.net := rfl
@[simp] theorem State.setInst_units (s : State) (n : BitVec 32) (v : Instance) : (s.setInst n v).units = s.units := rfl
@[simp] theorem State.setInst_seqs (s : State) (n : BitVec 32) (v : Instance) : (s.setInst n v).seqs = s.seqs := rfl
@[simp] theorem State.setInst_hbm (s : State) (n : BitVec 32) (v : Instance) : (s.setInst n v).hbm = s.hbm := rfl
@[simp] theorem State.setInst_hbmMeta (s : State) (n : BitVec 32) (v : Instance) : (s.setInst n v).hbmMeta = s.hbmMeta := rfl
@[simp] theorem State.setInst_badLines (s : State) (n : BitVec 32) (v : Instance) : (s.setInst n v).badLines = s.badLines := rfl
@[simp] theorem State.setInst_rowActs (s : State) (n : BitVec 32) (v : Instance) : (s.setInst n v).rowActs = s.rowActs := rfl
@[simp] theorem State.setInst_poison (s : State) (n : BitVec 32) (v : Instance) : (s.setInst n v).poison = s.poison := rfl
@[simp] theorem State.setInst_lastWr (s : State) (n : BitVec 32) (v : Instance) : (s.setInst n v).lastWr = s.lastWr := rfl
@[simp] theorem State.setInst_usedFrames (s : State) (n : BitVec 32) (v : Instance) : (s.setInst n v).usedFrames = s.usedFrames := rfl
@[simp] theorem State.setInst_images (s : State) (n : BitVec 32) (v : Instance) : (s.setInst n v).images = s.images := rfl
@[simp] theorem State.setInst_keepSize (s : State) (n : BitVec 32) (v : Instance) : (s.setInst n v).keepSize = s.keepSize := rfl
@[simp] theorem State.setInst_graphs (s : State) (n : BitVec 32) (v : Instance) : (s.setInst n v).graphs = s.graphs := rfl
@[simp] theorem State.setInst_instances (s : State) (n : BitVec 32) (v : Instance) : (s.setInst n v).instances = Maps.put s.instances n.toNat v := rfl
@[simp] theorem State.setInst_nodes (s : State) (n : BitVec 32) (v : Instance) : (s.setInst n v).nodes = s.nodes := rfl
@[simp] theorem State.setInst_quench (s : State) (n : BitVec 32) (v : Instance) : (s.setInst n v).quench = s.quench := rfl
@[simp] theorem State.setInst_savePool (s : State) (n : BitVec 32) (v : Instance) : (s.setInst n v).savePool = s.savePool := rfl
@[simp] theorem State.setInst_keepEvents (s : State) (n : BitVec 32) (v : Instance) : (s.setInst n v).keepEvents = s.keepEvents := rfl
@[simp] theorem State.setInst_sessions (s : State) (n : BitVec 32) (v : Instance) : (s.setInst n v).sessions = s.sessions := rfl
@[simp] theorem State.setInst_sessUsed (s : State) (n : BitVec 32) (v : Instance) : (s.setInst n v).sessUsed = s.sessUsed := rfl
@[simp] theorem State.setInst_keepq (s : State) (n : BitVec 32) (v : Instance) : (s.setInst n v).keepq = s.keepq := rfl
@[simp] theorem State.setInst_starting (s : State) (n : BitVec 32) (v : Instance) : (s.setInst n v).starting = s.starting := rfl
@[simp] theorem State.setInst_keepWait (s : State) (n : BitVec 32) (v : Instance) : (s.setInst n v).keepWait = s.keepWait := rfl
@[simp] theorem State.setInst_ending (s : State) (n : BitVec 32) (v : Instance) : (s.setInst n v).ending = s.ending := rfl
@[simp] theorem State.setInst_regions (s : State) (n : BitVec 32) (v : Instance) : (s.setInst n v).regions = s.regions := rfl
@[simp] theorem State.setInst_qps (s : State) (n : BitVec 32) (v : Instance) : (s.setInst n v).qps = s.qps := rfl
@[simp] theorem State.setInst_tgen (s : State) (n : BitVec 32) (v : Instance) : (s.setInst n v).tgen = s.tgen := rfl
@[simp] theorem State.setInst_plan (s : State) (n : BitVec 32) (v : Instance) : (s.setInst n v).plan = s.plan := rfl
@[simp] theorem State.setInst_reconf (s : State) (n : BitVec 32) (v : Instance) : (s.setInst n v).reconf = s.reconf := rfl
@[simp] theorem State.setInst_plans (s : State) (n : BitVec 32) (v : Instance) : (s.setInst n v).plans = s.plans := rfl
@[simp] theorem State.setInst_fibresUp (s : State) (n : BitVec 32) (v : Instance) : (s.setInst n v).fibresUp = s.fibresUp := rfl
@[simp] theorem State.setInst_rcir (s : State) (n : BitVec 32) (v : Instance) : (s.setInst n v).rcir = s.rcir := rfl
@[simp] theorem State.setInst_lead (s : State) (n : BitVec 32) (v : Instance) : (s.setInst n v).lead = s.lead := rfl
@[simp] theorem State.setInst_chanOut (s : State) (n : BitVec 32) (v : Instance) : (s.setInst n v).chanOut = s.chanOut := rfl
@[simp] theorem State.setInst_chanIn (s : State) (n : BitVec 32) (v : Instance) : (s.setInst n v).chanIn = s.chanIn := rfl
@[simp] theorem State.setInst_chanLast (s : State) (n : BitVec 32) (v : Instance) : (s.setInst n v).chanLast = s.chanLast := rfl
@[simp] theorem State.setInst_held (s : State) (n : BitVec 32) (v : Instance) : (s.setInst n v).held = s.held := rfl
@[simp] theorem State.setInst_lantern (s : State) (n : BitVec 32) (v : Instance) : (s.setInst n v).lantern = s.lantern := rfl
@[simp] theorem State.setInst_kept (s : State) (n : BitVec 32) (v : Instance) : (s.setInst n v).kept = s.kept := rfl
@[simp] theorem State.setInst_heard (s : State) (n : BitVec 32) (v : Instance) : (s.setInst n v).heard = s.heard := rfl
@[simp] theorem State.setInst_noPath (s : State) (n : BitVec 32) (v : Instance) : (s.setInst n v).noPath = s.noPath := rfl
@[simp] theorem State.setInst_toSelf (s : State) (n : BitVec 32) (v : Instance) : (s.setInst n v).toSelf = s.toSelf := rfl
@[simp] theorem State.setInst_remade (s : State) (n : BitVec 32) (v : Instance) : (s.setInst n v).remade = s.remade := rfl
@[simp] theorem State.setInst_chanMade (s : State) (n : BitVec 32) (v : Instance) : (s.setInst n v).chanMade = s.chanMade := rfl
@[simp] theorem State.setInst_planesUp (s : State) (n : BitVec 32) (v : Instance) : (s.setInst n v).planesUp = s.planesUp := rfl
@[simp] theorem State.setInst_hearth (s : State) (n : BitVec 32) (v : Instance) : (s.setInst n v).hearth = s.hearth := rfl
@[simp] theorem State.setInst_upcSeq (s : State) (n : BitVec 32) (v : Instance) : (s.setInst n v).upcSeq = s.upcSeq := rfl
@[simp] theorem State.emit_tick (s : State) (o : Out) : (s.emit o).tick = s.tick := rfl
@[simp] theorem State.emit_schedule (s : State) (o : Out) : (s.emit o).schedule = s.schedule := rfl
@[simp] theorem State.emit_cur (s : State) (o : Out) : (s.emit o).cur = s.cur := rfl
@[simp] theorem State.emit_fresh (s : State) (o : Out) : (s.emit o).fresh = s.fresh := rfl
@[simp] theorem State.emit_outbox (s : State) (o : Out) : (s.emit o).outbox = s.outbox ++ [o] := rfl
@[simp] theorem State.emit_boot (s : State) (o : Out) : (s.emit o).boot = s.boot := rfl
@[simp] theorem State.emit_flash (s : State) (o : Out) : (s.emit o).flash = s.flash := rfl
@[simp] theorem State.emit_modNo (s : State) (o : Out) : (s.emit o).modNo = s.modNo := rfl
@[simp] theorem State.emit_modSet (s : State) (o : Out) : (s.emit o).modSet = s.modSet := rfl
@[simp] theorem State.emit_domain (s : State) (o : Out) : (s.emit o).domain = s.domain := rfl
@[simp] theorem State.emit_leader (s : State) (o : Out) : (s.emit o).leader = s.leader := rfl
@[simp] theorem State.emit_measure (s : State) (o : Out) : (s.emit o).measure = s.measure := rfl
@[simp] theorem State.emit_rollback (s : State) (o : Out) : (s.emit o).rollback = s.rollback := rfl
@[simp] theorem State.emit_enrolLock (s : State) (o : Out) : (s.emit o).enrolLock = s.enrolLock := rfl
@[simp] theorem State.emit_tracesel (s : State) (o : Out) : (s.emit o).tracesel = s.tracesel := rfl
@[simp] theorem State.emit_ttbase (s : State) (o : Out) : (s.emit o).ttbase = s.ttbase := rfl
@[simp] theorem State.emit_errHead (s : State) (o : Out) : (s.emit o).errHead = s.errHead := rfl
@[simp] theorem State.emit_errLog (s : State) (o : Out) : (s.emit o).errLog = s.errLog := rfl
@[simp] theorem State.emit_evtHead (s : State) (o : Out) : (s.emit o).evtHead = s.evtHead := rfl
@[simp] theorem State.emit_evtLog (s : State) (o : Out) : (s.emit o).evtLog = s.evtLog := rfl
@[simp] theorem State.emit_supplyOk (s : State) (o : Out) : (s.emit o).supplyOk = s.supplyOk := rfl
@[simp] theorem State.emit_hbmGrant (s : State) (o : Out) : (s.emit o).hbmGrant = s.hbmGrant := rfl
@[simp] theorem State.emit_dieTol (s : State) (o : Out) : (s.emit o).dieTol = s.dieTol := rfl
@[simp] theorem State.emit_modTol (s : State) (o : Out) : (s.emit o).modTol = s.modTol := rfl
@[simp] theorem State.emit_modState (s : State) (o : Out) : (s.emit o).modState = s.modState := rfl
@[simp] theorem State.emit_idleCores (s : State) (o : Out) : (s.emit o).idleCores = s.idleCores := rfl
@[simp] theorem State.emit_badClusters (s : State) (o : Out) : (s.emit o).badClusters = s.badClusters := rfl
@[simp] theorem State.emit_spareUse (s : State) (o : Out) : (s.emit o).spareUse = s.spareUse := rfl
@[simp] theorem State.emit_tests (s : State) (o : Out) : (s.emit o).tests = s.tests := rfl
@[simp] theorem State.emit_errTimes (s : State) (o : Out) : (s.emit o).errTimes = s.errTimes := rfl
@[simp] theorem State.emit_tested (s : State) (o : Out) : (s.emit o).tested = s.tested := rfl
@[simp] theorem State.emit_dies (s : State) (o : Out) : (s.emit o).dies = s.dies := rfl
@[simp] theorem State.emit_clusters (s : State) (o : Out) : (s.emit o).clusters = s.clusters := rfl
@[simp] theorem State.emit_cores (s : State) (o : Out) : (s.emit o).cores = s.cores := rfl
@[simp] theorem State.emit_anvils (s : State) (o : Out) : (s.emit o).anvils = s.anvils := rfl
@[simp] theorem State.emit_strands (s : State) (o : Out) : (s.emit o).strands = s.strands := rfl
@[simp] theorem State.emit_trackers (s : State) (o : Out) : (s.emit o).trackers = s.trackers := rfl
@[simp] theorem State.emit_sums (s : State) (o : Out) : (s.emit o).sums = s.sums := rfl
@[simp] theorem State.emit_net (s : State) (o : Out) : (s.emit o).net = s.net := rfl
@[simp] theorem State.emit_units (s : State) (o : Out) : (s.emit o).units = s.units := rfl
@[simp] theorem State.emit_seqs (s : State) (o : Out) : (s.emit o).seqs = s.seqs := rfl
@[simp] theorem State.emit_hbm (s : State) (o : Out) : (s.emit o).hbm = s.hbm := rfl
@[simp] theorem State.emit_hbmMeta (s : State) (o : Out) : (s.emit o).hbmMeta = s.hbmMeta := rfl
@[simp] theorem State.emit_badLines (s : State) (o : Out) : (s.emit o).badLines = s.badLines := rfl
@[simp] theorem State.emit_rowActs (s : State) (o : Out) : (s.emit o).rowActs = s.rowActs := rfl
@[simp] theorem State.emit_poison (s : State) (o : Out) : (s.emit o).poison = s.poison := rfl
@[simp] theorem State.emit_lastWr (s : State) (o : Out) : (s.emit o).lastWr = s.lastWr := rfl
@[simp] theorem State.emit_usedFrames (s : State) (o : Out) : (s.emit o).usedFrames = s.usedFrames := rfl
@[simp] theorem State.emit_images (s : State) (o : Out) : (s.emit o).images = s.images := rfl
@[simp] theorem State.emit_keepSize (s : State) (o : Out) : (s.emit o).keepSize = s.keepSize := rfl
@[simp] theorem State.emit_graphs (s : State) (o : Out) : (s.emit o).graphs = s.graphs := rfl
@[simp] theorem State.emit_instances (s : State) (o : Out) : (s.emit o).instances = s.instances := rfl
@[simp] theorem State.emit_nodes (s : State) (o : Out) : (s.emit o).nodes = s.nodes := rfl
@[simp] theorem State.emit_quench (s : State) (o : Out) : (s.emit o).quench = s.quench := rfl
@[simp] theorem State.emit_savePool (s : State) (o : Out) : (s.emit o).savePool = s.savePool := rfl
@[simp] theorem State.emit_keepEvents (s : State) (o : Out) : (s.emit o).keepEvents = s.keepEvents := rfl
@[simp] theorem State.emit_sessions (s : State) (o : Out) : (s.emit o).sessions = s.sessions := rfl
@[simp] theorem State.emit_sessUsed (s : State) (o : Out) : (s.emit o).sessUsed = s.sessUsed := rfl
@[simp] theorem State.emit_keepq (s : State) (o : Out) : (s.emit o).keepq = s.keepq := rfl
@[simp] theorem State.emit_starting (s : State) (o : Out) : (s.emit o).starting = s.starting := rfl
@[simp] theorem State.emit_keepWait (s : State) (o : Out) : (s.emit o).keepWait = s.keepWait := rfl
@[simp] theorem State.emit_ending (s : State) (o : Out) : (s.emit o).ending = s.ending := rfl
@[simp] theorem State.emit_regions (s : State) (o : Out) : (s.emit o).regions = s.regions := rfl
@[simp] theorem State.emit_qps (s : State) (o : Out) : (s.emit o).qps = s.qps := rfl
@[simp] theorem State.emit_tgen (s : State) (o : Out) : (s.emit o).tgen = s.tgen := rfl
@[simp] theorem State.emit_plan (s : State) (o : Out) : (s.emit o).plan = s.plan := rfl
@[simp] theorem State.emit_reconf (s : State) (o : Out) : (s.emit o).reconf = s.reconf := rfl
@[simp] theorem State.emit_plans (s : State) (o : Out) : (s.emit o).plans = s.plans := rfl
@[simp] theorem State.emit_fibresUp (s : State) (o : Out) : (s.emit o).fibresUp = s.fibresUp := rfl
@[simp] theorem State.emit_rcir (s : State) (o : Out) : (s.emit o).rcir = s.rcir := rfl
@[simp] theorem State.emit_lead (s : State) (o : Out) : (s.emit o).lead = s.lead := rfl
@[simp] theorem State.emit_chanOut (s : State) (o : Out) : (s.emit o).chanOut = s.chanOut := rfl
@[simp] theorem State.emit_chanIn (s : State) (o : Out) : (s.emit o).chanIn = s.chanIn := rfl
@[simp] theorem State.emit_chanLast (s : State) (o : Out) : (s.emit o).chanLast = s.chanLast := rfl
@[simp] theorem State.emit_held (s : State) (o : Out) : (s.emit o).held = s.held := rfl
@[simp] theorem State.emit_lantern (s : State) (o : Out) : (s.emit o).lantern = s.lantern := rfl
@[simp] theorem State.emit_kept (s : State) (o : Out) : (s.emit o).kept = s.kept := rfl
@[simp] theorem State.emit_heard (s : State) (o : Out) : (s.emit o).heard = s.heard := rfl
@[simp] theorem State.emit_noPath (s : State) (o : Out) : (s.emit o).noPath = s.noPath := rfl
@[simp] theorem State.emit_toSelf (s : State) (o : Out) : (s.emit o).toSelf = s.toSelf := rfl
@[simp] theorem State.emit_remade (s : State) (o : Out) : (s.emit o).remade = s.remade := rfl
@[simp] theorem State.emit_chanMade (s : State) (o : Out) : (s.emit o).chanMade = s.chanMade := rfl
@[simp] theorem State.emit_planesUp (s : State) (o : Out) : (s.emit o).planesUp = s.planesUp := rfl
@[simp] theorem State.emit_hearth (s : State) (o : Out) : (s.emit o).hearth = s.hearth := rfl
@[simp] theorem State.emit_upcSeq (s : State) (o : Out) : (s.emit o).upcSeq = s.upcSeq := rfl
@[simp] theorem State.take_tick (s : State) (m : Nat) : (s.take m).tick = s.tick := rfl
@[simp] theorem State.take_schedule (s : State) (m : Nat) : (s.take m).schedule = s.schedule := rfl
@[simp] theorem State.take_cur (s : State) (m : Nat) : (s.take m).cur = s.cur := rfl
@[simp] theorem State.take_fresh (s : State) (m : Nat) : (s.take m).fresh = s.fresh := rfl
@[simp] theorem State.take_outbox (s : State) (m : Nat) : (s.take m).outbox = s.outbox := rfl
@[simp] theorem State.take_boot (s : State) (m : Nat) : (s.take m).boot = s.boot := rfl
@[simp] theorem State.take_flash (s : State) (m : Nat) : (s.take m).flash = s.flash := rfl
@[simp] theorem State.take_modNo (s : State) (m : Nat) : (s.take m).modNo = s.modNo := rfl
@[simp] theorem State.take_modSet (s : State) (m : Nat) : (s.take m).modSet = s.modSet := rfl
@[simp] theorem State.take_domain (s : State) (m : Nat) : (s.take m).domain = s.domain := rfl
@[simp] theorem State.take_leader (s : State) (m : Nat) : (s.take m).leader = s.leader := rfl
@[simp] theorem State.take_measure (s : State) (m : Nat) : (s.take m).measure = s.measure := rfl
@[simp] theorem State.take_rollback (s : State) (m : Nat) : (s.take m).rollback = s.rollback := rfl
@[simp] theorem State.take_enrolLock (s : State) (m : Nat) : (s.take m).enrolLock = s.enrolLock := rfl
@[simp] theorem State.take_tracesel (s : State) (m : Nat) : (s.take m).tracesel = s.tracesel := rfl
@[simp] theorem State.take_ttbase (s : State) (m : Nat) : (s.take m).ttbase = s.ttbase := rfl
@[simp] theorem State.take_errHead (s : State) (m : Nat) : (s.take m).errHead = s.errHead := rfl
@[simp] theorem State.take_errLog (s : State) (m : Nat) : (s.take m).errLog = s.errLog := rfl
@[simp] theorem State.take_evtHead (s : State) (m : Nat) : (s.take m).evtHead = s.evtHead := rfl
@[simp] theorem State.take_evtLog (s : State) (m : Nat) : (s.take m).evtLog = s.evtLog := rfl
@[simp] theorem State.take_supplyOk (s : State) (m : Nat) : (s.take m).supplyOk = s.supplyOk := rfl
@[simp] theorem State.take_hbmGrant (s : State) (m : Nat) : (s.take m).hbmGrant = s.hbmGrant := rfl
@[simp] theorem State.take_dieTol (s : State) (m : Nat) : (s.take m).dieTol = s.dieTol := rfl
@[simp] theorem State.take_modTol (s : State) (m : Nat) : (s.take m).modTol = s.modTol := rfl
@[simp] theorem State.take_modState (s : State) (m : Nat) : (s.take m).modState = s.modState := rfl
@[simp] theorem State.take_idleCores (s : State) (m : Nat) : (s.take m).idleCores = s.idleCores := rfl
@[simp] theorem State.take_badClusters (s : State) (m : Nat) : (s.take m).badClusters = s.badClusters := rfl
@[simp] theorem State.take_spareUse (s : State) (m : Nat) : (s.take m).spareUse = s.spareUse := rfl
@[simp] theorem State.take_tests (s : State) (m : Nat) : (s.take m).tests = s.tests := rfl
@[simp] theorem State.take_errTimes (s : State) (m : Nat) : (s.take m).errTimes = s.errTimes := rfl
@[simp] theorem State.take_tested (s : State) (m : Nat) : (s.take m).tested = s.tested := rfl
@[simp] theorem State.take_dies (s : State) (m : Nat) : (s.take m).dies = s.dies := rfl
@[simp] theorem State.take_clusters (s : State) (m : Nat) : (s.take m).clusters = s.clusters := rfl
@[simp] theorem State.take_cores (s : State) (m : Nat) : (s.take m).cores = s.cores := rfl
@[simp] theorem State.take_anvils (s : State) (m : Nat) : (s.take m).anvils = s.anvils := rfl
@[simp] theorem State.take_strands (s : State) (m : Nat) : (s.take m).strands = s.strands := rfl
@[simp] theorem State.take_trackers (s : State) (m : Nat) : (s.take m).trackers = s.trackers := rfl
@[simp] theorem State.take_sums (s : State) (m : Nat) : (s.take m).sums = s.sums := rfl
@[simp] theorem State.take_net (s : State) (m : Nat) : (s.take m).net = Maps.del s.net m := rfl
@[simp] theorem State.take_units (s : State) (m : Nat) : (s.take m).units = s.units := rfl
@[simp] theorem State.take_seqs (s : State) (m : Nat) : (s.take m).seqs = s.seqs := rfl
@[simp] theorem State.take_hbm (s : State) (m : Nat) : (s.take m).hbm = s.hbm := rfl
@[simp] theorem State.take_hbmMeta (s : State) (m : Nat) : (s.take m).hbmMeta = s.hbmMeta := rfl
@[simp] theorem State.take_badLines (s : State) (m : Nat) : (s.take m).badLines = s.badLines := rfl
@[simp] theorem State.take_rowActs (s : State) (m : Nat) : (s.take m).rowActs = s.rowActs := rfl
@[simp] theorem State.take_poison (s : State) (m : Nat) : (s.take m).poison = s.poison := rfl
@[simp] theorem State.take_lastWr (s : State) (m : Nat) : (s.take m).lastWr = s.lastWr := rfl
@[simp] theorem State.take_usedFrames (s : State) (m : Nat) : (s.take m).usedFrames = s.usedFrames := rfl
@[simp] theorem State.take_images (s : State) (m : Nat) : (s.take m).images = s.images := rfl
@[simp] theorem State.take_keepSize (s : State) (m : Nat) : (s.take m).keepSize = s.keepSize := rfl
@[simp] theorem State.take_graphs (s : State) (m : Nat) : (s.take m).graphs = s.graphs := rfl
@[simp] theorem State.take_instances (s : State) (m : Nat) : (s.take m).instances = s.instances := rfl
@[simp] theorem State.take_nodes (s : State) (m : Nat) : (s.take m).nodes = s.nodes := rfl
@[simp] theorem State.take_quench (s : State) (m : Nat) : (s.take m).quench = s.quench := rfl
@[simp] theorem State.take_savePool (s : State) (m : Nat) : (s.take m).savePool = s.savePool := rfl
@[simp] theorem State.take_keepEvents (s : State) (m : Nat) : (s.take m).keepEvents = s.keepEvents := rfl
@[simp] theorem State.take_sessions (s : State) (m : Nat) : (s.take m).sessions = s.sessions := rfl
@[simp] theorem State.take_sessUsed (s : State) (m : Nat) : (s.take m).sessUsed = s.sessUsed := rfl
@[simp] theorem State.take_keepq (s : State) (m : Nat) : (s.take m).keepq = s.keepq := rfl
@[simp] theorem State.take_starting (s : State) (m : Nat) : (s.take m).starting = s.starting := rfl
@[simp] theorem State.take_keepWait (s : State) (m : Nat) : (s.take m).keepWait = s.keepWait := rfl
@[simp] theorem State.take_ending (s : State) (m : Nat) : (s.take m).ending = s.ending := rfl
@[simp] theorem State.take_regions (s : State) (m : Nat) : (s.take m).regions = s.regions := rfl
@[simp] theorem State.take_qps (s : State) (m : Nat) : (s.take m).qps = s.qps := rfl
@[simp] theorem State.take_tgen (s : State) (m : Nat) : (s.take m).tgen = s.tgen := rfl
@[simp] theorem State.take_plan (s : State) (m : Nat) : (s.take m).plan = s.plan := rfl
@[simp] theorem State.take_reconf (s : State) (m : Nat) : (s.take m).reconf = s.reconf := rfl
@[simp] theorem State.take_plans (s : State) (m : Nat) : (s.take m).plans = s.plans := rfl
@[simp] theorem State.take_fibresUp (s : State) (m : Nat) : (s.take m).fibresUp = s.fibresUp := rfl
@[simp] theorem State.take_rcir (s : State) (m : Nat) : (s.take m).rcir = s.rcir := rfl
@[simp] theorem State.take_lead (s : State) (m : Nat) : (s.take m).lead = s.lead := rfl
@[simp] theorem State.take_chanOut (s : State) (m : Nat) : (s.take m).chanOut = s.chanOut := rfl
@[simp] theorem State.take_chanIn (s : State) (m : Nat) : (s.take m).chanIn = s.chanIn := rfl
@[simp] theorem State.take_chanLast (s : State) (m : Nat) : (s.take m).chanLast = s.chanLast := rfl
@[simp] theorem State.take_held (s : State) (m : Nat) : (s.take m).held = s.held := rfl
@[simp] theorem State.take_lantern (s : State) (m : Nat) : (s.take m).lantern = s.lantern := rfl
@[simp] theorem State.take_kept (s : State) (m : Nat) : (s.take m).kept = s.kept := rfl
@[simp] theorem State.take_heard (s : State) (m : Nat) : (s.take m).heard = s.heard := rfl
@[simp] theorem State.take_noPath (s : State) (m : Nat) : (s.take m).noPath = s.noPath := rfl
@[simp] theorem State.take_toSelf (s : State) (m : Nat) : (s.take m).toSelf = s.toSelf := rfl
@[simp] theorem State.take_remade (s : State) (m : Nat) : (s.take m).remade = s.remade := rfl
@[simp] theorem State.take_chanMade (s : State) (m : Nat) : (s.take m).chanMade = s.chanMade := rfl
@[simp] theorem State.take_planesUp (s : State) (m : Nat) : (s.take m).planesUp = s.planesUp := rfl
@[simp] theorem State.take_hearth (s : State) (m : Nat) : (s.take m).hearth = s.hearth := rfl
@[simp] theorem State.take_upcSeq (s : State) (m : Nat) : (s.take m).upcSeq = s.upcSeq := rfl
@[simp] theorem State.send_tick (s : State) (m : Msg) : (s.send m).tick = s.tick := rfl
@[simp] theorem State.send_schedule (s : State) (m : Msg) : (s.send m).schedule = s.schedule := rfl
@[simp] theorem State.send_cur (s : State) (m : Msg) : (s.send m).cur = s.cur := rfl
@[simp] theorem State.send_fresh (s : State) (m : Msg) : (s.send m).fresh = s.fresh + 1 := rfl
@[simp] theorem State.send_outbox (s : State) (m : Msg) : (s.send m).outbox = s.outbox := rfl
@[simp] theorem State.send_boot (s : State) (m : Msg) : (s.send m).boot = s.boot := rfl
@[simp] theorem State.send_flash (s : State) (m : Msg) : (s.send m).flash = s.flash := rfl
@[simp] theorem State.send_modNo (s : State) (m : Msg) : (s.send m).modNo = s.modNo := rfl
@[simp] theorem State.send_modSet (s : State) (m : Msg) : (s.send m).modSet = s.modSet := rfl
@[simp] theorem State.send_domain (s : State) (m : Msg) : (s.send m).domain = s.domain := rfl
@[simp] theorem State.send_leader (s : State) (m : Msg) : (s.send m).leader = s.leader := rfl
@[simp] theorem State.send_measure (s : State) (m : Msg) : (s.send m).measure = s.measure := rfl
@[simp] theorem State.send_rollback (s : State) (m : Msg) : (s.send m).rollback = s.rollback := rfl
@[simp] theorem State.send_enrolLock (s : State) (m : Msg) : (s.send m).enrolLock = s.enrolLock := rfl
@[simp] theorem State.send_tracesel (s : State) (m : Msg) : (s.send m).tracesel = s.tracesel := rfl
@[simp] theorem State.send_ttbase (s : State) (m : Msg) : (s.send m).ttbase = s.ttbase := rfl
@[simp] theorem State.send_errHead (s : State) (m : Msg) : (s.send m).errHead = s.errHead := rfl
@[simp] theorem State.send_errLog (s : State) (m : Msg) : (s.send m).errLog = s.errLog := rfl
@[simp] theorem State.send_evtHead (s : State) (m : Msg) : (s.send m).evtHead = s.evtHead := rfl
@[simp] theorem State.send_evtLog (s : State) (m : Msg) : (s.send m).evtLog = s.evtLog := rfl
@[simp] theorem State.send_supplyOk (s : State) (m : Msg) : (s.send m).supplyOk = s.supplyOk := rfl
@[simp] theorem State.send_hbmGrant (s : State) (m : Msg) : (s.send m).hbmGrant = s.hbmGrant := rfl
@[simp] theorem State.send_dieTol (s : State) (m : Msg) : (s.send m).dieTol = s.dieTol := rfl
@[simp] theorem State.send_modTol (s : State) (m : Msg) : (s.send m).modTol = s.modTol := rfl
@[simp] theorem State.send_modState (s : State) (m : Msg) : (s.send m).modState = s.modState := rfl
@[simp] theorem State.send_idleCores (s : State) (m : Msg) : (s.send m).idleCores = s.idleCores := rfl
@[simp] theorem State.send_badClusters (s : State) (m : Msg) : (s.send m).badClusters = s.badClusters := rfl
@[simp] theorem State.send_spareUse (s : State) (m : Msg) : (s.send m).spareUse = s.spareUse := rfl
@[simp] theorem State.send_tests (s : State) (m : Msg) : (s.send m).tests = s.tests := rfl
@[simp] theorem State.send_errTimes (s : State) (m : Msg) : (s.send m).errTimes = s.errTimes := rfl
@[simp] theorem State.send_tested (s : State) (m : Msg) : (s.send m).tested = s.tested := rfl
@[simp] theorem State.send_dies (s : State) (m : Msg) : (s.send m).dies = s.dies := rfl
@[simp] theorem State.send_clusters (s : State) (m : Msg) : (s.send m).clusters = s.clusters := rfl
@[simp] theorem State.send_cores (s : State) (m : Msg) : (s.send m).cores = s.cores := rfl
@[simp] theorem State.send_anvils (s : State) (m : Msg) : (s.send m).anvils = s.anvils := rfl
@[simp] theorem State.send_strands (s : State) (m : Msg) : (s.send m).strands = s.strands := rfl
@[simp] theorem State.send_trackers (s : State) (m : Msg) : (s.send m).trackers = s.trackers := rfl
@[simp] theorem State.send_sums (s : State) (m : Msg) : (s.send m).sums = s.sums := rfl
@[simp] theorem State.send_net (s : State) (m : Msg) : (s.send m).net = Maps.put s.net s.fresh m := rfl
@[simp] theorem State.send_units (s : State) (m : Msg) : (s.send m).units = s.units := rfl
@[simp] theorem State.send_seqs (s : State) (m : Msg) : (s.send m).seqs = s.seqs := rfl
@[simp] theorem State.send_hbm (s : State) (m : Msg) : (s.send m).hbm = s.hbm := rfl
@[simp] theorem State.send_hbmMeta (s : State) (m : Msg) : (s.send m).hbmMeta = s.hbmMeta := rfl
@[simp] theorem State.send_badLines (s : State) (m : Msg) : (s.send m).badLines = s.badLines := rfl
@[simp] theorem State.send_rowActs (s : State) (m : Msg) : (s.send m).rowActs = s.rowActs := rfl
@[simp] theorem State.send_poison (s : State) (m : Msg) : (s.send m).poison = s.poison := rfl
@[simp] theorem State.send_lastWr (s : State) (m : Msg) : (s.send m).lastWr = s.lastWr := rfl
@[simp] theorem State.send_usedFrames (s : State) (m : Msg) : (s.send m).usedFrames = s.usedFrames := rfl
@[simp] theorem State.send_images (s : State) (m : Msg) : (s.send m).images = s.images := rfl
@[simp] theorem State.send_keepSize (s : State) (m : Msg) : (s.send m).keepSize = s.keepSize := rfl
@[simp] theorem State.send_graphs (s : State) (m : Msg) : (s.send m).graphs = s.graphs := rfl
@[simp] theorem State.send_instances (s : State) (m : Msg) : (s.send m).instances = s.instances := rfl
@[simp] theorem State.send_nodes (s : State) (m : Msg) : (s.send m).nodes = s.nodes := rfl
@[simp] theorem State.send_quench (s : State) (m : Msg) : (s.send m).quench = s.quench := rfl
@[simp] theorem State.send_savePool (s : State) (m : Msg) : (s.send m).savePool = s.savePool := rfl
@[simp] theorem State.send_keepEvents (s : State) (m : Msg) : (s.send m).keepEvents = s.keepEvents := rfl
@[simp] theorem State.send_sessions (s : State) (m : Msg) : (s.send m).sessions = s.sessions := rfl
@[simp] theorem State.send_sessUsed (s : State) (m : Msg) : (s.send m).sessUsed = s.sessUsed := rfl
@[simp] theorem State.send_keepq (s : State) (m : Msg) : (s.send m).keepq = s.keepq := rfl
@[simp] theorem State.send_starting (s : State) (m : Msg) : (s.send m).starting = s.starting := rfl
@[simp] theorem State.send_keepWait (s : State) (m : Msg) : (s.send m).keepWait = s.keepWait := rfl
@[simp] theorem State.send_ending (s : State) (m : Msg) : (s.send m).ending = s.ending := rfl
@[simp] theorem State.send_regions (s : State) (m : Msg) : (s.send m).regions = s.regions := rfl
@[simp] theorem State.send_qps (s : State) (m : Msg) : (s.send m).qps = s.qps := rfl
@[simp] theorem State.send_tgen (s : State) (m : Msg) : (s.send m).tgen = s.tgen := rfl
@[simp] theorem State.send_plan (s : State) (m : Msg) : (s.send m).plan = s.plan := rfl
@[simp] theorem State.send_reconf (s : State) (m : Msg) : (s.send m).reconf = s.reconf := rfl
@[simp] theorem State.send_plans (s : State) (m : Msg) : (s.send m).plans = s.plans := rfl
@[simp] theorem State.send_fibresUp (s : State) (m : Msg) : (s.send m).fibresUp = s.fibresUp := rfl
@[simp] theorem State.send_rcir (s : State) (m : Msg) : (s.send m).rcir = s.rcir := rfl
@[simp] theorem State.send_lead (s : State) (m : Msg) : (s.send m).lead = s.lead := rfl
@[simp] theorem State.send_chanOut (s : State) (m : Msg) : (s.send m).chanOut = s.chanOut := rfl
@[simp] theorem State.send_chanIn (s : State) (m : Msg) : (s.send m).chanIn = s.chanIn := rfl
@[simp] theorem State.send_chanLast (s : State) (m : Msg) : (s.send m).chanLast = s.chanLast := rfl
@[simp] theorem State.send_held (s : State) (m : Msg) : (s.send m).held = s.held := rfl
@[simp] theorem State.send_lantern (s : State) (m : Msg) : (s.send m).lantern = s.lantern := rfl
@[simp] theorem State.send_kept (s : State) (m : Msg) : (s.send m).kept = s.kept := rfl
@[simp] theorem State.send_heard (s : State) (m : Msg) : (s.send m).heard = s.heard := rfl
@[simp] theorem State.send_noPath (s : State) (m : Msg) : (s.send m).noPath = s.noPath := rfl
@[simp] theorem State.send_toSelf (s : State) (m : Msg) : (s.send m).toSelf = s.toSelf := rfl
@[simp] theorem State.send_remade (s : State) (m : Msg) : (s.send m).remade = s.remade := rfl
@[simp] theorem State.send_chanMade (s : State) (m : Msg) : (s.send m).chanMade = s.chanMade := rfl
@[simp] theorem State.send_planesUp (s : State) (m : Msg) : (s.send m).planesUp = s.planesUp := rfl
@[simp] theorem State.send_hearth (s : State) (m : Msg) : (s.send m).hearth = s.hearth := rfl
@[simp] theorem State.send_upcSeq (s : State) (m : Msg) : (s.send m).upcSeq = s.upcSeq := rfl
@[simp] theorem Strand.setReg_regs (x : Strand) (n : BitVec 4) (v : Word) : (x.setReg n v).regs = x.regs.set n.toNat v n.isLt := rfl
@[simp] theorem Strand.setReg_fd (x : Strand) (n : BitVec 4) (v : Word) : (x.setReg n v).fd = x.fd := rfl
@[simp] theorem Strand.setReg_pc (x : Strand) (n : BitVec 4) (v : Word) : (x.setReg n v).pc = x.pc := rfl
@[simp] theorem Strand.setReg_image (x : Strand) (n : BitVec 4) (v : Word) : (x.setReg n v).image = x.image := rfl
@[simp] theorem Strand.setReg_prio (x : Strand) (n : BitVec 4) (v : Word) : (x.setReg n v).prio = x.prio := rfl
@[simp] theorem Strand.setReg_win (x : Strand) (n : BitVec 4) (v : Word) : (x.setReg n v).win = x.win := rfl
@[simp] theorem Strand.setReg_steal (x : Strand) (n : BitVec 4) (v : Word) : (x.setReg n v).steal = x.steal := rfl
@[simp] theorem Strand.setReg_tpc (x : Strand) (n : BitVec 4) (v : Word) : (x.setReg n v).tpc = x.tpc := rfl
@[simp] theorem Strand.setReg_tcause (x : Strand) (n : BitVec 4) (v : Word) : (x.setReg n v).tcause = x.tcause := rfl
@[simp] theorem Strand.setReg_tval (x : Strand) (n : BitVec 4) (v : Word) : (x.setReg n v).tval = x.tval := rfl
@[simp] theorem Strand.setReg_fflags (x : Strand) (n : BitVec 4) (v : Word) : (x.setReg n v).fflags = x.fflags := rfl
@[simp] theorem Strand.setReg_rmode (x : Strand) (n : BitVec 4) (v : Word) : (x.setReg n v).rmode = x.rmode := rfl
@[simp] theorem Strand.setReg_batch (x : Strand) (n : BitVec 4) (v : Word) : (x.setReg n v).batch = x.batch := rfl
@[simp] theorem Strand.setReg_opens (x : Strand) (n : BitVec 4) (v : Word) : (x.setReg n v).opens = x.opens := rfl
@[simp] theorem Strand.setReg_node (x : Strand) (n : BitVec 4) (v : Word) : (x.setReg n v).node = x.node := rfl
@[simp] theorem Strand.setReg_window (x : Strand) (n : BitVec 4) (v : Word) : (x.setReg n v).window = x.window := rfl
@[simp] theorem Strand.setReg_tags (x : Strand) (n : BitVec 4) (v : Word) : (x.setReg n v).tags = x.tags := rfl
@[simp] theorem Strand.setReg_vecs (x : Strand) (n : BitVec 4) (v : Word) : (x.setReg n v).vecs = x.vecs := rfl
@[simp] theorem Strand.setReg_tiles (x : Strand) (n : BitVec 4) (v : Word) : (x.setReg n v).tiles = x.tiles := rfl
@[simp] theorem Strand.setReg_tracker (x : Strand) (n : BitVec 4) (v : Word) : (x.setReg n v).tracker = x.tracker := rfl
@[simp] theorem Strand.setReg_core (x : Strand) (n : BitVec 4) (v : Word) : (x.setReg n v).core = x.core := rfl
@[simp] theorem Strand.setReg_bound (x : Strand) (n : BitVec 4) (v : Word) : (x.setReg n v).bound = x.bound := rfl
@[simp] theorem Strand.setReg_root (x : Strand) (n : BitVec 4) (v : Word) : (x.setReg n v).root = x.root := rfl
@[simp] theorem Strand.setReg_loaded (x : Strand) (n : BitVec 4) (v : Word) : (x.setReg n v).loaded = x.loaded := rfl
@[simp] theorem Strand.setReg_handing (x : Strand) (n : BitVec 4) (v : Word) : (x.setReg n v).handing = x.handing := rfl
@[simp] theorem Strand.setReg_ended (x : Strand) (n : BitVec 4) (v : Word) : (x.setReg n v).ended = x.ended := rfl
@[simp] theorem Strand.setReg_loc (x : Strand) (n : BitVec 4) (v : Word) : (x.setReg n v).loc = x.loc := rfl
@[simp] theorem Strand.setReg_wait (x : Strand) (n : BitVec 4) (v : Word) : (x.setReg n v).wait = x.wait := rfl
@[simp] theorem Strand.next_regs (x : Strand) (len : Nat) : (x.next len).regs = x.regs := rfl
@[simp] theorem Strand.next_fd (x : Strand) (len : Nat) : (x.next len).fd = x.fd := rfl
@[simp] theorem Strand.next_pc (x : Strand) (len : Nat) : (x.next len).pc = x.pc + BitVec.ofNat 32 len := rfl
@[simp] theorem Strand.next_image (x : Strand) (len : Nat) : (x.next len).image = x.image := rfl
@[simp] theorem Strand.next_prio (x : Strand) (len : Nat) : (x.next len).prio = x.prio := rfl
@[simp] theorem Strand.next_win (x : Strand) (len : Nat) : (x.next len).win = x.win := rfl
@[simp] theorem Strand.next_steal (x : Strand) (len : Nat) : (x.next len).steal = x.steal := rfl
@[simp] theorem Strand.next_tpc (x : Strand) (len : Nat) : (x.next len).tpc = x.tpc := rfl
@[simp] theorem Strand.next_tcause (x : Strand) (len : Nat) : (x.next len).tcause = x.tcause := rfl
@[simp] theorem Strand.next_tval (x : Strand) (len : Nat) : (x.next len).tval = x.tval := rfl
@[simp] theorem Strand.next_fflags (x : Strand) (len : Nat) : (x.next len).fflags = x.fflags := rfl
@[simp] theorem Strand.next_rmode (x : Strand) (len : Nat) : (x.next len).rmode = x.rmode := rfl
@[simp] theorem Strand.next_batch (x : Strand) (len : Nat) : (x.next len).batch = x.batch := rfl
@[simp] theorem Strand.next_opens (x : Strand) (len : Nat) : (x.next len).opens = x.opens := rfl
@[simp] theorem Strand.next_node (x : Strand) (len : Nat) : (x.next len).node = x.node := rfl
@[simp] theorem Strand.next_window (x : Strand) (len : Nat) : (x.next len).window = x.window := rfl
@[simp] theorem Strand.next_tags (x : Strand) (len : Nat) : (x.next len).tags = x.tags := rfl
@[simp] theorem Strand.next_vecs (x : Strand) (len : Nat) : (x.next len).vecs = x.vecs := rfl
@[simp] theorem Strand.next_tiles (x : Strand) (len : Nat) : (x.next len).tiles = x.tiles := rfl
@[simp] theorem Strand.next_tracker (x : Strand) (len : Nat) : (x.next len).tracker = x.tracker := rfl
@[simp] theorem Strand.next_core (x : Strand) (len : Nat) : (x.next len).core = x.core := rfl
@[simp] theorem Strand.next_bound (x : Strand) (len : Nat) : (x.next len).bound = x.bound := rfl
@[simp] theorem Strand.next_root (x : Strand) (len : Nat) : (x.next len).root = x.root := rfl
@[simp] theorem Strand.next_loaded (x : Strand) (len : Nat) : (x.next len).loaded = x.loaded := rfl
@[simp] theorem Strand.next_handing (x : Strand) (len : Nat) : (x.next len).handing = x.handing := rfl
@[simp] theorem Strand.next_ended (x : Strand) (len : Nat) : (x.next len).ended = x.ended := rfl
@[simp] theorem Strand.next_loc (x : Strand) (len : Nat) : (x.next len).loc = x.loc := rfl
@[simp] theorem Strand.next_wait (x : Strand) (len : Nat) : (x.next len).wait = x.wait := rfl
@[simp] theorem Strand.orFlags_regs (x : Strand) (f : BitVec 5) : (x.orFlags f).regs = x.regs := rfl
@[simp] theorem Strand.orFlags_fd (x : Strand) (f : BitVec 5) : (x.orFlags f).fd = x.fd := rfl
@[simp] theorem Strand.orFlags_pc (x : Strand) (f : BitVec 5) : (x.orFlags f).pc = x.pc := rfl
@[simp] theorem Strand.orFlags_image (x : Strand) (f : BitVec 5) : (x.orFlags f).image = x.image := rfl
@[simp] theorem Strand.orFlags_prio (x : Strand) (f : BitVec 5) : (x.orFlags f).prio = x.prio := rfl
@[simp] theorem Strand.orFlags_win (x : Strand) (f : BitVec 5) : (x.orFlags f).win = x.win := rfl
@[simp] theorem Strand.orFlags_steal (x : Strand) (f : BitVec 5) : (x.orFlags f).steal = x.steal := rfl
@[simp] theorem Strand.orFlags_tpc (x : Strand) (f : BitVec 5) : (x.orFlags f).tpc = x.tpc := rfl
@[simp] theorem Strand.orFlags_tcause (x : Strand) (f : BitVec 5) : (x.orFlags f).tcause = x.tcause := rfl
@[simp] theorem Strand.orFlags_tval (x : Strand) (f : BitVec 5) : (x.orFlags f).tval = x.tval := rfl
@[simp] theorem Strand.orFlags_fflags (x : Strand) (f : BitVec 5) : (x.orFlags f).fflags = x.fflags ||| f := rfl
@[simp] theorem Strand.orFlags_rmode (x : Strand) (f : BitVec 5) : (x.orFlags f).rmode = x.rmode := rfl
@[simp] theorem Strand.orFlags_batch (x : Strand) (f : BitVec 5) : (x.orFlags f).batch = x.batch := rfl
@[simp] theorem Strand.orFlags_opens (x : Strand) (f : BitVec 5) : (x.orFlags f).opens = x.opens := rfl
@[simp] theorem Strand.orFlags_node (x : Strand) (f : BitVec 5) : (x.orFlags f).node = x.node := rfl
@[simp] theorem Strand.orFlags_window (x : Strand) (f : BitVec 5) : (x.orFlags f).window = x.window := rfl
@[simp] theorem Strand.orFlags_tags (x : Strand) (f : BitVec 5) : (x.orFlags f).tags = x.tags := rfl
@[simp] theorem Strand.orFlags_vecs (x : Strand) (f : BitVec 5) : (x.orFlags f).vecs = x.vecs := rfl
@[simp] theorem Strand.orFlags_tiles (x : Strand) (f : BitVec 5) : (x.orFlags f).tiles = x.tiles := rfl
@[simp] theorem Strand.orFlags_tracker (x : Strand) (f : BitVec 5) : (x.orFlags f).tracker = x.tracker := rfl
@[simp] theorem Strand.orFlags_core (x : Strand) (f : BitVec 5) : (x.orFlags f).core = x.core := rfl
@[simp] theorem Strand.orFlags_bound (x : Strand) (f : BitVec 5) : (x.orFlags f).bound = x.bound := rfl
@[simp] theorem Strand.orFlags_root (x : Strand) (f : BitVec 5) : (x.orFlags f).root = x.root := rfl
@[simp] theorem Strand.orFlags_loaded (x : Strand) (f : BitVec 5) : (x.orFlags f).loaded = x.loaded := rfl
@[simp] theorem Strand.orFlags_handing (x : Strand) (f : BitVec 5) : (x.orFlags f).handing = x.handing := rfl
@[simp] theorem Strand.orFlags_ended (x : Strand) (f : BitVec 5) : (x.orFlags f).ended = x.ended := rfl
@[simp] theorem Strand.orFlags_loc (x : Strand) (f : BitVec 5) : (x.orFlags f).loc = x.loc := rfl
@[simp] theorem Strand.orFlags_wait (x : Strand) (f : BitVec 5) : (x.orFlags f).wait = x.wait := rfl
@[simp] theorem Strand.setTile_regs (x : Strand) (n : BitVec 3) (t : Option Tile) : (x.setTile n t).regs = x.regs := rfl
@[simp] theorem Strand.setTile_fd (x : Strand) (n : BitVec 3) (t : Option Tile) : (x.setTile n t).fd = x.fd := rfl
@[simp] theorem Strand.setTile_pc (x : Strand) (n : BitVec 3) (t : Option Tile) : (x.setTile n t).pc = x.pc := rfl
@[simp] theorem Strand.setTile_image (x : Strand) (n : BitVec 3) (t : Option Tile) : (x.setTile n t).image = x.image := rfl
@[simp] theorem Strand.setTile_prio (x : Strand) (n : BitVec 3) (t : Option Tile) : (x.setTile n t).prio = x.prio := rfl
@[simp] theorem Strand.setTile_win (x : Strand) (n : BitVec 3) (t : Option Tile) : (x.setTile n t).win = x.win := rfl
@[simp] theorem Strand.setTile_steal (x : Strand) (n : BitVec 3) (t : Option Tile) : (x.setTile n t).steal = x.steal := rfl
@[simp] theorem Strand.setTile_tpc (x : Strand) (n : BitVec 3) (t : Option Tile) : (x.setTile n t).tpc = x.tpc := rfl
@[simp] theorem Strand.setTile_tcause (x : Strand) (n : BitVec 3) (t : Option Tile) : (x.setTile n t).tcause = x.tcause := rfl
@[simp] theorem Strand.setTile_tval (x : Strand) (n : BitVec 3) (t : Option Tile) : (x.setTile n t).tval = x.tval := rfl
@[simp] theorem Strand.setTile_fflags (x : Strand) (n : BitVec 3) (t : Option Tile) : (x.setTile n t).fflags = x.fflags := rfl
@[simp] theorem Strand.setTile_rmode (x : Strand) (n : BitVec 3) (t : Option Tile) : (x.setTile n t).rmode = x.rmode := rfl
@[simp] theorem Strand.setTile_batch (x : Strand) (n : BitVec 3) (t : Option Tile) : (x.setTile n t).batch = x.batch := rfl
@[simp] theorem Strand.setTile_opens (x : Strand) (n : BitVec 3) (t : Option Tile) : (x.setTile n t).opens = x.opens := rfl
@[simp] theorem Strand.setTile_node (x : Strand) (n : BitVec 3) (t : Option Tile) : (x.setTile n t).node = x.node := rfl
@[simp] theorem Strand.setTile_window (x : Strand) (n : BitVec 3) (t : Option Tile) : (x.setTile n t).window = x.window := rfl
@[simp] theorem Strand.setTile_tags (x : Strand) (n : BitVec 3) (t : Option Tile) : (x.setTile n t).tags = x.tags := rfl
@[simp] theorem Strand.setTile_vecs (x : Strand) (n : BitVec 3) (t : Option Tile) : (x.setTile n t).vecs = x.vecs := rfl
@[simp] theorem Strand.setTile_tiles (x : Strand) (n : BitVec 3) (t : Option Tile) : (x.setTile n t).tiles = x.tiles.set n.toNat t n.isLt := rfl
@[simp] theorem Strand.setTile_tracker (x : Strand) (n : BitVec 3) (t : Option Tile) : (x.setTile n t).tracker = x.tracker := rfl
@[simp] theorem Strand.setTile_core (x : Strand) (n : BitVec 3) (t : Option Tile) : (x.setTile n t).core = x.core := rfl
@[simp] theorem Strand.setTile_bound (x : Strand) (n : BitVec 3) (t : Option Tile) : (x.setTile n t).bound = x.bound := rfl
@[simp] theorem Strand.setTile_root (x : Strand) (n : BitVec 3) (t : Option Tile) : (x.setTile n t).root = x.root := rfl
@[simp] theorem Strand.setTile_loaded (x : Strand) (n : BitVec 3) (t : Option Tile) : (x.setTile n t).loaded = x.loaded := rfl
@[simp] theorem Strand.setTile_handing (x : Strand) (n : BitVec 3) (t : Option Tile) : (x.setTile n t).handing = x.handing := rfl
@[simp] theorem Strand.setTile_ended (x : Strand) (n : BitVec 3) (t : Option Tile) : (x.setTile n t).ended = x.ended := rfl
@[simp] theorem Strand.setTile_loc (x : Strand) (n : BitVec 3) (t : Option Tile) : (x.setTile n t).loc = x.loc := rfl
@[simp] theorem Strand.setTile_wait (x : Strand) (n : BitVec 3) (t : Option Tile) : (x.setTile n t).wait = x.wait := rfl
@[simp] theorem Strand.setDesc_regs (x : Strand) (n : BitVec 3) (v : BitVec 32) : (x.setDesc n v).regs = x.regs := rfl
@[simp] theorem Strand.setDesc_fd (x : Strand) (n : BitVec 3) (v : BitVec 32) : (x.setDesc n v).fd = x.fd.set n.toNat v n.isLt := rfl
@[simp] theorem Strand.setDesc_pc (x : Strand) (n : BitVec 3) (v : BitVec 32) : (x.setDesc n v).pc = x.pc := rfl
@[simp] theorem Strand.setDesc_image (x : Strand) (n : BitVec 3) (v : BitVec 32) : (x.setDesc n v).image = x.image := rfl
@[simp] theorem Strand.setDesc_prio (x : Strand) (n : BitVec 3) (v : BitVec 32) : (x.setDesc n v).prio = x.prio := rfl
@[simp] theorem Strand.setDesc_win (x : Strand) (n : BitVec 3) (v : BitVec 32) : (x.setDesc n v).win = x.win := rfl
@[simp] theorem Strand.setDesc_steal (x : Strand) (n : BitVec 3) (v : BitVec 32) : (x.setDesc n v).steal = x.steal := rfl
@[simp] theorem Strand.setDesc_tpc (x : Strand) (n : BitVec 3) (v : BitVec 32) : (x.setDesc n v).tpc = x.tpc := rfl
@[simp] theorem Strand.setDesc_tcause (x : Strand) (n : BitVec 3) (v : BitVec 32) : (x.setDesc n v).tcause = x.tcause := rfl
@[simp] theorem Strand.setDesc_tval (x : Strand) (n : BitVec 3) (v : BitVec 32) : (x.setDesc n v).tval = x.tval := rfl
@[simp] theorem Strand.setDesc_fflags (x : Strand) (n : BitVec 3) (v : BitVec 32) : (x.setDesc n v).fflags = x.fflags := rfl
@[simp] theorem Strand.setDesc_rmode (x : Strand) (n : BitVec 3) (v : BitVec 32) : (x.setDesc n v).rmode = x.rmode := rfl
@[simp] theorem Strand.setDesc_batch (x : Strand) (n : BitVec 3) (v : BitVec 32) : (x.setDesc n v).batch = x.batch := rfl
@[simp] theorem Strand.setDesc_opens (x : Strand) (n : BitVec 3) (v : BitVec 32) : (x.setDesc n v).opens = x.opens := rfl
@[simp] theorem Strand.setDesc_node (x : Strand) (n : BitVec 3) (v : BitVec 32) : (x.setDesc n v).node = x.node := rfl
@[simp] theorem Strand.setDesc_window (x : Strand) (n : BitVec 3) (v : BitVec 32) : (x.setDesc n v).window = x.window := rfl
@[simp] theorem Strand.setDesc_tags (x : Strand) (n : BitVec 3) (v : BitVec 32) : (x.setDesc n v).tags = x.tags := rfl
@[simp] theorem Strand.setDesc_vecs (x : Strand) (n : BitVec 3) (v : BitVec 32) : (x.setDesc n v).vecs = x.vecs := rfl
@[simp] theorem Strand.setDesc_tiles (x : Strand) (n : BitVec 3) (v : BitVec 32) : (x.setDesc n v).tiles = x.tiles := rfl
@[simp] theorem Strand.setDesc_tracker (x : Strand) (n : BitVec 3) (v : BitVec 32) : (x.setDesc n v).tracker = x.tracker := rfl
@[simp] theorem Strand.setDesc_core (x : Strand) (n : BitVec 3) (v : BitVec 32) : (x.setDesc n v).core = x.core := rfl
@[simp] theorem Strand.setDesc_bound (x : Strand) (n : BitVec 3) (v : BitVec 32) : (x.setDesc n v).bound = x.bound := rfl
@[simp] theorem Strand.setDesc_root (x : Strand) (n : BitVec 3) (v : BitVec 32) : (x.setDesc n v).root = x.root := rfl
@[simp] theorem Strand.setDesc_loaded (x : Strand) (n : BitVec 3) (v : BitVec 32) : (x.setDesc n v).loaded = x.loaded := rfl
@[simp] theorem Strand.setDesc_handing (x : Strand) (n : BitVec 3) (v : BitVec 32) : (x.setDesc n v).handing = x.handing := rfl
@[simp] theorem Strand.setDesc_ended (x : Strand) (n : BitVec 3) (v : BitVec 32) : (x.setDesc n v).ended = x.ended := rfl
@[simp] theorem Strand.setDesc_loc (x : Strand) (n : BitVec 3) (v : BitVec 32) : (x.setDesc n v).loc = x.loc := rfl
@[simp] theorem Strand.setDesc_wait (x : Strand) (n : BitVec 3) (v : BitVec 32) : (x.setDesc n v).wait = x.wait := rfl
@[simp] theorem Strand.setW_regs (x : Strand) (i : Nat) (v : BitVec 32) : (x.setW i v).regs = x.regs := rfl
@[simp] theorem Strand.setW_fd (x : Strand) (i : Nat) (v : BitVec 32) : (x.setW i v).fd = x.fd := rfl
@[simp] theorem Strand.setW_pc (x : Strand) (i : Nat) (v : BitVec 32) : (x.setW i v).pc = x.pc := rfl
@[simp] theorem Strand.setW_image (x : Strand) (i : Nat) (v : BitVec 32) : (x.setW i v).image = x.image := rfl
@[simp] theorem Strand.setW_prio (x : Strand) (i : Nat) (v : BitVec 32) : (x.setW i v).prio = x.prio := rfl
@[simp] theorem Strand.setW_win (x : Strand) (i : Nat) (v : BitVec 32) : (x.setW i v).win = x.win := rfl
@[simp] theorem Strand.setW_steal (x : Strand) (i : Nat) (v : BitVec 32) : (x.setW i v).steal = x.steal := rfl
@[simp] theorem Strand.setW_tpc (x : Strand) (i : Nat) (v : BitVec 32) : (x.setW i v).tpc = x.tpc := rfl
@[simp] theorem Strand.setW_tcause (x : Strand) (i : Nat) (v : BitVec 32) : (x.setW i v).tcause = x.tcause := rfl
@[simp] theorem Strand.setW_tval (x : Strand) (i : Nat) (v : BitVec 32) : (x.setW i v).tval = x.tval := rfl
@[simp] theorem Strand.setW_fflags (x : Strand) (i : Nat) (v : BitVec 32) : (x.setW i v).fflags = x.fflags := rfl
@[simp] theorem Strand.setW_rmode (x : Strand) (i : Nat) (v : BitVec 32) : (x.setW i v).rmode = x.rmode := rfl
@[simp] theorem Strand.setW_batch (x : Strand) (i : Nat) (v : BitVec 32) : (x.setW i v).batch = x.batch := rfl
@[simp] theorem Strand.setW_opens (x : Strand) (i : Nat) (v : BitVec 32) : (x.setW i v).opens = x.opens := rfl
@[simp] theorem Strand.setW_node (x : Strand) (i : Nat) (v : BitVec 32) : (x.setW i v).node = x.node := rfl
@[simp] theorem Strand.setW_window (x : Strand) (i : Nat) (v : BitVec 32) : (x.setW i v).window = x.window.setIfInBounds i v := rfl
@[simp] theorem Strand.setW_tags (x : Strand) (i : Nat) (v : BitVec 32) : (x.setW i v).tags = x.tags := rfl
@[simp] theorem Strand.setW_vecs (x : Strand) (i : Nat) (v : BitVec 32) : (x.setW i v).vecs = x.vecs := rfl
@[simp] theorem Strand.setW_tiles (x : Strand) (i : Nat) (v : BitVec 32) : (x.setW i v).tiles = x.tiles := rfl
@[simp] theorem Strand.setW_tracker (x : Strand) (i : Nat) (v : BitVec 32) : (x.setW i v).tracker = x.tracker := rfl
@[simp] theorem Strand.setW_core (x : Strand) (i : Nat) (v : BitVec 32) : (x.setW i v).core = x.core := rfl
@[simp] theorem Strand.setW_bound (x : Strand) (i : Nat) (v : BitVec 32) : (x.setW i v).bound = x.bound := rfl
@[simp] theorem Strand.setW_root (x : Strand) (i : Nat) (v : BitVec 32) : (x.setW i v).root = x.root := rfl
@[simp] theorem Strand.setW_loaded (x : Strand) (i : Nat) (v : BitVec 32) : (x.setW i v).loaded = x.loaded := rfl
@[simp] theorem Strand.setW_handing (x : Strand) (i : Nat) (v : BitVec 32) : (x.setW i v).handing = x.handing := rfl
@[simp] theorem Strand.setW_ended (x : Strand) (i : Nat) (v : BitVec 32) : (x.setW i v).ended = x.ended := rfl
@[simp] theorem Strand.setW_loc (x : Strand) (i : Nat) (v : BitVec 32) : (x.setW i v).loc = x.loc := rfl
@[simp] theorem Strand.setW_wait (x : Strand) (i : Nat) (v : BitVec 32) : (x.setW i v).wait = x.wait := rfl
@[simp] theorem Strand.setVec_regs (x : Strand) (n : BitVec 3) (v : Vec) (t : BitVec 8) : (x.setVec n v t).regs = x.regs := rfl
@[simp] theorem Strand.setVec_fd (x : Strand) (n : BitVec 3) (v : Vec) (t : BitVec 8) : (x.setVec n v t).fd = x.fd := rfl
@[simp] theorem Strand.setVec_pc (x : Strand) (n : BitVec 3) (v : Vec) (t : BitVec 8) : (x.setVec n v t).pc = x.pc := rfl
@[simp] theorem Strand.setVec_image (x : Strand) (n : BitVec 3) (v : Vec) (t : BitVec 8) : (x.setVec n v t).image = x.image := rfl
@[simp] theorem Strand.setVec_prio (x : Strand) (n : BitVec 3) (v : Vec) (t : BitVec 8) : (x.setVec n v t).prio = x.prio := rfl
@[simp] theorem Strand.setVec_win (x : Strand) (n : BitVec 3) (v : Vec) (t : BitVec 8) : (x.setVec n v t).win = x.win := rfl
@[simp] theorem Strand.setVec_steal (x : Strand) (n : BitVec 3) (v : Vec) (t : BitVec 8) : (x.setVec n v t).steal = x.steal := rfl
@[simp] theorem Strand.setVec_tpc (x : Strand) (n : BitVec 3) (v : Vec) (t : BitVec 8) : (x.setVec n v t).tpc = x.tpc := rfl
@[simp] theorem Strand.setVec_tcause (x : Strand) (n : BitVec 3) (v : Vec) (t : BitVec 8) : (x.setVec n v t).tcause = x.tcause := rfl
@[simp] theorem Strand.setVec_tval (x : Strand) (n : BitVec 3) (v : Vec) (t : BitVec 8) : (x.setVec n v t).tval = x.tval := rfl
@[simp] theorem Strand.setVec_fflags (x : Strand) (n : BitVec 3) (v : Vec) (t : BitVec 8) : (x.setVec n v t).fflags = x.fflags := rfl
@[simp] theorem Strand.setVec_rmode (x : Strand) (n : BitVec 3) (v : Vec) (t : BitVec 8) : (x.setVec n v t).rmode = x.rmode := rfl
@[simp] theorem Strand.setVec_batch (x : Strand) (n : BitVec 3) (v : Vec) (t : BitVec 8) : (x.setVec n v t).batch = x.batch := rfl
@[simp] theorem Strand.setVec_opens (x : Strand) (n : BitVec 3) (v : Vec) (t : BitVec 8) : (x.setVec n v t).opens = x.opens := rfl
@[simp] theorem Strand.setVec_node (x : Strand) (n : BitVec 3) (v : Vec) (t : BitVec 8) : (x.setVec n v t).node = x.node := rfl
@[simp] theorem Strand.setVec_window (x : Strand) (n : BitVec 3) (v : Vec) (t : BitVec 8) : (x.setVec n v t).window = x.window := rfl
@[simp] theorem Strand.setVec_tags (x : Strand) (n : BitVec 3) (v : Vec) (t : BitVec 8) : (x.setVec n v t).tags = x.tags.set n.toNat t n.isLt := rfl
@[simp] theorem Strand.setVec_vecs (x : Strand) (n : BitVec 3) (v : Vec) (t : BitVec 8) : (x.setVec n v t).vecs = x.vecs.set n.toNat v n.isLt := rfl
@[simp] theorem Strand.setVec_tiles (x : Strand) (n : BitVec 3) (v : Vec) (t : BitVec 8) : (x.setVec n v t).tiles = x.tiles := rfl
@[simp] theorem Strand.setVec_tracker (x : Strand) (n : BitVec 3) (v : Vec) (t : BitVec 8) : (x.setVec n v t).tracker = x.tracker := rfl
@[simp] theorem Strand.setVec_core (x : Strand) (n : BitVec 3) (v : Vec) (t : BitVec 8) : (x.setVec n v t).core = x.core := rfl
@[simp] theorem Strand.setVec_bound (x : Strand) (n : BitVec 3) (v : Vec) (t : BitVec 8) : (x.setVec n v t).bound = x.bound := rfl
@[simp] theorem Strand.setVec_root (x : Strand) (n : BitVec 3) (v : Vec) (t : BitVec 8) : (x.setVec n v t).root = x.root := rfl
@[simp] theorem Strand.setVec_loaded (x : Strand) (n : BitVec 3) (v : Vec) (t : BitVec 8) : (x.setVec n v t).loaded = x.loaded := rfl
@[simp] theorem Strand.setVec_handing (x : Strand) (n : BitVec 3) (v : Vec) (t : BitVec 8) : (x.setVec n v t).handing = x.handing := rfl
@[simp] theorem Strand.setVec_ended (x : Strand) (n : BitVec 3) (v : Vec) (t : BitVec 8) : (x.setVec n v t).ended = x.ended := rfl
@[simp] theorem Strand.setVec_loc (x : Strand) (n : BitVec 3) (v : Vec) (t : BitVec 8) : (x.setVec n v t).loc = x.loc := rfl
@[simp] theorem Strand.setVec_wait (x : Strand) (n : BitVec 3) (v : Vec) (t : BitVec 8) : (x.setVec n v t).wait = x.wait := rfl

end Sys2Proof.Machine
end

