-- ==== Sys2Proof/Laws/Ops.lean ====
section
/-!
SUPPORT. What the shared operations do, said once: reading back what was set, issuing an instruction, translating, sending and
posting operations, raising a trap.
-/
namespace Sys2Proof.Machine

/-! ### Reading back -/

@[simp] theorem State.strand_setStrand_same (s : State) (r : Nat) (v : Strand) : (s.setStrand r v).strand r = some v :=
  Maps.get_put_same ..
theorem State.strand_setStrand_other (s : State) (r q : Nat) (v : Strand) (h : q ≠ r) : (s.setStrand r v).strand q = s.strand q :=
  Maps.get_put_other _ _ _ _ h
@[simp] theorem State.core_setCore_same (s : State) (k : BitVec 13) (v : Core) : (s.setCore k v).core k = v := by
  simp [State.core, Maps.getD, State.setCore, Maps.get_put_same]
theorem State.core_setCore_other (s : State) (k j : BitVec 13) (v : Core) (h : j ≠ k) : (s.setCore k v).core j = s.core j := by
  have : j.toNat ≠ k.toNat := fun e => h (BitVec.eq_of_toNat_eq e)
  simp [State.core, Maps.getD, State.setCore, Maps.get_put_other _ _ _ _ this]
@[simp] theorem State.cluster_setCluster_same (s : State) (c : BitVec 9) (v : Cluster) : (s.setCluster c v).cluster c = v := by
  simp [State.cluster, Maps.getD, State.setCluster, Maps.get_put_same]
theorem State.cluster_setCluster_other (s : State) (c d : BitVec 9) (v : Cluster) (h : d ≠ c) : (s.setCluster c v).cluster d = s.cluster d := by
  have : d.toNat ≠ c.toNat := fun e => h (BitVec.eq_of_toNat_eq e)
  simp [State.cluster, Maps.getD, State.setCluster, Maps.get_put_other _ _ _ _ this]
@[simp] theorem State.anvil_setAnvil_same (s : State) (a : BitVec 11) (v : Anvil) : (s.setAnvil a v).anvil a = v := by
  simp [State.anvil, Maps.getD, State.setAnvil, Maps.get_put_same]
@[simp] theorem State.die_setDie_same (s : State) (d : BitVec 3) (v : Die) : (s.setDie d v).die d = v := by
  simp [State.die, State.setDie]
@[simp] theorem State.node_setNode_same (s : State) (n : BitVec 32) (v : Node) : (s.setNode n v).node n = some v :=
  Maps.get_put_same ..
@[simp] theorem State.inst_setInst_same (s : State) (n : BitVec 32) (v : Instance) : (s.setInst n v).inst n = some v :=
  Maps.get_put_same ..

@[simp] theorem State.strand_setCore (s : State) (k : BitVec 13) (v : Core) (r : Nat) : (s.setCore k v).strand r = s.strand r := rfl
@[simp] theorem State.strand_setCluster (s : State) (k : BitVec 9) (v : Cluster) (r : Nat) : (s.setCluster k v).strand r = s.strand r := rfl
@[simp] theorem State.strand_setAnvil (s : State) (k : BitVec 11) (v : Anvil) (r : Nat) : (s.setAnvil k v).strand r = s.strand r := rfl
@[simp] theorem State.strand_setDie (s : State) (k : BitVec 3) (v : Die) (r : Nat) : (s.setDie k v).strand r = s.strand r := rfl
@[simp] theorem State.strand_setNode (s : State) (k : BitVec 32) (v : Node) (r : Nat) : (s.setNode k v).strand r = s.strand r := rfl
@[simp] theorem State.strand_take (s : State) (m r : Nat) : (s.take m).strand r = s.strand r := rfl
@[simp] theorem State.strand_send (s : State) (m : Msg) (r : Nat) : (s.send m).strand r = s.strand r := rfl
@[simp] theorem State.strand_emit (s : State) (o : Out) (r : Nat) : (s.emit o).strand r = s.strand r := rfl
@[simp] theorem State.strand_unack (s : State) (u : Nat) (q : Word) (r : Nat) : (s.unack u q).strand r = s.strand r := rfl
@[simp] theorem State.core_setStrand (s : State) (k : BitVec 13) (v : Strand) (r : Nat) : (s.setStrand r v).core k = s.core k := rfl
@[simp] theorem State.core_setCluster (s : State) (k : BitVec 13) (v : Cluster) (c : BitVec 9) : (s.setCluster c v).core k = s.core k := rfl
@[simp] theorem State.cluster_setStrand (s : State) (k : BitVec 9) (v : Strand) (r : Nat) : (s.setStrand r v).cluster k = s.cluster k := rfl
@[simp] theorem State.cluster_setCore (s : State) (k : BitVec 9) (v : Core) (c : BitVec 13) : (s.setCore c v).cluster k = s.cluster k := rfl
@[simp] theorem State.anvil_setStrand (s : State) (k : BitVec 11) (v : Strand) (r : Nat) : (s.setStrand r v).anvil k = s.anvil k := rfl
@[simp] theorem State.anvil_setCore (s : State) (k : BitVec 11) (v : Core) (c : BitVec 13) : (s.setCore c v).anvil k = s.anvil k := rfl
@[simp] theorem State.node_setStrand (s : State) (n : BitVec 32) (v : Strand) (r : Nat) : (s.setStrand r v).node n = s.node n := rfl

theorem State.updStrand_some (s : State) (r : Nat) (st : Strand) (f : Strand → Strand) (h : s.strand r = some st) :
    s.updStrand r f = s.setStrand r (f st) := by simp [State.updStrand, h]

/-! ### Leaving idle states, accesses of HBM, owed replies -/

/-- Rousing a die changes idle states alone. -/
theorem State.rouse_spec (s : State) (d : BitVec 3) : ∃ ds m, s.rouse d = { s with dies := ds, modState := m } := by
  unfold State.rouse State.rouseModule
  split <;> dsimp only <;> split <;> exact ⟨_, _, rfl⟩
/-- An access of HBM changes idle states and the counts of rows alone. -/
theorem State.touchHbm_spec (s : State) (a : Nat) : ∃ ds m l, s.touchHbm a = { s with dies := ds, modState := m, rowActs := l } := by
  obtain ⟨ds, m, h⟩ := s.rouse_spec (s.driver (BitVec.ofNat 5 (a / 2 ^ 36)))
  exact ⟨ds, m, _, by unfold State.touchHbm; rw [h]; rfl⟩
/-- So does a walk, which reads its entries. -/
theorem State.walked_spec (s : State) (vbn : BitVec 37) : ∃ ds m l, s.walked vbn = { s with dies := ds, modState := m, rowActs := l } := by
  unfold State.walked
  generalize s.walkAddrs vbn = as
  induction as generalizing s with
  | nil => exact ⟨_, _, _, rfl⟩
  | cons a r ih =>
    obtain ⟨ds, m, l, h⟩ := s.touchHbm_spec a
    obtain ⟨ds', m', l', h'⟩ := ih (s.touchHbm a)
    exact ⟨ds', m', l', by rw [List.foldl_cons, h', h]⟩

/-- A request that waits for nothing is answered OK. -/
theorem State.oweReply_now (s : State) (n q : BitVec 32) : s.oweReply n q [] [] = { s with keepWait := none }.reply n q 0 [] := rfl
/-- One that waits for something is owed its answer, and nothing else changes. -/
theorem State.oweReply_later (s : State) (n q : BitVec 32) (ends : List (BitVec 32)) (told : List (BitVec 8 × BitVec 37)) (h : ends ≠ [] ∨ told ≠ []) :
    s.oweReply n q ends told = { s with keepWait := some { session := n, seq := q, ends := ends, told := told } } := by
  unfold State.oweReply State.settleWait
  simp only [Bool.and_eq_true, List.isEmpty_iff]
  rw [if_neg fun e => h.elim (· e.1) (· e.2)]

/-! ### Issuing -/

theorem State.issuing_iff (s : State) (r : Nat) (st : Strand) : s.issuing = some (r, st) ↔ s.cur = some r ∧ s.strand r = some st := by
  unfold State.issuing
  split
  · simp_all
  · rename_i q hq
    split
    · constructor
      · intro e
        simp_all
      · rintro ⟨e, h⟩
        simp_all
    · simp_all
      grind

theorem State.strand_of_issuing {s : State} {r : Nat} {st : Strand} (h : s.issuing = some (r, st)) : s.strand r = some st :=
  ((State.issuing_iff s r st).1 h).2

/-- An issued instruction whose guard holds has its effect. -/
theorem State.issue_true {s : State} {r : Nat} {st : Strand} {g : Option Guard} (len : Nat) (eff : Nat → Strand → State)
    (h : s.issuing = some (r, st)) (hg : st.guardOk g = true) : s.issue g len eff = .next (eff r st) := by
  simp [State.issue, h, hg]

/-- With a false guard only the pc moves. -/
theorem State.issue_false {s : State} {r : Nat} {st : Strand} {g : Option Guard} (len : Nat) (eff : Nat → Strand → State)
    (h : s.issuing = some (r, st)) (hg : st.guardOk g = false) : s.issue g len eff = .next (s.setStrand r (st.next len)) := by
  simp [State.issue, h, hg]

theorem State.issueX_true {s : State} {r : Nat} {st : Strand} {o : XOp} (eff : Nat → Strand → State) (h : s.issuing = some (r, st))
    (hg : st.guardOk o.gd = true) : s.issueX o eff = .next (eff r st) := State.issue_true xlen eff h hg

/-! ### Operands and translation -/

theorem State.withEa_ok {s : State} {r : Nat} {st : Strand} {o : XOp} {n : Nat} (go : Ea → State)
    (h : (Handle.off (st.ea o n).h).toNat % n = 0) : s.withEa r st o n go = go (st.ea o n) := by
  simp [State.withEa, aligned, h]

theorem State.withEa_align {s : State} {r : Nat} {st : Strand} {o : XOp} {n : Nat} (go : Ea → State)
    (h : (Handle.off (st.ea o n).h).toNat % n ≠ 0) : s.withEa r st o n go = s.raise r 3 (st.ea o n).h := by
  simp [State.withEa, aligned, h]

theorem State.access_ok {s : State} {r : Nat} {st : Strand} {h : Word} {perm : BitVec 4} {p : Place} (go : Place → State)
    (hx : s.xlate (coreCluster st.home) true h perm = .ok p) : s.access r st h perm go = go p := by
  simp [State.access, hx]

theorem State.ifRoom_ok {s : State} {r : Nat} {st : Strand} {p : Place} {n : Nat} (go : State)
    (h : s.roomFor (unitCore st.home) (homeOf p) n = true) : s.ifRoom r st p n go = go := by
  simp [State.ifRoom, h]

/-! ### Traps -/

/-- While ACTIVE is clear a trap enters the handler. -/
theorem State.raise_enter {s : State} {r : Nat} {st : Strand} (cause : BitVec 5) (v : Word) (h : s.strand r = some st)
    (ha : st.tcause.getLsbD 7 = false) :
    s.raise r cause v = s.setStrand r
      { st with tpc := st.pc, tcause := 0x80#8 ||| cause.zeroExtend 8, tval := v,
                pc := s.trapbaseOf st + 16#32 * cause.zeroExtend 32, wait := .run } := by
  simp only [State.raise, h, ha, Bool.false_eq_true, if_false]

/-- While ACTIVE is set the Keep ends the instance. -/
theorem State.raise_active {s : State} {r : Nat} {st : Strand} (cause : BitVec 5) (v : Word) (h : s.strand r = some st)
    (ha : st.tcause.getLsbD 7 = true) : s.raise r cause v = s.endOwner r (0x80#8 ||| cause.zeroExtend 8) v := by
  simp only [State.raise, h, ha, if_true]

/-! ### Sending and posting -/

/-- What injecting a frame leaves alone: no message on the mesh moves, and no frame that the Lantern holds or keeps is lost. -/
structure SameStore (s t : State) : Prop where
  hbm : t.hbm = s.hbm
  cores : t.cores = s.cores
  clusters : t.clusters = s.clusters
  strands : t.strands = s.strands
  seqs : t.seqs = s.seqs
  units : t.units = s.units
  trackers : t.trackers = s.trackers
  dies : t.dies = s.dies
  net : t.net = s.net
  fresh : t.fresh = s.fresh
  modNo : t.modNo = s.modNo
  frames : ∀ f, f ∈ s.lantern ++ s.kept → f ∈ t.lantern ++ t.kept

/-- Logging a lost path changes the event log and nothing of these. -/
theorem State.logNoPath_spec (s : State) (m : BitVec 8) :
    SameStore s (s.logNoPath m) ∧ (s.logNoPath m).lantern = s.lantern ∧ (s.logNoPath m).kept = s.kept := by
  unfold State.logNoPath
  split <;> exact ⟨⟨rfl, rfl, rfl, rfl, rfl, rfl, rfl, rfl, rfl, rfl, rfl, fun _ h => h⟩, rfl, rfl⟩

/-- A frame of this module goes into the Lantern's queue, or out under the topology generation that stands and is kept. -/
theorem State.inject_spec (s : State) (f : Frame) (h : f.src = s.modNo) :
    SameStore s (s.inject f) ∧ ∃ g, { f with gen := g } ∈ (s.inject f).lantern ++ (s.inject f).kept := by
  unfold State.inject
  split
  · exact ⟨⟨rfl, rfl, rfl, rfl, rfl, rfl, rfl, rfl, rfl, rfl, rfl, fun g hg => by simp at hg ⊢; tauto⟩, f.gen, by simp⟩
  · split
    · exact ⟨⟨rfl, rfl, rfl, rfl, rfl, rfl, rfl, rfl, rfl, rfl, rfl, fun g hg => by simp [State.putOn, State.emit, h] at *; tauto⟩,
        s.sendGen, by simp [State.putOn, State.emit, h]⟩
    · obtain ⟨hs, hl, hk⟩ := s.logNoPath_spec f.dst
      exact ⟨⟨hs.hbm, hs.cores, hs.clusters, hs.strands, hs.seqs, hs.units, hs.trackers, hs.dies, hs.net, hs.fresh, hs.modNo,
        fun g hg => by simp only [hl, hk]; simp at hg ⊢; tauto⟩, f.gen, by simp⟩

/-- From `s` to `t` no frame is lost, and what was on the mesh under an earlier number than `s.fresh` stays. -/
structure Onward (s t : State) : Prop where
  modNo : t.modNo = s.modNo
  frames : ∀ f, f ∈ s.lantern ++ s.kept → f ∈ t.lantern ++ t.kept
  net : ∀ k, k < s.fresh → Maps.get t.net k = Maps.get s.net k
  fresh : s.fresh ≤ t.fresh

theorem Onward.refl (s : State) : Onward s s := ⟨rfl, fun _ h => h, fun _ _ => rfl, Nat.le_refl _⟩
theorem Onward.trans {s t u : State} (h : Onward s t) (h' : Onward t u) : Onward s u :=
  ⟨h'.modNo.trans h.modNo, fun f hf => h'.frames f (h.frames f hf),
    fun k hk => (h'.net k (Nat.lt_of_lt_of_le hk h.fresh)).trans (h.net k hk), Nat.le_trans h.fresh h'.fresh⟩

/-- A batch operation on its way stays so. -/
theorem Onward.onWay {s t : State} (h : Onward s t) {k : Nat} {o : Op} (hk : k < s.fresh) (ha : o.asker = .batch) (ho : s.onWay k o) :
    t.onWay k o := by
  obtain ⟨hm, hf, hn, _⟩ := h
  unfold State.onWay at ho ⊢
  split
  · rename_i m hp
    simp only [hp] at ho
    rw [hm]
    have hb : t.opBody o = s.opBody o := by simp [State.opBody, ha, Asker.clusterOf]
    rw [hb]
    exact ho.imp fun _ h => hf _ h
  · rename_i hp
    rw [hn k hk]
    revert ho
    split
    · rename_i m h'; exact absurd h' (hp m)
    · exact id

/-- What forwarding an operation leaves alone. -/
structure Forwarded (s t : State) : Prop extends Onward s t where
  hbm : t.hbm = s.hbm
  cores : t.cores = s.cores
  clusters : t.clusters = s.clusters
  strands : t.strands = s.strands
  seqs : t.seqs = s.seqs
  units : t.units = s.units
  trackers : t.trackers = s.trackers
  dies : t.dies = s.dies
  next : t.fresh = s.fresh + 1

/-- Forwarding an operation puts it on its way under the next number. -/
theorem State.forward_spec (s : State) (o : Op) : Forwarded s (s.forward o) ∧ (s.forward o).onWay s.fresh o := by
  cases hp : o.place with
  | off m =>
    have hf : s.forward o = { s with fresh := s.fresh + 1 }.inject { src := s.modNo, dst := m, num := s.fresh, body := s.opBody o } := by
      simp only [State.forward, hp]; rfl
    obtain ⟨h, hin⟩ := State.inject_spec { s with fresh := s.fresh + 1 } { src := s.modNo, dst := m, num := s.fresh, body := s.opBody o } rfl
    rw [← hf] at h hin
    refine ⟨⟨⟨h.modNo, h.frames, fun k _ => by rw [h.net], by rw [h.fresh]; simp⟩, h.hbm, h.cores, h.clusters, h.strands, h.seqs,
      h.units, h.trackers, h.dies, h.fresh⟩, ?_⟩
    have hb : (s.forward o).opBody o = s.opBody o := by
      simp only [State.opBody, Asker.clusterOf, State.strand, h.strands]
    simpa [State.onWay, hp, h.modNo, hb] using hin
  | dom _ | pad _ =>
    have hf : s.forward o = s.send (.op o) := by simp only [State.forward, hp]
    rw [hf]
    refine ⟨⟨⟨rfl, fun _ h => h, fun k hk => Maps.get_put_other _ _ _ _ (by omega), by simp [State.send]⟩, rfl, rfl, rfl, rfl, rfl,
      rfl, rfl, rfl, rfl⟩, ?_⟩
    simp [State.onWay, hp, State.send, Maps.get_put_same]

/-- The operation a unit sends. -/
def State.opOf (s : State) (kind : OpKind) (h : Word) (p : Place) (u : Nat) (a : Asker) (t : Nat) (b : BitVec 2) (ord : Nat)
    (node : BitVec 32) : Op :=
  { kind := kind, h := h, place := p, unit := u, seq := Maps.getD s.seqs u 0, asker := a, tracker := t, batch := b,
    ordinal := BitVec.ofNat 32 ord, node := node }

/-- Sending an operation puts it on its way under the next sequence number of its unit; nothing else of these changes. -/
theorem State.sendOp_spec (s : State) (kind : OpKind) (h : Word) (p : Place) (u : Nat) (a : Asker) (t : Nat) (b : BitVec 2) (ord : Nat)
    (node : BitVec 32) :
    let o := s.opOf kind h p u a t b ord node
    let x := s.sendOp kind h p u a t b ord node
    x.onWay s.fresh o ∧ Onward s x ∧ x.fresh = s.fresh + 1 ∧ x.seqs = Maps.put s.seqs u (Maps.getD s.seqs u 0 + 1) ∧
      x.units = Maps.put s.units u (Maps.getD s.units u [] ++ [o]) ∧ x.hbm = s.hbm ∧ x.cores = s.cores ∧ x.clusters = s.clusters ∧
      x.strands = s.strands ∧ x.trackers = s.trackers ∧ x.dies = s.dies := by
  intro o x
  obtain ⟨h, ho⟩ := State.forward_spec { (s.nextSeq u).2 with units := Maps.put s.units u (Maps.getD s.units u [] ++ [o]) } o
  exact ⟨ho, ⟨h.modNo, h.frames, h.net, h.fresh⟩, h.next, h.seqs, h.units, h.hbm, h.cores, h.clusters, h.strands, h.trackers, h.dies⟩

/-- The batch just written is the batch read. -/
theorem Tracker.get_set (t : Tracker) (b : BitVec 2) (v : BatchSt) : (t.set b v).get b = v := by
  unfold Tracker.get Tracker.set
  split <;> simp_all

/-- Counting one operation moves the next ordinal on by one. -/
theorem BatchSt.count_next (b : BatchSt) (h : Nat) : (b.count h).next = b.next + 1 := by
  unfold BatchSt.count; simp only; split <;> [rfl; (split <;> rfl)]

/-- Posting one operation: what it sends, and what it leaves alone. -/
theorem State.post_spec (s : State) (r : Nat) (st : Strand) (kind : OpKind) (h : Word) (p : Place) (b : BitVec 2) (hs : s.strand r = some st) :
   let u := unitCore st.home
   let n := ((Maps.getD s.trackers st.tracker Tracker.zero).get b).next
   let x := s.post r kind h p b
   let o : Op := s.opOf kind h p u .batch st.tracker b n st.node
   x.onWay s.fresh o ∧ Onward s x ∧ x.fresh = s.fresh + 1 ∧ x.seqs = Maps.put s.seqs u (Maps.getD s.seqs u 0 + 1) ∧
   x.hbm = s.hbm ∧ x.cores = s.cores ∧ x.clusters = s.clusters ∧ x.dies = s.dies ∧
   x.strands = Maps.put s.strands r { st with opens := st.opens ||| (1#4 <<< b.toNat) } ∧
   ((Maps.getD x.trackers st.tracker Tracker.zero).get b).next = n + 1 := by
  intro u n x o
  have hx : x = (s.openBatch r b (homeOf p)).2.sendOp kind h p u .batch st.tracker b (s.openBatch r b (homeOf p)).1 st.node := by
    simp only [x, State.post, hs, u]
  have h1 : (s.openBatch r b (homeOf p)).1 = n := by simp only [State.openBatch, hs]; rfl
  have h2 : (s.openBatch r b (homeOf p)).2 = ({ s with trackers := Maps.put s.trackers st.tracker ((Maps.getD s.trackers st.tracker Tracker.zero).set b (((Maps.getD s.trackers st.tracker Tracker.zero).get b).count (homeOf p))) } : State).setStrand r { st with opens := st.opens ||| (1#4 <<< b.toNat) } := by
    simp only [State.openBatch, hs]
  obtain ⟨e0,e1,e2,e3,e4,e5,e6,e7,e8,e9,e10⟩ := State.sendOp_spec (s.openBatch r b (homeOf p)).2 kind h p u .batch st.tracker b n st.node
  rw [h1] at hx
  rw [← hx] at e0 e1 e2 e3 e4 e5 e6 e7 e8 e9 e10
  rw [h2] at e0 e1 e2 e3 e4 e5 e6 e7 e8 e9 e10
  refine ⟨e0, ⟨e1.modNo, e1.frames, e1.net, e1.fresh⟩, e2, e3, e5, e6, e7, e10, e8, ?_⟩
  rw [e9]
  simp [Maps.getD, State.setStrand, Maps.get_put_same, Tracker.get_set, BatchSt.count_next, n]

/-- Posting several operations of one batch, in order. -/
theorem State.postAll (ops : List (OpKind × Word)) (s : State) (r : Nat) (st : Strand) (p : Place) (b : BitVec 2) (hs : s.strand r = some st) :
   let u := unitCore st.home
   let t := ops.foldl (fun t k => t.post r k.1 k.2 p b) s
   (ops ≠ [] → t.strand r = some { st with opens := st.opens ||| (1#4 <<< b.toNat) }) ∧
   Onward s t ∧
   (∀ k (hk : k < ops.length), t.onWay (s.fresh + k) { kind := ops[k].1, h := ops[k].2, place := p, unit := u, seq := Maps.getD s.seqs u 0 + BitVec.ofNat 64 k, asker := .batch, tracker := st.tracker, batch := b, ordinal := BitVec.ofNat 32 (((Maps.getD s.trackers st.tracker Tracker.zero).get b).next + k), node := st.node }) ∧
   (∀ q, q ≠ r → t.strand q = s.strand q) ∧ t.hbm = s.hbm ∧ t.cores = s.cores ∧ t.clusters = s.clusters := by
  induction ops generalizing s st with
  | nil => simp [Onward.refl]
  | cons a l ih =>
    intro u t
    obtain ⟨e0,e1,e2,e3,e4,e5,e6,e7,e8,e9⟩ := State.post_spec s r st a.1 a.2 p b hs
    have hs' : (s.post r a.1 a.2 p b).strand r = some { st with opens := st.opens ||| (1#4 <<< b.toNat) } := by
      simp only [State.strand, e8, Maps.get_put_same]
    obtain ⟨f1,f2,f3,f4,f5,f6,f7⟩ := ih (s.post r a.1 a.2 p b) { st with opens := st.opens ||| (1#4 <<< b.toNat) } hs'
    have ht : t = l.foldl (fun t k => t.post r k.1 k.2 p b) (s.post r a.1 a.2 p b) := rfl
    rw [← ht] at f1 f2 f3 f4 f5 f6 f7
    have hor : (st.opens ||| 1#4 <<< b.toNat) ||| 1#4 <<< b.toNat = st.opens ||| 1#4 <<< b.toNat := by
      rw [BitVec.or_assoc, BitVec.or_self]
    refine ⟨fun _ => ?_, e1.trans f2, fun k hk => ?_, fun q hq => ?_, f5.trans e4, f6.trans e5, f7.trans e6⟩
    · cases l with
      | nil => exact hs'
      | cons c l => rw [f1 (by simp)]; simp only [hor]
    · cases k with
      | zero =>
        have := f2.onWay (k := s.fresh) (by omega) rfl e0
        simpa only [Nat.add_zero, State.opOf, List.getElem_cons_zero, u, BitVec.ofNat_eq_ofNat, BitVec.add_zero] using this
      | succ k =>
        have := f3 k (by simpa using hk)
        rw [e2] at this
        rw [e9, e3] at this
        have hseq : Maps.getD (Maps.put s.seqs (unitCore st.home) (Maps.getD s.seqs (unitCore st.home) 0 + 1)) (unitCore st.home) 0 +
            BitVec.ofNat 64 k = Maps.getD s.seqs (unitCore st.home) 0 + BitVec.ofNat 64 (k + 1) := by
          simp only [Maps.getD, Maps.get_put_same, Option.getD_some]
          rw [show (1 : BitVec 64) = BitVec.ofNat 64 1 from rfl, BitVec.add_assoc, ← BitVec.ofNat_add, Nat.add_comm 1 k]
        have hord (n : Nat) : n + 1 + k = n + (k + 1) := by omega
        have hhome : Strand.home { st with opens := st.opens ||| 1#4 <<< b.toNat } = st.home := rfl
        rw [hhome, hseq, hord] at this
        simpa only [List.getElem_cons_succ, u, hord] using this
    · rw [f4 q hq]; simp only [State.strand, e8, Maps.get_put_other _ _ _ _ hq]

/-- A posting instruction that has its mapping and its room. -/
theorem State.posted_spec (s : State) (r : Nat) (st : Strand) (o : XOp) (e : Ea) (perm : BitVec 4) (ops : List (OpKind × Word))
   (len : Nat) (p : Place) (hs : s.issuing = some (r, st)) (hne : ops ≠ [])
   (hx : s.xlate (coreCluster st.home) true e.h perm = .ok p) (hr : s.roomFor (unitCore st.home) (homeOf p) ops.length = true) :
   let t := s.posted r st o e perm ops len
   let b := st.batchFor o
   t.strand r = some { st with regs := st.regs.set o.ra.toNat e.upd o.ra.isLt, pc := st.pc + BitVec.ofNat 32 len,
                                    opens := st.opens ||| (1#4 <<< b.toNat) } ∧
        (∀ k (hk : k < ops.length), t.onWay (s.fresh + k)
          { kind := ops[k].1, h := ops[k].2, place := p, unit := unitCore st.home,
            seq := Maps.getD s.seqs (unitCore st.home) 0 + BitVec.ofNat 64 k, asker := .batch, tracker := st.tracker, batch := b,
            ordinal := BitVec.ofNat 32 (((Maps.getD s.trackers st.tracker Tracker.zero).get b).next + k), node := st.node }) ∧
        (∀ q, q ≠ r → t.strand q = s.strand q) ∧ t.hbm = s.hbm ∧ t.cores = s.cores ∧ t.clusters = s.clusters := by
  intro t b
  have hs' := State.strand_of_issuing hs
  obtain ⟨f1,f2,f3,f4,f5,f6,f7⟩ := State.postAll ops s r st p b hs'
  have ht : t = (ops.foldl (fun t k => t.post r k.1 k.2 p b) s).setStrand r ((({ st with opens := st.opens ||| (1#4 <<< b.toNat) } : Strand).setReg o.ra e.upd).next len) := by
    simp only [t, State.posted]
    rw [State.access_ok _ hx, State.ifRoom_ok _ hr, State.updStrand_some _ _ _ _ (f1 hne)]
  refine ⟨?_, fun k hk => ?_, fun q hq => ?_, ?_, ?_, ?_⟩
  · exact (congrArg (fun z : State => z.strand r) ht).trans (State.strand_setStrand_same _ _ _)
  · rw [ht]; exact f3 k hk
  · exact (congrArg (fun z : State => z.strand q) ht).trans ((State.strand_setStrand_other _ _ _ _ hq).trans (f4 q hq))
  · exact (congrArg State.hbm ht).trans f5
  · exact (congrArg State.cores ht).trans f6
  · exact (congrArg State.clusters ht).trans f7

/-- A geometric sum from its first unit on. -/
theorem geo_succ (a c n : Nat) :
    ((List.range (n + 1)).map fun j => a * c ^ j).sum = a + c * ((List.range n).map fun j => a * c ^ j).sum := by
  rw [List.range_succ_eq_map, ← List.sum_map_mul_left]
  simp only [List.map_cons, List.map_map, List.sum_cons, Nat.pow_zero, Nat.mul_one]
  congr 2
  refine List.map_congr_left fun j _ => ?_
  simp only [Function.comp, Nat.succ_eq_add_one, Nat.pow_succ]
  rw [Nat.mul_comm (c ^ j) c, Nat.mul_left_comm]

/-- A repeated pattern as a sum over its units. -/
theorem patternRow_eq (w : Word) (n : Nat) : patternRow w n = ((List.range n).map fun j => w.toNat * 2 ^ (64 * j)).sum := by
  simp only [Nat.pow_mul]
  induction n with
  | zero => rfl
  | succ n ih => rw [geo_succ, ← ih, patternRow]

theorem pattern_eq (w : Word) :
    payloadOf (patternRow w 16) = BitVec.ofNat 32768 ((List.range 16).map fun j => w.toNat * 2 ^ (64 * j)).sum :=
  congrArg _ (patternRow_eq w 16)

end Sys2Proof.Machine
end

