-- ==== Sys2Proof/Tests/Slice0.lean ====
section
/-!
SUPPORT. Tests of the model: the well-formedness smoke, words of every member, single steps with results from the spec, its
worked examples, and witnesses for the hypotheses of the statements.
-/
namespace Sys2Proof.Tests
open Sys2Proof Sys2Proof.Machine
set_option Elab.async false

/-- A base form, the guarded form of the worked examples of R89, a window base form, and operand words of zeros. -/
def b : Form := { ext := false, gd := none }
def g : Form := { ext := true, gd := some { sense := false, reg := 3, bit := 5 } }
def w : WForm := { ext := false, gd := none, rm := 0, rd := false, ra := false, rb := false, rc := false, idx := 0 }
def x : XOp :=
  { rd := 0, ra := 0, rb := 0, imm12 := 0, gd := none, fmt := 0, fd := 0, rm := 0, mod := 0, rc := 0, re := 0,
    lme := false, lmr := 0, scope := 0, bx := false, bn := 0, am := 0, bit := 0, imm6 := 0 }

/-! ### Decoding -/

/-- Does the decoder read each list of words as the instruction beside it? -/
def reads (l : List (List (BitVec 32) × Instr)) : Bool := l.all fun p => decode p.1 == some p.2

/-- Words of every member. Majors 0x01 and 0x02 (R75, R88). -/
theorem test_decode_integer : reads [
    ([0x0112B000], .add b 1 2 11), ([0x0122B001], .sub b 2 2 11), ([0x0132B002], .mul b 3 2 11), ([0x0142B003], .mulh b 4 2 11),
    ([0x0152B004], .mulhu b 5 2 11), ([0x0162B005], .div b 6 2 11), ([0x0172B006], .divu b 7 2 11), ([0x0182B007], .rem b 8 2 11),
    ([0x0192B008], .remu b 9 2 11), ([0x01A2B010], .and b 10 2 11), ([0x01B2B011], .or b 11 2 11), ([0x01C2B012], .xor b 12 2 11),
    ([0x01D2B013], .andn b 13 2 11), ([0x01E2B020], .shl b 14 2 11), ([0x01F2B021], .shr b 15 2 11), ([0x0112B022], .sra b 1 2 11),
    ([0x0122B023], .ror b 2 2 11), ([0x0132B030], .min b 3 2 11), ([0x0142B031], .max b 4 2 11), ([0x0152B032], .minu b 5 2 11),
    ([0x0162B033], .maxu b 6 2 11), ([0x02340000], .clz b 3 4), ([0x02350040], .ctz b 3 5), ([0x02360080], .popc b 3 6),
    ([0x023700C0], .brev b 3 7), ([0x02380100], .abs b 3 8), ([0x0239015F], .sext b 3 9 31), ([0x02390187], .zext b 3 9 7),
    ([0x023901C0], .mov b 3 9)] = true := by decide +kernel

/-- Words of every member. Majors 0x03 to 0x0A with their literal forms, and an extended form with a guard (R73, R75, R76, R88). -/
theorem test_decode_immediate : reads [
    ([0x0312ABC0], .addi b 1 2 0xABC), ([0x43120000, 0x89ABCDEF, 0x01234567], .addiLiteral b 1 2 0x0123456789ABCDEF),
    ([0x0412ABC0], .andi b 1 2 0xABC), ([0x44120000, 0x89ABCDEF, 0x01234567], .andiLiteral b 1 2 0x0123456789ABCDEF),
    ([0x0512ABC0], .ori b 1 2 0xABC), ([0x45120000, 0x89ABCDEF, 0x01234567], .oriLiteral b 1 2 0x0123456789ABCDEF),
    ([0x0612ABC0], .xori b 1 2 0xABC), ([0x46120000, 0x89ABCDEF, 0x01234567], .xoriLiteral b 1 2 0x0123456789ABCDEF),
    ([0x07120250], .shli b 1 2 37), ([0x07120251], .shri b 1 2 37), ([0x07120252], .srai b 1 2 37), ([0x07120253], .rori b 1 2 37),
    ([0x084FFFFE], .movi b 4 0xFFFFE), ([0x09412345], .movhi b 4 0x12345),
    ([0x4A400000, 0x89ABCDEF, 0x01234567], .ldk b 4 0x0123456789ABCDEF), ([0x8112B000, 0x008C5000, 0x00000000], .add g 1 2 11),
    ([0xC3120000, 0x008C5000, 0x00000000, 0x89ABCDEF, 0x01234567], .addiLiteral g 1 2 0x0123456789ABCDEF)] = true := by decide +kernel

/-- Words of every member. Majors 0x0B to 0x0E (R75, R88). -/
theorem test_decode_bits : reads [
    ([0x0B1AD0B0], .bfx b 1 10 52 11), ([0x0B1AD0B1], .bfxu b 1 10 52 11), ([0x0B1AD0B2], .bfi b 1 10 52 11),
    ([0x0C12303F], .ceq b 1 2 3 63), ([0x0C12307F], .cne b 1 2 3 63), ([0x0C1230BF], .clt b 1 2 3 63), ([0x0C1230FF], .cltu b 1 2 3 63),
    ([0x0C12313F], .cle b 1 2 3 63), ([0x0C12317F], .cleu b 1 2 3 63), ([0x0D12FD09], .ceqi b 1 2 0xFD 9),
    ([0x4D120009, 0x89ABCDEF, 0x01234567], .ceqiLiteral b 1 2 9 0x0123456789ABCDEF), ([0x0D12FD49], .clti b 1 2 0xFD 9),
    ([0x4D120049, 0x89ABCDEF, 0x01234567], .cltiLiteral b 1 2 9 0x0123456789ABCDEF), ([0x0E120021], .bset b 1 2 33),
    ([0x0E120061], .bclr b 1 2 33), ([0x0E1200A1], .binv b 1 2 33), ([0x0E1250E1], .bmov b 1 2 5 33), ([0x0E125121], .sel b 1 2 5 33)] = true := by decide +kernel

/-- Words of every member. Majors 0x10 to 0x1C (R75, R80, R88). -/
theorem test_decode_pointers_and_branches : reads [
    ([0x10923000], .pmk b 9 2 3), ([0x109A3001], .padd b 9 10 3), ([0x109A3002], .pidx b 9 10 3), ([0x101AB003], .psub b 1 10 11),
    ([0x109A3004], .pgen b 9 10 3), ([0x109A0005], .pinc b 9 10), ([0x101A7006], .pfld b 1 10 7), ([0x109A0007], .pblk b 9 10),
    ([0x119A8000], .paddi b 9 10 0x800), ([0x14FFFFFE], .j b 0xFFFFFE), ([0x15000005], .jal b 5), ([0x16070000], .jr b 7),
    ([0x16370001], .jalr b 3 7), ([0x175F3FFF], .bbs b 5 60 0x3FFF), ([0x185F0007], .bbc b 5 60 7), ([0x195FFFFD], .bz b 5 0xFFFFD),
    ([0x1A500003], .bnz b 5 3), ([0x1B5FFFFE], .dbnz b 5 0xFFFFE), ([0x1C000000], .nop b)] = true := by decide +kernel

/-- Words of every member. Majors 0x20 to 0x24, base and extended (R75, R78, R88, R89). -/
theorem test_decode_window : reads [
    ([0x200420C0], .fadd w 1 2 3), ([0x200420C1], .fsub w 1 2 3), ([0x200420C2], .fmul w 1 2 3), ([0x200420C3], .fdiv w 1 2 3),
    ([0x20042004], .fsqrt w 1 2), ([0x200420C5], .fmin w 1 2 3), ([0x200420C6], .fmax w 1 2 3), ([0x20042007], .fabs w 1 2),
    ([0x20042008], .fneg w 1 2), ([0xA00420C0, 0x01000000, 0x00100000], .ffma { w with ext := true } 1 2 3 4),
    ([0xA00420C0, 0x02000000, 0x00100000], .ffms { w with ext := true } 1 2 3 4),
    ([0xA00020C0, 0x03000000, 0x00018900], .fclt { w with ext := true } 2 3 6 9),
    ([0xA00020C0, 0x04000000, 0x00018900], .fcle { w with ext := true } 2 3 6 9),
    ([0xA00020C0, 0x05000000, 0x00018900], .fceq { w with ext := true } 2 3 6 9),
    ([0xA00420C0, 0x00000010, 0xA5000000], .fadd { w with ext := true, rm := 4, rd := true, rb := true, idx := 5 } 1 2 3),
    ([0x21254000], .wget w 5 9), ([0x21254001], .wput w 9 5), ([0x21240C02], .wmov w 9 12), ([0x22042000], .fcvti w 1 2),
    ([0x22042001], .fcvtf w 1 2), ([0x2312FF83], .ldl b 3 1 2 0xFF8), ([0x23120105], .ldlu b 1 1 2 0x010),
    ([0x23120108], .stl b 0 1 2 0x010), ([0x2425448C], .wldl w 9 5 0x123), ([0x2425448D], .wstl w 9 5 0x123)] = true := by decide +kernel

/-- Words of every member. Majors 0x28 to 0x2E (R76, R77, R89, R212, R236, R257). -/
theorem test_decode_blocks : reads [
    ([0xA81A0010, 0x01000302, 0x00000000], .ld { x with rd := 1, ra := 10, imm12 := 16, fmt := 3, mod := 2 }),
    ([0xA82C0000, 0x02000BA0, 0x00002000], .ldv { x with rd := 2, ra := 12, fmt := 11, fd := 5, am := 2 }),
    ([0xA80C0000, 0x03000000, 0x030011F8], .wld { x with ra := 12, bit := 7, imm6 := 56, re := 3, am := 1 }),
    ([0xA92B0000, 0x01000300, 0x07001000], .st { x with rd := 2, ra := 11, fmt := 3, re := 7, am := 1 }),
    ([0xA94A0000, 0x02000001, 0x01019000], .stv { x with rd := 4, ra := 10, mod := 1, re := 1, am := 1, bx := true, bn := 2 }),
    ([0xAA190000, 0x01000000, 0x00000001], .wait { x with rd := 1, ra := 9, imm6 := 1 }),
    ([0xAA190000, 0x02000000, 0x00000000], .probe { x with rd := 1, ra := 9, bit := 0 }),
    ([0xAA090FFF, 0x03000000, 0x00000000], .seal { x with ra := 9, imm12 := 4095 }),
    ([0xAA090000, 0x04000000, 0x0001C000], .seale { x with ra := 9, bx := true, bn := 3 }),
    ([0xAA192000, 0x05000000, 0x00000000], .arm { x with rd := 1, ra := 9, rb := 2 }),
    ([0xAA190000, 0x06000000, 0x00000000], .clr { x with rd := 1, ra := 9 }),
    ([0xAA190000, 0x07000000, 0x00000000], .clrx { x with rd := 1, ra := 9 }),
    ([0xAA090000, 0x08000000, 0x00000000], .rel { x with ra := 9 }),
    ([0xAA09A000, 0x09000000, 0x0000001F], .fill { x with ra := 9, rb := 10, imm6 := 31 }),
    ([0xEA090000, 0x09000000, 0x00000003, 0x89ABCDEF, 0x01234567], .fillLiteral { x with ra := 9, imm6 := 3 } 0x0123456789ABCDEF),
    ([0xAA890000, 0x0A000000, 0x00000000], .genr { x with rd := 8, ra := 9 }),
    ([0xAB290000, 0x01000501, 0x00000003], .acc { x with rd := 2, ra := 9, fmt := 5, mod := 1, imm6 := 3 }),
    ([0xAB080000, 0x02000801, 0x00000000], .acct { x with rd := 0, ra := 8, fmt := 8, mod := 1 }),
    ([0xAB180000, 0x03000000, 0x00000000], .acnt { x with rd := 1, ra := 8 }),
    ([0xAC083000, 0x01000000, 0x00000001], .pref { x with ra := 8, rb := 3, imm6 := 1 }),
    ([0xAC180000, 0x02000000, 0x00000000], .discard { x with rd := 1, ra := 8 }),
    ([0xAC080000, 0x03000000, 0x00000000], .migr { x with ra := 8 }),
    ([0xAD189000, 0x01000000, 0x00014000], .cpy { x with rd := 1, ra := 8, rb := 9, bx := true, bn := 1 }),
    ([0xAD189000, 0x02000000, 0x30000000], .cpys { x with rd := 1, ra := 8, rb := 9, rc := 3 }),
    ([0xAD089000, 0x03000A00, 0x00000000], .cpyx { x with ra := 8, rb := 9, fmt := 10 }),
    ([0xAD183000, 0x04000000, 0x00000000], .cpyh { x with rd := 1, ra := 8, rb := 3 }),
    ([0xAE123000, 0x01000000, 0x0000000F], .hadd { x with rd := 1, ra := 2, rb := 3, imm6 := 15 }),
    ([0xAE123000, 0x02000000, 0x40000001], .hcas { x with rd := 1, ra := 2, rb := 3, rc := 4, imm6 := 1 })] = true := by decide +kernel

/-- Words of every member. Majors 0x30 to 0x33 (R76, R77, R89, R162). -/
theorem test_decode_vectors : reads [
    ([0xB0123000, 0x01000814, 0x00C00000], .vadd { x with rd := 1, ra := 2, rb := 3, fmt := 8, rm := 5, lme := true, lmr := 4 }),
    ([0xB0123000, 0x02000814, 0x00C00000], .vsub { x with rd := 1, ra := 2, rb := 3, fmt := 8, rm := 5, lme := true, lmr := 4 }),
    ([0xB0123000, 0x03000814, 0x00C00000], .vmul { x with rd := 1, ra := 2, rb := 3, fmt := 8, rm := 5, lme := true, lmr := 4 }),
    ([0xB0123000, 0x04000501, 0x70000000], .vfma { x with rd := 1, ra := 2, rb := 3, rc := 7, fmt := 5, mod := 1 }),
    ([0xB0123000, 0x05000501, 0x70000000], .vfms { x with rd := 1, ra := 2, rb := 3, rc := 7, fmt := 5, mod := 1 }),
    ([0xB0123000, 0x06000BE0, 0x00000000], .vmin { x with rd := 1, ra := 2, rb := 3, fmt := 11, fd := 7 }),
    ([0xB0123000, 0x07000BE0, 0x00000000], .vmax { x with rd := 1, ra := 2, rb := 3, fmt := 11, fd := 7 }),
    ([0xB0120000, 0x08000100, 0x00000000], .vabs { x with rd := 1, ra := 2, fmt := 1 }),
    ([0xB0120000, 0x09000300, 0x00000000], .vneg { x with rd := 1, ra := 2, fmt := 3 }),
    ([0xB1123000, 0x01000600, 0x00000000], .vand { x with rd := 1, ra := 2, rb := 3, fmt := 6 }),
    ([0xB1123000, 0x02000600, 0x00000000], .vor { x with rd := 1, ra := 2, rb := 3, fmt := 6 }),
    ([0xB1123000, 0x03000600, 0x00000000], .vxor { x with rd := 1, ra := 2, rb := 3, fmt := 6 }),
    ([0xB1123000, 0x04000600, 0x00000000], .vshl { x with rd := 1, ra := 2, rb := 3, fmt := 6 }),
    ([0xB1123000, 0x05000600, 0x00000000], .vshr { x with rd := 1, ra := 2, rb := 3, fmt := 6 }),
    ([0xB1123000, 0x06000600, 0x00000000], .vsra { x with rd := 1, ra := 2, rb := 3, fmt := 6 }),
    ([0xB2530000, 0x01000B00, 0x00000001], .vcvt { x with rd := 5, ra := 3, fmt := 11, imm6 := 1 }),
    ([0xB2534000, 0x02000900, 0x00000000], .vscl { x with rd := 5, ra := 3, rb := 4, fmt := 9, imm6 := 0 }),
    ([0xB2530000, 0x03000A1C, 0x00000000], .vrcp { x with rd := 5, ra := 3, fmt := 10, rm := 7 }),
    ([0xB2530000, 0x04000A1C, 0x00000000], .vrsq { x with rd := 5, ra := 3, fmt := 10, rm := 7 }),
    ([0xB2530000, 0x05000A1C, 0x00000000], .vexp2 { x with rd := 5, ra := 3, fmt := 10, rm := 7 }),
    ([0xB2530000, 0x06000A1C, 0x00000000], .vlog2 { x with rd := 5, ra := 3, fmt := 10, rm := 7 }),
    ([0xB2530000, 0x07000A1C, 0x00000000], .vtanh { x with rd := 5, ra := 3, fmt := 10, rm := 7 }),
    ([0xB2530000, 0x08000600, 0x00000003], .vred { x with rd := 5, ra := 3, fmt := 6, imm6 := 3 }),
    ([0xB3534000, 0x01000800, 0x00000006], .vcmp { x with rd := 5, ra := 3, rb := 4, fmt := 8, imm6 := 6 }),
    ([0xB3534000, 0x02000800, 0x06000000], .vsel { x with rd := 5, ra := 3, rb := 4, re := 6, fmt := 8 }),
    ([0xB3534000, 0x03000800, 0x00000000], .vperm { x with rd := 5, ra := 3, rb := 4, fmt := 8 }),
    ([0xB3530000, 0x04000800, 0x00000000], .vbcast { x with rd := 5, ra := 3, fmt := 8 }),
    ([0xF3500000, 0x04000800, 0x00000000, 0x89ABCDEF, 0x01234567], .vbcastLiteral { x with rd := 5, fmt := 8 } 0x0123456789ABCDEF),
    ([0xB3534000, 0x05000800, 0x00000000], .vins { x with rd := 5, ra := 3, rb := 4, fmt := 8 }),
    ([0xB3534000, 0x06000800, 0x00000000], .vext { x with rd := 5, ra := 3, rb := 4, fmt := 8 }),
    ([0xB3530000, 0x07000200, 0x00000000], .viota { x with rd := 5, ra := 3, fmt := 2 }),
    ([0xB3500000, 0x08000000, 0x00000000], .vzero { x with rd := 5, fmt := 0 }),
    ([0xB3530000, 0x09000800, 0x00000000], .vtag { x with rd := 5, ra := 3, fmt := 8 }),
    ([0xB3530000, 0x0A000000, 0x00000000], .vsettToDescriptor { x with rd := 5, ra := 3 }),
    ([0xB3530000, 0x0A000000, 0x00000001], .vsettFromDescriptor { x with rd := 5, ra := 3, imm6 := 1 }),
    ([0xB3534000, 0x0B000300, 0x00000000], .vpack { x with rd := 5, ra := 3, rb := 4, fmt := 3 }),
    ([0xB3530000, 0x0C000500, 0x00000001], .vunpk { x with rd := 5, ra := 3, fmt := 5, imm6 := 1 })] = true := by decide +kernel

/-- Words of every member. Majors 0x38 to 0x3A (R76, R77, R89, R183, R192). -/
theorem test_decode_tiles : reads [
    ([0xB8100000, 0x01000800, 0x00000000], .tacq { x with rd := 1, fmt := 8 }),
    ([0xB8100000, 0x02000000, 0x00000000], .trel { x with rd := 1 }),
    ([0xB8100000, 0x03000000, 0x00000002], .tzero { x with rd := 1, imm6 := 2 }),
    ([0xB8190000, 0x04000000, 0x00002000], .tld { x with rd := 1, ra := 9, am := 2 }),
    ([0xB80A0000, 0x05000800, 0x00014000], .tst { x with rd := 0, ra := 10, fmt := 8, bx := true, bn := 1 }),
    ([0xB8120000, 0x06000600, 0x00000000], .taddr { x with rd := 1, ra := 2, fmt := 6 }),
    ([0xB8120000, 0x07000818, 0x00000000], .taddc { x with rd := 1, ra := 2, fmt := 8, rm := 6 }),
    ([0xB8120000, 0x08000800, 0x00000001], .tscl { x with rd := 1, ra := 2, fmt := 8, imm6 := 1 }),
    ([0xB8120000, 0x09000800, 0x00000000], .tmaxr { x with rd := 1, ra := 2, fmt := 8 }),
    ([0xB8120000, 0x0A000601, 0x00000000], .tsumr { x with rd := 1, ra := 2, fmt := 6, mod := 1 }),
    ([0xB8120000, 0x0B000800, 0x00000000], .texpr { x with rd := 1, ra := 2, fmt := 8 }),
    ([0xB8123000, 0x0C000800, 0x00000000], .trdv { x with rd := 1, ra := 2, rb := 3, fmt := 8 }),
    ([0xB8123000, 0x0D000600, 0x00000001], .twrv { x with rd := 1, ra := 2, rb := 3, fmt := 6, imm6 := 1 }),
    ([0xB9089000, 0x01000900, 0x00002000], .mma { x with rd := 0, ra := 8, rb := 9, fmt := 9, am := 2 }),
    ([0xB9089000, 0x02000B20, 0xAB000002], .mmas { x with rd := 0, ra := 8, rb := 9, rc := 10, re := 11, fmt := 11, fd := 1, imm6 := 2 }),
    ([0xB9089000, 0x03000100, 0x00000002], .mmai { x with rd := 0, ra := 8, rb := 9, fmt := 1, imm6 := 2 }),
    ([0xBA123000, 0x01000000, 0x0000001F], .topk { x with rd := 1, ra := 2, rb := 3, imm6 := 31 }),
    ([0xBA120000, 0x02000000, 0x00000007], .topkm { x with rd := 1, ra := 2, imm6 := 7 })] = true := by decide +kernel

/-- Words of every member. Majors 0x3C to 0x3F (R75, R76, R88, R89, R325, R327). -/
theorem test_decode_system : reads [
    ([0x3C000003], .fence b 3), ([0x3C000102], .bsel b 2), ([0x3C500207], .bclose b 5 3 true), ([0x3D010002], .fork b 1 2),
    ([0x3D090100], .join b 9), ([0x3D000200], .yield b), ([0x3D123300], .spawn b 1 2 3), ([0x3D000400], .endStrand b),
    ([0xBE19A000, 0x01000000, 0x00014000], .send { x with rd := 1, ra := 9, rb := 10, bx := true, bn := 1 }),
    ([0xBE123000, 0x02000000, 0x00000000], .chmk { x with rd := 1, ra := 2, rb := 3 }),
    ([0xBE123000, 0x03000000, 0x00000000], .rcir { x with rd := 1, ra := 2, rb := 3 }),
    ([0xBE100000, 0x04000000, 0x00000000], .tgenr { x with rd := 1 }), ([0x3F00005A], .trap b 0x5A), ([0x3F000101], .rett b true),
    ([0x3F10020D], .rdsr b 1 13), ([0x3F010305], .wrsr b 1 5), ([0x3F01030C], .wrsrPartition b 1), ([0x3F020400], .xbset b 2),
    ([0x3F020500], .ovld b 2), ([0x3F020601], .tlbi b 2 true), ([0x3F300700], .idle b 3), ([0x3F391800], .saverec b 3 9 1),
    ([0x3F391900], .loadrec b 3 9 1), ([0x3F321A00], .mapb b 3 2 1), ([0x3F320B00], .perf b 3 2)] = true := by decide +kernel

/-! ### Ill-formed terms, one or more for each check of `WellFormed` -/

/-- Guards and window qualifiers of base forms, reserved rounding modes, limits of fields (R76, R78, R80, R83, R85, R88). -/
theorem test_ill_formed_base : ([
    .add { b with gd := some { sense := true, reg := 1, bit := 2 } } 1 2 3, .bfx b 1 2 60 4, .bfxu b 1 2 1 63, .bfi b 1 2 63 1,
    .pmk b 1 2 3, .pmk b 9 10 3, .pmk b 9 2 11, .padd b 9 2 3, .pidx b 9 10 11, .psub b 9 10 11, .pgen b 9 2 3, .pinc b 1 10,
    .pfld b 1 10 8, .pblk b 9 2, .paddi b 1 10 0, .ldlu b 3 1 2 0,
    .fadd { w with rm := 4 } 1 2 3, .fadd { w with rd := true } 1 2 3, .fadd { w with ext := true, rm := 2 } 1 2 3,
    .fadd { w with ext := true, idx := 1 } 1 2 3, .fadd { w with ext := true, rc := true } 1 2 3, .fmin { w with ext := true, rm := 4 } 1 2 3,
    .fsqrt { w with ext := true, rb := true } 1 2, .wput { w with ext := true, ra := true } 1 2, .wldl { w with ext := true, ra := true } 1 2 3,
    .ffma w 1 2 3 4, .ffms w 1 2 3 4, .fclt w 1 2 3 4, .fcle w 1 2 3 4, .fceq { w with ext := true, rd := true } 1 2 3 4,
    .fence b 5, .bclose b 9 1 false, .fork b 1 5, .join b 1, .spawn b 9 2 3, .spawn b 1 10 3, .rdsr b 1 14, .wrsr b 1 6, .wrsr b 1 12,
    .idle b 9, .saverec b 3 2 1, .saverec b 11 9 1, .loadrec b 3 9 9, .mapb b 3 9 1, .perf b 9 2] : List Instr).all
      (fun i => !WellFormed i) = true := by decide +kernel

/-- Fields that a member does not use, element types it does not take, addressing modes, batches and masks (R79, R162, R183, R212, R236,
R257, R305). -/
theorem test_ill_formed_extended : ([
    .ld { x with ra := 1, fmt := 3 }, .ld { x with ra := 9, fmt := 4 }, .ld { x with ra := 9, imm6 := 1 }, .ld { x with ra := 9, mod := 1 },
    .ld { x with ra := 9, am := 3 }, .ld { x with ra := 9, am := 2, imm12 := 1 }, .ld { x with ra := 9, am := 1, re := 8 },
    .ld { x with ra := 9, re := 1 }, .ld { x with ra := 9, bn := 1 }, .ld { x with ra := 9, bx := true }, .ld { x with ra := 9, lmr := 1 },
    .ld { x with ra := 9, lme := true }, .ld { x with ra := 9, scope := 1 }, .ld { x with ra := 9, rm := 4 }, .ld { x with ra := 9, fd := 1 },
    .ld { x with ra := 9, rb := 1 }, .ld { x with ra := 9, rc := 1 }, .ld { x with ra := 9, bit := 1 }, .ldv { x with rd := 8, ra := 9, fmt := 8 },
    .ldv { x with ra := 9, fmt := 8, fd := 1 }, .st { x with ra := 9, fmt := 2 }, .stv { x with ra := 9, mod := 2 }, .wld { x with rd := 1, ra := 9 },
    .fill { x with ra := 9, imm6 := 32 }, .fillLiteral { x with ra := 9, rb := 1 } 0, .wait { x with rd := 1, ra := 9 },
    .wait { x with ra := 9, imm6 := 2 }, .wait { x with ra := 9, imm6 := 1, am := 2 }, .probe { x with ra := 9, bit := 1 }, .seal { x with rd := 1, ra := 9 },
    .seale { x with ra := 9, imm6 := 1 }, .arm { x with rd := 8, ra := 9 }, .clr { x with rd := 8, ra := 9 }, .clrx { x with ra := 9, imm6 := 1 },
    .rel { x with ra := 9, bx := true }, .genr { x with ra := 1 }, .acc { x with ra := 9, fmt := 8, imm6 := 3 }, .acc { x with ra := 9, fmt := 1 },
    .acct { x with ra := 9, fmt := 8, am := 1 }, .acnt { x with rd := 8, ra := 9 }, .pref { x with ra := 9, rb := 1 },
    .pref { x with ra := 9, rb := 8, imm6 := 1 }, .discard { x with ra := 9, imm6 := 1 }, .migr { x with ra := 9, am := 2 },
    .cpy { x with ra := 8, rb := 1 }, .cpys { x with ra := 8, rb := 8, rc := 8 }, .cpyx { x with ra := 8, rb := 9, fmt := 1 },
    .cpyh { x with ra := 8, rb := 8 }, .hadd { x with imm6 := 16 }, .hcas { x with rc := 8 }] : List Instr).all
      (fun i => !WellFormed i) = true := by decide +kernel

/-- The same for vectors, tiles, products, top-k and the domain (R162, R164 to R175, R183 to R193, R305). -/
theorem test_ill_formed_vector : ([
    .vadd { x with fmt := 7 }, .vadd { x with fmt := 6, rm := 4 }, .vadd { x with fmt := 8, rm := 1 }, .vadd { x with fmt := 8, mod := 1 },
    .vadd { x with fmt := 8, mod := 2 }, .vfma { x with fmt := 8, rc := 8 }, .vmin { x with fmt := 8, rm := 4 }, .vneg { x with fmt := 2 },
    .vshl { x with fmt := 8 }, .vand { x with fmt := 8, mod := 1 }, .vcvt { x with fmt := 8, imm6 := 8 }, .vscl { x with fmt := 8, imm6 := 3 },
    .vscl { x with fmt := 8, imm6 := 4 }, .vrcp { x with fmt := 0xB }, .vred { x with fmt := 8, imm6 := 3 }, .vred { x with fmt := 6, imm6 := 1, mod := 1 },
    .vcmp { x with fmt := 6, imm6 := 6 }, .vcmp { x with fmt := 8, rd := 8 }, .vsel { x with fmt := 8, re := 8 }, .vperm { x with fmt := 8, imm6 := 1 },
    .vbcast { x with fmt := 8, ra := 8 }, .vbcastLiteral { x with fmt := 8, ra := 1 } 0, .vins { x with fmt := 8, rb := 8 },
    .vext { x with fmt := 8, lme := true }, .viota { x with fmt := 8 }, .vzero { x with lme := true }, .vtag { x with fmt := 8, rm := 4 },
    .vsettToDescriptor { x with imm6 := 1 }, .vsettFromDescriptor { x with imm6 := 0 }, .vpack { x with fmt := 8 }, .vunpk { x with fmt := 6, imm6 := 2 },
    .tacq { x with fmt := 9 }, .trel { x with fmt := 8 }, .tzero { x with imm6 := 3 }, .tld { x with ra := 9, am := 1 }, .tst { x with ra := 1, fmt := 8 },
    .taddr { x with fmt := 9 }, .tscl { x with fmt := 8, imm6 := 2 }, .tmaxr { x with fmt := 8, rm := 4 }, .tsumr { x with fmt := 8, mod := 1 },
    .texpr { x with fmt := 6 }, .trdv { x with fmt := 8, imm6 := 2 }, .twrv { x with fmt := 8, rb := 8 }, .mma { x with ra := 8, rb := 9, fmt := 0xB, imm6 := 8 },
    .mma { x with ra := 8, rb := 9, fmt := 9, imm6 := 1 }, .mmas { x with ra := 8, rb := 9, rc := 1, re := 9, fmt := 0xB },
    .mmai { x with ra := 8, rb := 9, fmt := 1, imm6 := 3 }, .mmai { x with ra := 8, rb := 9, fmt := 3, imm6 := 1 }, .topk { x with imm6 := 32 },
    .topkm { x with rb := 1 }, .send { x with ra := 1, rb := 9 }, .chmk { x with rd := 8 }, .rcir { x with imm6 := 1 }, .tgenr { x with ra := 1 }] :
      List Instr).all (fun i => !WellFormed i) = true := by decide +kernel

/-- Words that are no instruction: a reserved major, a function code past the table, a wrong length, SUB 0 of an extended-only major, a
literal member with its immediate field in use, LDK without a literal (R73, R79, R87, R88, R89). -/
theorem test_illegal_words : ([[0x00000000], [0x0F000000], [0x01120009], [0x02120008 ||| 0x200], [0x41000000, 0, 0], [0x80120000, 0x01000000, 0],
    [0xA8090000, 0, 0], [0x43110010, 0, 0], [0x0A400000], [0x8112B000, 0x000C5000, 0], [0x3C000005], [0x3D000005], [0x3F000C00]] :
      List (List (BitVec 32))).all (fun l => decode l == none) = true := by decide +kernel

/-! ### Small states -/

/-- A strand of node instance 7 in slot 0 of core 0, with 8 window words. -/
def st0 : Strand :=
  { Strand.blank with loc := .slot 0 0, tracker := 1, node := 7, image := 3, win := 1, pc := 0x40, bound := true }
/-- The same with registers g0 to g7 and p0 to p7. -/
def withRegs (l : List Word) : Strand := { st0 with regs := Vector.ofFn fun i : Fin 16 => l.getD i.val 0 }
/-- Core 0: code below 0x400, data below 0x8000. -/
def core0 : Core :=
  { Core.reset with slots := Core.reset.slots.set 0 (some 1), xb := 0x400, database := 0x1000, image := 3 }
/-- A handle of scratchpad slot 0 of cluster 0 of the module, which needs no table. -/
def pad0 : Word := 0x0002003FC0000000
/-- Node instance 7 of instance 9, with one live strand. -/
def node7 : Node :=
  { inst := 9, idx := 0, owner := 0, missing := 0, live := 1, skip := 0, stage := .running, cluster := some 0, anvil := some 0 }
def inst9 : Instance :=
  { graph := 5, args := Vector.replicate 8 nullHandle, cookie := 0xC0, session := 2, root := 9, parent := 0, slice := 0, started := 0,
    nodes := [7], spawned := 0, quenched := false }
/-- The part is ready, and strand 1 issues. -/
def stateOf (st : Strand) : State :=
  { State.reset with
    boot := { State.reset.boot with stage := 7 }, cur := some 1, fresh := 10, cores := [(0, core0)], strands := [(1, st)],
    trackers := [(1, Tracker.zero)], instances := [(9, inst9)], nodes := [(7, node7)] }
/-- The next state of an answer. -/
def nextOf (o : Host.Outcome State Fault Refusal) : Option State := match o with | .next t => some t | _ => none
/-- The strand after an instruction. -/
def after (i : Instr) (s : State) : Option Strand := (nextOf (exec i s)).bind fun t => t.strand 1
/-- A register after an instruction. -/
def regAfter (i : Instr) (s : State) (n : BitVec 4) : Option Word := (after i s).map fun st => st.reg n

/-! ### Single instructions, with results from the formulas of the spec -/

/-- Registers of the result tests: a very negative number, -7, 4,101, a word with bits of every field of a handle, a handle at the end of its space. -/
def regs0 : State := stateOf (withRegs [0x0, 0x0, 0x8000000000000123, 0xFFFFFFFFFFFFFFF9, 0x1005, 0xFFF0000000000001, 0x0, 0x0, 0x0, 0xFFE1FFFFFFFFFFFF])
/-- Results of the integer, constant, bit and pointer instructions in their destination (R110 to R120). -/
theorem test_integer_results : ([
    (.add b 1 2 3, 1, 0x800000000000011C), (.sub b 1 2 3, 1, 0x800000000000012A), (.mul b 1 2 3, 1, 0x7FFFFFFFFFFFF80B),
    (.mulh b 1 2 3, 1, 0x3), (.mulhu b 1 2 3, 1, 0x800000000000011F), (.and b 1 2 3, 1, 0x8000000000000121),
    (.or b 1 2 3, 1, 0xFFFFFFFFFFFFFFFB), (.xor b 1 2 3, 1, 0x7FFFFFFFFFFFFEDA), (.andn b 1 2 3, 1, 0x2),
    (.shl b 1 2 3, 1, 0x4600000000000000), (.shr b 1 2 3, 1, 0x40), (.sra b 1 2 3, 1, 0xFFFFFFFFFFFFFFC0), (.ror b 1 2 3, 1, 0x91C0),
    (.min b 1 2 3, 1, 0x8000000000000123), (.max b 1 2 3, 1, 0xFFFFFFFFFFFFFFF9), (.minu b 1 3 2, 1, 0x8000000000000123),
    (.maxu b 1 3 2, 1, 0xFFFFFFFFFFFFFFF9), (.clz b 1 2, 1, 0x0), (.ctz b 1 3, 1, 0x0), (.popc b 1 2, 1, 0x5),
    (.brev b 1 2, 1, 0xC480000000000001), (.abs b 1 3, 1, 0x7), (.sext b 1 3 2, 1, 0x1), (.zext b 1 3 3, 1, 0x9),
    (.mov b 1 3, 1, 0xFFFFFFFFFFFFFFF9), (.addi b 1 2 0xFFF, 1, 0x8000000000000122), (.andi b 1 2 0xFF0, 1, 0x8000000000000120),
    (.ori b 1 2 0x800, 1, 0xFFFFFFFFFFFFF923), (.xori b 1 2 0x0FF, 1, 0x80000000000001DC),
    (.addiLiteral b 1 2 0x100000000, 1, 0x8000000100000123), (.andiLiteral b 1 2 0xFF, 1, 0x23),
    (.oriLiteral b 1 2 0xF000, 1, 0x800000000000F123), (.xoriLiteral b 1 2 0x8000000000000000, 1, 0x123), (.shli b 1 2 4, 1, 0x1230),
    (.shri b 1 2 4, 1, 0x800000000000012), (.srai b 1 2 4, 1, 0xF800000000000012), (.rori b 1 2 4, 1, 0x3800000000000012),
    (.movi b 1 0xFFFFF, 1, 0xFFFFFFFFFFFFFFFF), (.movhi b 1 0xABCDE, 1, 0xABCDE00000000000),
    (.ldk b 1 0x0123456789ABCDEF, 1, 0x123456789ABCDEF)] : List (Instr × BitVec 4 × Word)).all (fun p => regAfter p.1 regs0 p.2.1 == some p.2.2) = true := by decide +kernel

/-- The rest of them. -/
theorem test_bit_and_pointer_results : ([
    (.bfx b 1 2 5 3, 1, 0xFFFFFFFFFFFFFFF9), (.bfxu b 1 2 1 4, 1, 0x11), (.bfi b 1 3 4 3, 1, 0x90), (.ceq b 1 2 2 5, 1, 0x20),
    (.cne b 1 2 2 5, 1, 0x0), (.clt b 1 2 3 0, 1, 0x1), (.cltu b 1 3 2 0, 1, 0x0), (.cle b 1 3 2 63, 1, 0x0),
    (.cleu b 1 2 3 63, 1, 0x8000000000000000), (.ceqi b 1 3 0xF9 2, 1, 0x4), (.clti b 1 3 0xF9 2, 1, 0x0),
    (.ceqiLiteral b 1 2 0 0x8000000000000123, 1, 0x1), (.cltiLiteral b 1 3 0 0, 1, 0x1), (.bset b 1 2 2, 1, 0x8000000000000127),
    (.bclr b 1 2 63, 1, 0x123), (.binv b 1 2 0, 1, 0x8000000000000122), (.bmov b 1 2 3 7, 1, 0x0), (.sel b 1 2 3 0, 1, 0xFFFFFFFFFFFFFFF9),
    (.pmk b 9 4 5, 9, 0x50000000000001), (.padd b 9 9 5, 9, 0xFFE0000000000000), (.pidx b 9 9 5, 9, 0xFFE0000000000FFF),
    (.psub b 1 9 8, 1, 0xFFFFFFFFFFFFFFFF), (.pgen b 9 9 4, 9, 0x51FFFFFFFFFFFF), (.pinc b 9 9, 9, 0xFFF1FFFFFFFFFFFF),
    (.pfld b 1 9 2, 1, 0x1FFFFFFFFF), (.pfld b 1 9 0, 1, 0xFFE), (.pblk b 9 9, 9, 0xFFE1FFFFFFFFF000),
    (.paddi b 9 9 1, 9, 0xFFE0000000000000)] : List (Instr × BitVec 4 × Word)).all (fun p => regAfter p.1 regs0 p.2.1 == some p.2.2) = true := by decide +kernel

/-- Words that the worked examples of the spec write out (R110, R112, R113, R114, R116, R119, R127, R274, R149, R170, R262, R221, R309, R238). -/
theorem test_decode_worked_examples : reads [
    ([0x01345001], .sub b 3 4 5), ([0x01182003], .mulh b 1 8 2), ([0x02120147], .sext b 1 2 7), ([0x0422FF00], .andi b 2 2 0xFF0),
    ([0x07120030], .shli b 1 2 3), ([0x0C312085], .clt b 3 1 2 5), ([0x0D310700], .ceqi b 3 1 7 0), ([0x11AA0800], .paddi b 10 10 128),
    ([0x23120082], .ldl b 2 1 2 8), ([0x3C300201], .bclose b 3 1 false), ([0x3C300205], .bclose b 3 1 true), ([0x3C000002], .fence b 2),
    ([0x3D020000], .fork b 2 0), ([0x3D0B0100], .join b 11),
    ([0xB0123000, 0x04000814, 0x40D00000], .vfma { x with rd := 1, ra := 2, rb := 3, rc := 4, fmt := 8, rm := 5, lme := true, lmr := 5 }),
    ([0xB92CD000, 0x01000900, 0x00002000], .mma { x with rd := 2, ra := 12, rb := 13, fmt := 9, am := 2 }),
    ([0xAB2B0000, 0x01000801, 0x00002000], .acc { x with rd := 2, ra := 11, fmt := 8, mod := 1, am := 2 }),
    ([0xAB490000, 0x03000000, 0], .acnt { x with rd := 4, ra := 9 }),
    ([0xAD39A400, 0x01000000, 0x00018000], .cpy { x with rd := 3, ra := 9, rb := 10, imm12 := 0x400, bx := true, bn := 2 }),
    ([0xBE39A000, 0x01000000, 0x00014000], .send { x with rd := 3, ra := 9, rb := 10, bx := true, bn := 1 }),
    ([0xBE567000, 0x02000000, 0], .chmk { x with rd := 5, ra := 6, rb := 7 }),
    ([0xBE123000, 0x03000000, 0], .rcir { x with rd := 1, ra := 2, rb := 3 }), ([0xBE400000, 0x04000000, 0], .tgenr { x with rd := 4 }),
    ([0xA81A0010, 0x01000300, 0], .ld { x with rd := 1, ra := 10, imm12 := 16, fmt := 3 }),
    ([0xA94A0000, 0x01000301, 0x00016000], .st { x with rd := 4, ra := 10, fmt := 3, mod := 1, am := 2, bx := true, bn := 1 }),
    ([0xAA390000, 0x06000000, 0], .clr { x with rd := 3, ra := 9 })] = true := by decide +kernel

/-! ### Worked examples of the spec -/

/-- FADD of 1.0 and 2^-24 rounds to even with inexact set, and up under RU (worked example of R126). -/
theorem test_fadd_rounds :
    ((after (.fadd w 1 2 3) (stateOf { st0 with window := st0.window.set 2 0x3F800000 |>.set 3 0x33800000 })).map fun t => (t.w 1, t.fflags)) =
        some (0x3F800000, 16) ∧
      ((after (.fadd { w with ext := true, rm := 7 } 1 2 3)
        (stateOf { st0 with window := st0.window.set 2 0x3F800000 |>.set 3 0x33800000 })).map fun t => t.w 1) = some 0x3F800001 := by
  decide +kernel

/-- A relative window index of 8 with 8 words allocated raises WBOUND with tval 8 (worked example of R128, R122). -/
theorem test_window_bound :
    ((after (.wldl { w with ext := true, gd := some { sense := false, reg := 6, bit := 0 }, rd := true, idx := 2 } 3 4 16)
      (stateOf { withRegs [0, 0, 5, 0, 0x1000, 0, 1] with tcause := 0 })).map fun t => (t.tcause, t.tval)) = some (133, 8) := by decide +kernel

/-- PADDI carries out of the offset into the VBN and keeps the generation (worked example of R120). -/
theorem test_paddi_carries :
    regAfter (.paddi b 10 10 128) (stateOf (withRegs [0, 0, 0, 0, 0, 0, 0, 0, 0, 0, 0x0050000001000FF8])) 10 = some 0x0050000001001078 := by
  decide +kernel

/-- MOVI and MOVHI build the null handle (worked example of R114). -/
theorem test_movhi_null : regAfter (.movhi b 8 0xE0) (stateOf st0) 8 = some 0x000E000000000000 := by decide +kernel

/-- DBNZ at three goes to its target, at one it falls through with zero (worked example of R121). -/
theorem test_dbnz :
    ((after (.dbnz b 5 0xFFFFE) (stateOf (withRegs [0, 0, 0, 0, 0, 3]))).map fun t => (t.pc, t.reg 5)) = some (0x38, 2) ∧
      ((after (.dbnz b 5 0xFFFFE) (stateOf (withRegs [0, 0, 0, 0, 0, 1]))).map fun t => (t.pc, t.reg 5)) = some (0x44, 0) := by decide +kernel

/-- E4M3 codes and flags of 460, 464, 500, 449 under RU, -0.001 and -0.0004 (worked example of R138). -/
theorem test_e4m3_rounding :
    (([(0, 0x43E60000), (0, 0x43E80000), (0, 0x43FA0000), (3, 0x43E08000), (0, 0xBA83126F), (0, 0xB9D1B717)] : List (BitVec 2 × Nat)).map fun p =>
      Elem.convert (elemOf 8 0) (elemOf 0xB (fdPresets[0])) p.1 p.2) =
      [(0x7E, 16), (0x7E, 16), (0x7E, 20), (0x7E, 20), (0x81, 24), (0x80, 24)] := by decide +kernel

/-- VCVT of 460, 500, -0.001 and 1 to E4M3 in the second quarter (worked example of R166). -/
theorem test_vcvt_e4m3 :
    let v3 : Vec := BitVec.ofNat 1024 (0x3F800000BA83126F43FA000043E60000)
    ((Strand.vectorDone { st0 with vecs := st0.vecs.set 3 v3, tags := st0.tags.set 3 0x80 } (.vcvt { x with rd := 5, ra := 3, fmt := 0xB, imm6 := 1 })).map
      fun t => (t.vec 5, t.tag 5, t.fflags)) = some (BitVec.ofNat 1024 (0x38817E7E * 2 ^ 256), 0xB0, 28) := by decide +kernel

/-- An F16 product that cancels between the chains gives +0 with inexact set (worked example of R145). -/
theorem test_product_chains :
    product16 ([4096, 4096, 1].map Num.ofInt ++ List.replicate 61 (Num.ofInt 0)) ([4096, -4096, 1].map Num.ofInt ++ List.replicate 61 (Num.ofInt 0)) 0 =
      (0, 16) := by decide +kernel

/-- TOPK skips a NaN and ranks equal scores by index (worked example of R193). -/
theorem test_topk_row :
    topRow false false 3 [] (emptyRow false false)
      (((List.replicate 32 (0 : BitVec 32)).set 5 0x40000000 |>.set 9 0x40F00000 |>.set 12 0x40000000 |>.set 20 0x7FC00000).zipIdx.map
        fun p => (p.1, 100 + BitVec.ofNat 32 p.2)) =
      ([0x40F00000, 0x40000000, 0x40000000] ++ List.replicate 13 0xFF800000 ++ ([109, 105, 112] ++ List.replicate 13 0xFFFFFFFF), 0) := by
  decide +kernel

/-- TOPKM merges two rows (worked example of R193). -/
theorem test_topkm_row :
    topRow false false 3 [] ([0x40F00000, 0x40000000, 0x40000000] ++ List.replicate 13 0xFF800000 ++ ([109, 105, 112] ++ List.replicate 13 0xFFFFFFFF))
      (([0x40400000, 0x40000000, 0xBF800000] ++ List.replicate 13 0xFF800000 : List (BitVec 32)).zip ([40, 7, 8] ++ List.replicate 13 0xFFFFFFFF)) =
      ([0x40F00000, 0x40400000, 0x40000000] ++ List.replicate 13 0xFF800000 ++ ([109, 40, 7] ++ List.replicate 13 0xFFFFFFFF), 0) := by
  decide +kernel

/-- An operation of generation `g` on a block at its home. -/
def opOf (k : OpKind) (gen : BitVec 12) : Op :=
  { kind := k, h := gen ++ 0#52, place := .pad 0 0, unit := 0, seq := 0, asker := .batch, tracker := 1, batch := 0, ordinal := 0, node := 7 }
/-- A block after operations: presence words and answers. -/
def runOps (blk : Block) (l : List Op) : List (BitVec 16 × Option Reply) :=
  match l with
  | [] => []
  | o :: r =>
    let a := blk.act false o
    (a.b.pw false, a.reply) :: runOps a.b r

/-- STV and FILL rows seal a block of 2,048 bytes with their eighth write; the ninth reports DWRITE (worked example of R203). -/
theorem test_rows_seal :
    let start : Block := { Block.mapped with gen := 5, acount := 2048, mask := BitVec.ofNat 512 (2 ^ 128 - 1) }
    (runOps start ((List.range 9).map fun k => opOf (.write (BitVec.ofNat 12 (1024 + 128 * k)) 128 0 false) 5)).drop 6 =
      [(0x0014, some (.report 0 0)), (0x4014, some (.report 0 0)), (0x4014, some (.report 1 14))] := by decide +kernel

/-- Arrivals and arming of a join block (worked example of R218). -/
theorem test_join_block :
    let start : Block := { Block.mapped with gen := 5, arrivals := 2 }
    runOps start [opOf (.arm 0x10001) 5, opOf (.arm 0x10002) 5, opOf .arrival 5, opOf (.clear false) 5] =
      [(0x0014, some (.status 2 0)), (0x4014, some (.status 0 0)), (0x4014, some (.status 2 2)), (0x0018, some (.status 0 0))] := by
  decide +kernel

/-- A queued write for the next generation waits for the read that ends the quota (worked example of R219, first row; R202). -/
theorem test_quota_and_queue :
    let start : Block := { Block.mapped with gen := 5, st := 1, qarmed := 1, qrem := 1, payload := 0xAB }
    runOps start [opOf (.write 0 8 0xCD true) 6, opOf (.read true) 5, opOf (.read false) 5] =
      [(0xC014, none), (0x0018, some (.data 0xAB 0xC014 0)), (0x0018, some .stale)] := by decide +kernel

/-- The home slice and the copy slice of physical block 0x8040 (worked examples of R223 and R225). -/
theorem test_slices :
    homeCluster 2 0 0x08040 = 2 * 64 + 24 ∧ (0x08040#24).extractLsb' 0 6 ^^^ (0x08040#24).extractLsb' 6 6 ^^^ (0x08040#24).extractLsb' 12 6 ^^^
      (0x08040#24).extractLsb' 18 6 = 9 := by decide +kernel

/-- Two logged accumulations of 1.0 join 2^24 as 2.0 (worked example of R262, step 3). -/
theorem test_logged_accumulations :
    let one : Vec := BitVec.ofNat 1024 0x3F800000
    let es := appendAccum (appendAccum [] 9 0 128 8 0 (BitVec.ofNat 32768 one.toNat)) 9 0 128 8 0 (BitVec.ofNat 32768 one.toNat)
    (es.foldl (fun p e => e.apply p) (BitVec.ofNat 32768 0x4B800000, BitVec.ofNat 512 0xFFFF)).1 = BitVec.ofNat 32768 0x4B800001 := by
  decide +kernel

/-- The first 32 bytes of SHAKE256 of the empty message, by FIPS 202 (R35; log entry 81). -/
theorem test_shake256_of_nothing : (shake32 []).toNat = 0x2f76d56e64270cb5821bb862ea52cd3f24eb3e74eb3f3b23138da80b2bddb946 := by
  decide +kernel

/-! ### Witnesses: states and operands that meet the hypotheses of the statements, each clause at a boundary -/

/-- The negated guard, which does not hold where bit 5 of g3 is set. -/
def gN : Form := { ext := true, gd := some { sense := true, reg := 3, bit := 5 } }
/-- Registers of the witnesses: zero, values at the ends of ranges, the scratchpad handle in p2. -/
def stW : Strand :=
  { withRegs [0, 1, 0xFFFFFFFC, 0x20, 0x100000000, 2, 3, 0x7FFC, 0x8000, 0x400, pad0, pad0 + 4, pad0 + 1, 0x3FF, 0x208, 0x1000] with
    tags := st0.tags.set 1 0x80, image := 3 }
def sW : State := stateOf stW
/-- The same as a privileged strand. -/
def stK : Strand := { stW with image := 0xFFFF }
def sK : State := stateOf stK

/-- ThreeRegisterResults, OneSourceAndConstantResults and ComparesAndBranches: a strand issues, with a guard that holds and one that does not; JR at the highest legal address, at one that is misaligned and at the first beyond 32 bits. -/
theorem witness_ThreeRegisterResults_OneSourceAndConstantResults_ComparesAndBranches :
    sW.issuing = some (1, stW) ∧ stW.guardOk b.gd = true ∧ stW.guardOk g.gd = true ∧ stW.guardOk gN.gd = false ∧
      ((stW.reg 2).toNat % 4 = 0 ∧ (stW.reg 2).toNat < 2 ^ 32) ∧ ¬((stW.reg 1).toNat % 4 = 0 ∧ (stW.reg 1).toNat < 2 ^ 32) ∧
      ¬((stW.reg 4).toNat % 4 = 0 ∧ (stW.reg 4).toNat < 2 ^ 32) := by decide +kernel

/-- A strand whose divide stands at the head of the divider of its core. -/
def stDiv (i : Instr) : Strand := { stW with wait := .divider i }
def sDiv (i : Instr) : State :=
  { stateOf (stDiv i) with cores := [(0, { core0 with divq := [1] })], cur := none }
/-- DividersComplete: a zero and a nonzero divisor, and a divide, an FDIV and an FSQRT at the head of the queue; window indices 0 and 7 of 8. -/
theorem witness_DividersComplete :
    sW.issuing = some (1, stW) ∧ stW.guardOk b.gd = true ∧ stW.reg 0 = 0 ∧ stW.reg 1 ≠ 0 ∧ stW.guardOk w.gd = true ∧
      (stW.widx w 7 false).toNat < stW.words ∧ (stW.widx w 0 false).toNat < stW.words ∧
      ∀ i ∈ [Instr.div b 2 3 1, .rem b 2 3 1, .divu b 2 3 1, .remu b 2 3 1, .fdiv w 7 0 1, .fsqrt w 7 0],
        ((sDiv i).core 0).divq = 1 :: [] ∧ (sDiv i).strand 1 = some (stDiv i) ∧ (stDiv i).wait = .divider i ∧ (stDiv i).reg 1 ≠ 0 ∧
          ((stDiv i).ended = false ∧ (sDiv i).fenced (stDiv i).home = false ∧ (sDiv i).inService (coreCluster (stDiv i).home) = true ∧
            (sDiv i).fencedAnvil (coreAnvil (stDiv i).home) = false) ∧ ({ stDiv i with ended := true } : Strand).ended = true ∧
          Maps.wf (sDiv i).strands = true := by decide +kernel

/-- WindowArithmeticResults and WindowComparesMovesAndBounds: indices at the last word and the first beyond it, as first, second and third source and as destination. -/
theorem witness_WindowArithmeticResults_WindowComparesMovesAndBounds :
    sW.issuing = some (1, stW) ∧ stW.guardOk w.gd = true ∧ (stW.widx w 7 w.rd).toNat < stW.words ∧ (stW.widx w 0 w.ra).toNat < stW.words ∧
      (stW.widx w 7 w.rb).toNat < stW.words ∧ (stW.widx w 1 w.rc).toNat < stW.words ∧ stW.words ≤ (stW.widx w 8 w.rd).toNat ∧
      stW.words ≤ (stW.widx w 8 w.ra).toNat ∧
      (∀ p ∈ ([([8, 7, 7, 7], 8), ([7, 8, 9, 7], 8), ([7, 7, 63, 8], 63), ([7, 7, 7, 8], 8)] : List (List (BitVec 6) × Word)),
        (p.1.map fun i => stW.widx w i false).find? (fun i => decide (stW.words ≤ i.toNat)) = some p.2) := by decide +kernel

/-- RoundingKeepsRepresentableValues: the lowest and the highest code of each format that is no NaN. -/
theorem witness_RoundingKeepsRepresentableValues :
    ∀ p ∈ [(fmtF32, 0), (fmtF32, 0xFF800000), (fmtF16, 0), (fmtF16, 0xFC00), (fmtB16, 0), (fmtB16, 0xFF80)],
      p.2 < 2 ^ p.1.bits ∧ (p.1.decode p.2).isNan = false := by decide +kernel

/-- CoreStoreAccessAndReadBack: XB itself and the last byte below 32 KiB are legal for LDL.b, 0x3FF and 0x8000 are not; the last aligned doubleword is legal, a doubleword at 4 modulo 8 misaligned; a word at XB for the window forms. -/
theorem witness_CoreStoreAccessAndReadBack_access :
    sW.issuing = some (1, stW) ∧ stW.guardOk b.gd = true ∧ stW.guardOk w.gd = true ∧ (stW.widx w 7 w.rd).toNat < stW.words ∧
      (let k := sW.core stW.home
       let ea := fun (ra : BitVec 4) (imm : BitVec 12) => (stW.reg ra + imm.signExtend 64).toNat
       k.xb.toNat = 0x400 ∧ ea 9 0 = 0x400 ∧ ea 7 3 + 1 = 0x8000 ∧ ea 13 0 % 1 = 0 ∧ ¬0x400 ≤ ea 13 0 ∧ ¬ea 8 0 + 1 ≤ 0x8000 ∧
         ea 7 0xFFC % 8 = 0 ∧ ea 7 0xFFC + 8 = 0x8000 ∧ ea 7 0 % 8 ≠ 0 ∧ ea 7 0 % 4 = 0 ∧ ea 7 0 + 4 = 0x8000 ∧ ea 7 1 % 4 ≠ 0 ∧
         ea 8 0 % 4 = 0 ∧ ¬ea 8 0 + 4 ≤ 0x8000) := by decide +kernel

/-- CoreStoreAccessAndReadBack: the empty memory and one with two bytes are canonical. -/
theorem witness_CoreStoreAccessAndReadBack_bytes : Memory.wf [] = true ∧ Memory.wf [(4, 1#8), (9, 255#8)] = true := by decide +kernel

/-- PostedOperations: the handle in p2 translates to a scratchpad slot for writing and accumulating, v1 carries tag 0x80, there is room for 32 rows, and rows 1 to 32 fit from offset 0. -/
theorem witness_PostedOperations :
    let o : XOp := { x with rd := 1, ra := 10, fmt := 8, imm6 := 31 }
    sW.issuing = some (1, stW) ∧ stW.guardOk o.gd = true ∧
      (∀ n ∈ [1, 8, 128], (Handle.off (stW.ea o n).h).toNat % n = 0 ∧ sW.xlate (coreCluster stW.home) true (stW.ea o n).h permW = .ok (.pad 0 0)) ∧
      sW.xlate (coreCluster stW.home) true (stW.ea o 128).h permA = .ok (.pad 0 0) ∧
      sW.roomFor (unitCore stW.home) (homeOf (.pad 0 0)) 32 = true ∧ (Handle.off (stW.ea o 128).h).toNat / 128 + 32 ≤ 32 ∧
      ((stW.tag (o.rd.extractLsb' 0 3)).extractLsb' 4 4 != 0) = true ∧ (stW.tag (o.rd.extractLsb' 0 3) == tagOf o.fmt 0) = true := by decide +kernel

/-- FalseGuardMovesThePc: a guard that does not hold, in each form. -/
theorem witness_FalseGuardMovesThePc :
    sW.issuing = some (1, stW) ∧ stW.guardOk gN.gd = false ∧ stW.guardOk { w with ext := true, gd := gN.gd }.gd = false ∧
      stW.guardOk { x with gd := gN.gd }.gd = false := by decide +kernel

/-- The four round trips: well-formed instructions of each list. -/
theorem witness_EncodingRoundTrips :
    ([.add b 1 2 3, .sext g 15 15 63, .addiLiteral b 1 2 0xFFFFFFFFFFFFFFFF, .ceqi b 1 2 0x80 63, .bbs b 1 63 0x2000, .ldl b 3 1 2 0x800,
      .nop b, .fork b 2 0, .bclose b 3 3 true, .rett g true, .fadd w 63 63 63, .wldl w 63 1 0x800, .ffma { w with ext := true } 1 2 3 4,
      .ld { x with ra := 10, fmt := 3 }, .mma { x with ra := 12, rb := 13, fmt := 9 }, .fillLiteral { x with ra := 10 } 7,
      .vbcastLiteral { x with fmt := 8 } 7] : List Instr).all WellFormed = true := by decide +kernel

/-- A core-private store with words from an address on. -/
def codeAt (a : Nat) (ws : List (BitVec 32)) : Memory := (ws.zipIdx.flatMap fun p => leBytes 4 p.1.toNat |>.zipIdx.map fun q => (a + 4 * p.2 + q.2, q.1)).filter fun c => c.2 != 0
/-- The turn of core 0 is next, with a strand at `pc` and words at `a`. -/
def sTurn (pc : BitVec 32) (a : Nat) (ws : List (BitVec 32)) : State :=
  { stateOf { stW with pc := pc } with schedule := [.turn 0], cores := [(0, { core0 with store := codeAt a ws })], cur := none }

/-- StepRunsInstructionsAndEvents: a one-word instruction that ends at XB, a three-word one that ends there, an event that may take place and one that may not, and the turn of an empty slot. -/
theorem witness_StepRunsInstructionsAndEvents :
    (∀ p ∈ ([(0x3FC, [0x0112B000], .add b 1 2 11), (0x3F4, [0x8112B000, 0x008C5000, 0], .add g 1 2 11)] :
        List (BitVec 32 × List (BitVec 32) × Instr)),
      let s := sTurn p.1 p.1.toNat p.2.1
      let st : Strand := { stW with pc := p.1 }
      let n := [1, 3, 3, 5].getD (Mem.num (s.core 0).store p.1.toNat 4 / 2 ^ 30) 0
      s.nextMove.1 = .turn 0 ∧ (s.core 0).slots[(s.core 0).phase.toNat]'((s.core 0).phase.isLt) = some 1 ∧ s.strand 1 = some st ∧ st.wait = .run ∧
        s.supplyOk = true ∧ s.fenced 0 = false ∧ s.inService (coreCluster 0) = true ∧ s.victim st = false ∧ (s.core 0).ovld = none ∧
        p.1.toNat + 4 * n = (s.core 0).xb.toNat ∧
        decode ((List.range n).map fun j => BitVec.ofNat 32 (Mem.num (s.core 0).store (p.1.toNat + 4 * j) 4)) = some p.2.2) ∧
    ({ sW with schedule := [.peerExtent 1 0x1FFFFFFE00 0] } : State).schedule = .peerExtent 1 0x1FFFFFFE00 0 :: [] ∧
    ({ sW with schedule := [.extentEntered 1 0] } : State).schedule = .extentEntered 1 0 :: [] ∧ sW.boot.stage = 7 ∧
      State.reset.boot.stage ≠ 7 ∧
    (let s : State := { sDiv (.div b 2 3 1) with schedule := [.event (.dividerResult 0), .turn 5] }
     (({ s.advance with schedule := s.schedule.tail, cur := none } : State).mayHappen (.dividerResult 0) = true) ∧
       (({ s.advance with schedule := s.schedule.tail, cur := none, supplyOk := false } : State).mayHappen (.dividerResult 0) = false) ∧
       (s.core 5).slots[(s.core 5).phase.toNat]'((s.core 5).phase.isLt) = none) := by decide +kernel

/-- The placed word of ADD g1, g2, p3 is the next instruction after reset. -/
theorem witness_PlacedWordIsRun :
    State.reset.supplyOk = true ∧ State.reset.fenced 0 = false ∧ State.reset.inService 0 = true ∧ State.reset.node 0 = none ∧
      decodeTableWord 32 0x0112B000 = some (.add b 1 2 11) ∧ decodeTableWord 96 0x008C50008112B000 = some (.add g 1 2 11) := by decide +kernel

/-- The step after that placement runs it: g1 takes g2 + p3 and the pc moves. -/
theorem test_placed_add :
    ((nextOf (step (State.reset.withFetchWord 32 0x0112B000))).bind fun t => (t.strand State.reset.fresh).map fun st => (st.reg 1, t.cur)) =
      some (0, none) := by decide +kernel

/-- FetchAndActiveTraps: an instruction that ends past XB by a word, one whose word is undefined below XB, one that decodes; and a strand in its handler whose instance runs. -/
theorem witness_FetchAndActiveTraps :
    (let c : Core := { core0 with store := codeAt 0x3FC [0x8112B000] }
     c.ovld = none ∧ c.xb.toNat < 0x3FC + 4 * [1, 3, 3, 5].getD (Mem.num c.store 0x3FC 4 / 2 ^ 30) 0 ∧ c.xb.toNat < 0x400 + 4) ∧
    (let c : Core := { core0 with store := codeAt 0x3F8 [0x0F000000, 0x0112B000] }
     0x3F8 + 4 * [1, 3, 3, 5].getD (Mem.num c.store 0x3F8 4 / 2 ^ 30) 0 ≤ c.xb.toNat ∧ decode [BitVec.ofNat 32 (Mem.num c.store 0x3F8 4)] = none ∧
       decode [BitVec.ofNat 32 (Mem.num c.store 0x3FC 4)] = some (.add b 1 2 11)) ∧
    (let st : Strand := { stW with tcause := 0x80 }
     let s := stateOf st
     s.issuing = some (1, st) ∧ st.guardOk b.gd = true ∧ st.wait = .run ∧ st.tcause.getLsbD 7 = true ∧ Maps.wf s.strands = true ∧ s.node st.node = some node7 ∧
       s.inst node7.inst = some inst9) := by decide +kernel

/-- A strand in its handler with a saved pc. -/
def stTpc (a : BitVec 32) : Strand := { stW with tpc := a, tcause := 0x8D }
/-- TrapEntryAndReturn, PrivilegedForms and SpecialRegisters: a strand in slot 0 with ACTIVE clear; tpc at a multiple of 4 below XB, at XB, and misaligned; a privileged strand with a ring weight of 1 and of 8. -/
theorem witness_TrapEntryAndReturn_PrivilegedForms_SpecialRegisters :
    sW.issuing = some (1, stW) ∧ stW.guardOk b.gd = true ∧ stW.guardOk x.gd = true ∧ stW.loc = .slot 0 0 ∧ stW.tcause.getLsbD 7 = false ∧
      stW.image ≠ 0xFFFF ∧
      (let st := stTpc 0x3FC
       (stateOf st).issuing = some (1, st) ∧ st.tpc.toNat % 4 = 0 ∧ st.tpc.toNat < ((stateOf st).core st.home).xb.toNat ∧
         ((stateOf st).core st.home).ovld = none) ∧
      (let st := stTpc 0x400
       (stateOf st).issuing = some (1, st) ∧ st.tpc.toNat % 4 = 0 ∧ ((stateOf st).core st.home).xb.toNat ≤ st.tpc.toNat) ∧
      ((stateOf (stTpc 0x3FE)).issuing = some (1, stTpc 0x3FE) ∧ (stTpc 0x3FE).tpc.toNat % 4 ≠ 0) ∧
      sK.issuing = some (1, stK) ∧ stK.image = 0xFFFF ∧ 1 ≤ (stK.reg 1).toNat ∧ (stK.reg 1).toNat ≤ 8 := by decide +kernel

/-- XbsetMovesTheBoundary: a value that is misaligned, the lowest and the highest legal one, and the nearest multiples of 4 outside. -/
theorem witness_XbsetMovesTheBoundary :
    let st : Strand := { stW with regs := stW.regs.set 2 0x200 |>.set 3 0x1000 |>.set 4 0x1FC |>.set 5 0x1004 |>.set 6 0x202 }
    let c := (stateOf st).core st.home
    (stateOf st).issuing = some (1, st) ∧ st.guardOk b.gd = true ∧ (st.reg 2).toNat = c.trapbase.toNat + 512 ∧ (st.reg 3).toNat = c.database.toNat ∧
      (st.reg 4).toNat < c.trapbase.toNat + 512 ∧ c.database.toNat < (st.reg 5).toNat ∧ (st.reg 6).toNat % 4 ≠ 0 ∧
      (∀ n ∈ [2#4, 3, 4, 5], (st.reg n).toNat % 4 = 0) := by decide +kernel

/-- BselSelectsTheBatch: a strand issues. -/
theorem witness_BselSelectsTheBatch : sW.issuing = some (1, stW) ∧ stW.guardOk b.gd = true := by decide +kernel

/-- TlbiRemovesTranslations: a privileged strand, with empty TLBs; VBN 0 of g0 beside the next extent of the same GiB and one of the next GiB. -/
theorem witness_TlbiRemovesTranslations :
    sK.issuing = some (1, stK) ∧ stK.guardOk b.gd = true ∧ stK.image = 0xFFFF ∧ (∀ c, Maps.wf (sK.cluster c).tlb = true) ∧
      (stK.reg 0).toNat / 4096 % 2 ^ 37 = 0 ∧ (512#37).toNat / 512 ≠ 0 ∧ (512#37).toNat / 2 ^ 18 = 0 ∧ (0x40000#37).toNat / 2 ^ 18 ≠ 0 :=
  ⟨by decide +kernel, by decide +kernel, by decide +kernel, fun _ => rfl, by decide +kernel, by decide +kernel, by decide +kernel, by decide +kernel⟩

/-- A privileged strand with the partition values 3, 4, 16 and 17 in g0 to g3, and an L2 part of 8 units or 16. -/
def stP : Strand := { stK with regs := stK.regs.set 0 3 |>.set 1 4 |>.set 2 16 |>.set 3 17 |>.set 4 0 |>.set 5 1 }
def sP (u : BitVec 5) : State := { stateOf stP with clusters := [(0, { Cluster.reset with l2units := u, pads := [(7, { Block.mapped with st := 1 })] })] }
/-- An image of one overlay: NOVL 1 and an entry of 4 bytes at 0x60 to be loaded at 0x200. -/
def image1 : List Byte := (List.replicate 0x1E 0) ++ [1, 0, 0, 0, 0, 0, 0x28, 0, 0, 0] ++ [0x60, 0, 0, 0, 4, 0, 0, 0, 0, 2, 0, 0, 0, 0, 0, 0] ++
  List.replicate (0x60 - 0x38) 0 ++ [1, 2, 3, 4]
/-- IdlePartitionAndOverlay: IDLE with and without an event; partition values outside, at both ends, the one that stands, a larger part with free slots and with one that is not, and a smaller one; overlays 0 and 1 of an image of one, and its copy complete. -/
theorem witness_IdlePartitionAndOverlay :
    (sK.issuing = some (1, stK) ∧ stK.guardOk b.gd = true ∧ stK.image = 0xFFFF ∧ sK.keepEvents = [] ∧ sK.idler = none ∧ Maps.wf sK.strands = true ∧
      ({ sK with keepEvents := [{ kind := 1, ref := 0 }] } : State).keepEvents = { kind := 1, ref := 0 } :: []) ∧
    ((sP 4).issuing = some (1, stP) ∧ (stP.reg 0).toNat < 4 ∧ 16 < (stP.reg 3).toNat ∧
      ((sP 4).cluster (coreCluster stP.home)).l2units.toNat = 4 ∧ (stP.reg 2).toNat = 16 ∧ (stP.reg 1).toNat = 4 ∧
      (∀ slot, 512 - 32 * 15 ≤ slot → slot < 512 - 32 * 4 → (sP 4).slotFree 0 slot = true) ∧
      (∃ slot, 512 - 32 * (stP.reg 2).toNat ≤ slot ∧ slot < 512 - 32 * 4 ∧ (sP 4).slotFree 0 slot = false) ∧
      ((sP 16).cluster 0).l2units.toNat = 16 ∧ ((sP 16).cluster 0).fills = [] ∧
      ((sP 16).cluster 0).res.length + ((sP 16).cluster 0).copies.length ≤ 32 * (stP.reg 1).toNat) ∧
    (let s : State := { stateOf stP with images := [(3, image1)] }
     s.issuing = some (1, stP) ∧ recField (Maps.getD s.images (s.core stP.home).image.toNat []) 0x1E 2 = 1 ∧ (stP.reg 5).toNat = 1 ∧
       (stP.reg 4).toNat = 0 ∧ (s.core stP.home).ovld = none) ∧
    (let o : Overlay := { load := 0x200, body := [1, 2, 3, 4], strand := 1 }
     let st : Strand := { stP with wait := .overlay (.ovld b 4) }
     let s : State := { stateOf st with cur := none, cores := [(0, { core0 with ovld := some o })] }
     s.strand 1 = some st ∧ st.loc = .slot 0 0 ∧ st.wait = .overlay (.ovld b 4) ∧ (s.core st.home).ovld = some o ∧ o.strand = 1) := by
  refine ⟨by decide +kernel, ⟨by decide +kernel, by decide +kernel, by decide +kernel, by decide +kernel, by decide +kernel, by decide +kernel, ?_,
    ⟨7, by decide +kernel⟩, by decide +kernel, by decide +kernel, by decide +kernel⟩, by decide +kernel, by decide +kernel⟩
  have h : ∀ i ∈ List.range 480, (sP 4).slotFree 0 (32 + i) = true := by decide +kernel
  intro slot lo hi
  have := h (slot - 32) (List.mem_range.2 (by omega))
  rwa [show 32 + (slot - 32) = slot by omega] at this

/-- An extended operation on the handle in p2. -/
def o2 : XOp := { x with rd := 2, ra := 10, fmt := 3, rb := 1, imm6 := 7 }
/-- SynchronousOperationsIssue: the aligned handle in p2 translates for each permission, no copy serves it, there is room; WLD of the last word of the window and of the block. -/
theorem witness_SynchronousOperationsIssue :
    sW.issuing = some (1, stW) ∧ stW.guardOk o2.gd = true ∧
      (∀ n ∈ [1, 4, 8, 128], (Handle.off (stW.ea o2 n).h).toNat % n = 0 ∧
        ∀ perm ∈ [1#4, 2, 3, 4], sW.xlate (coreCluster stW.home) true (stW.ea o2 n).h perm = .ok (.pad 0 0)) ∧
      (sW.copyFor (coreCluster stW.home) (stW.ea o2 1).h (.pad 0 0)).isNone = true ∧ sW.roomFor (unitCore stW.home) (homeOf (.pad 0 0)) 1 = true ∧
      o2.imm6.toNat + (o2.bit.toNat + 1) ≤ stW.words ∧
      (Handle.off (stW.ea { o2 with imm12 := 0xFFC - 0x1000 } 4).h).toNat + 4 * (o2.bit.toNat + 1) = 4096 ∧ descOk (stW.desc 0) = true := by
  decide +kernel

/-- The operation of strand 1 of core 0 on the handle in p2. -/
def q2 (k : OpKind) : Op :=
  { kind := k, h := pad0, place := .pad 0 0, unit := 0, seq := 3, asker := .strand 1, tracker := 0, batch := 0, ordinal := 0, node := 7 }
/-- A strand that waits for the reply `rep` to an instruction. -/
def stReply (i : Instr) : Strand := { stW with wait := .reply i pad0 pad0 }
def sReply (i : Instr) (k : OpKind) (rep : Reply) : State :=
  { stateOf (stReply i) with cur := none, net := [(5, .reply (q2 k) rep)], units := [(0, [q2 k])] }
/-- RepliesComplete, and the replies of BlockAccessTraps: each instruction with its reply, in a slot and without one. -/
theorem witness_RepliesComplete :
    (∀ p ∈ ([(.ld o2, .read false, .data 5 0x4000 0), (.ldv o2, .read false, .data 5 0x4000 0), (.wld o2, .read false, .data 5 0x4000 0),
        (.wait o2, .wait, .data 5 0x4000 0), (.arm o2, .arm 0, .status 0 0), (.clr o2, .clear false, .status 1 0),
        (.clrx o2, .clear true, .status 0 0), (.discard o2, .discard, .status 3 0), (.acnt o2, .arrival, .status 2 65535),
        (.genr o2, .probe, .probe 0x4000), (.probe o2, .probe, .probe 0x4000), (.ld o2, .read false, .stale), (.ld o2, .read false, .poison)] :
        List (Instr × OpKind × Reply)),
      let s := sReply p.1 p.2.1 p.2.2
      let st := stReply p.1
      s.strand 1 = some st ∧ (q2 p.2.1).asker = .strand 1 ∧ (q2 p.2.1).place.onDie (clusterDie (coreCluster st.home)) = true ∧
        ((Maps.getD s.units (q2 p.2.1).unit []).any fun z => z.seq == (q2 p.2.1).seq && z.asker == (q2 p.2.1).asker) = true ∧
        st.wait = .reply p.1 (q2 p.2.1).h pad0 ∧
        Maps.get s.net 5 = some (.reply (q2 p.2.1) p.2.2) ∧ st.inSlot = true ∧ ({ st with loc := .store 0 } : Strand).inSlot = false ∧
        s.victim st = false ∧ ({ s with instances := [(9, { inst9 with quenched := true })] } : State).victim st = true ∧
        readsData (.ld o2) = true) := by decide +kernel

/-- Handles of the witnesses of BlockAccessTraps: space 0 (missing from the TLB), a space that faults, and a slot of cluster 1. -/
def stTrap : Strand := { stW with regs := stW.regs.set 8 0x1000 |>.set 9 0x0004000000000000 |>.set 11 0x0002003FC0200000 }
/-- BlockAccessTraps: a misaligned handle, a WLD and a FILL past the end of the block, a missing translation, a permission fault, a home that is full, a move to another cluster, anchored, not anchored, and with the outbound buffer in use; a source without a tag and with another. -/
theorem witness_BlockAccessTraps :
    let s := stateOf stTrap
    let e := fun ra n => (stTrap.ea { o2 with ra := ra } n).h
    s.issuing = some (1, stTrap) ∧ stTrap.guardOk o2.gd = true ∧ (Handle.off (e 12 8)).toNat % 8 ≠ 0 ∧
      s.xlate 0 true (e 8 8) 2 = .miss ∧ s.xlate 0 true (e 9 8) 2 = .fault ∧ s.xlate 0 true (e 11 8) 2 = .migrate 1 ∧
      (∀ ra ∈ [8#4, 9, 11], (Handle.off (e ra 8)).toNat % 8 = 0 ∧ (Handle.off (e ra 4)).toNat + 4 * (o2.bit.toNat + 1) ≤ 4096) ∧
      stTrap.anch = true ∧ ({ stTrap with tags := st0.tags } : Strand).anch = false ∧ (s.core 0).outbuf = [] ∧
      ({ core0 with outbuf := [2] } : Core).outbuf ≠ [] ∧
      decide ((Handle.off (stTrap.ea { o2 with ra := 10, imm12 := 0xFFC - 0x1000 } 4).h).toNat + 4 * (({ o2 with bit := 1 } : XOp).bit.toNat + 1) ≤ 4096) = false ∧
      decide ((Handle.off (e 10 128)).toNat / 128 + (({ o2 with imm6 := 32 } : XOp).imm6.toNat + 1) ≤ 32) = false ∧
      ({ s with units := [(0, List.replicate 1024 (q2 (.seal false)))] } : State).roomFor (unitCore stTrap.home) (homeOf (.pad 0 0)) 1 = false ∧
      (16 ≤ (stTrap.tag (low3 1)).toNat) ∧ ¬16 ≤ (stTrap.tag (low3 2)).toNat ∧ (stTrap.tag (low3 1)).toNat = 16 * ({ o2 with fmt := 8 } : XOp).fmt.toNat ∧
      (stTrap.tag (low3 1)).toNat ≠ 16 * o2.fmt.toNat := by decide +kernel

/-- Space 0, VBN 0 to 511: an extent at frame 2 of stack 0 with every permission, in the TLB of cluster 0 of module 0. -/
def withTlb (s : State) : State := { s with modNo := 0, clusters := [(0, { Cluster.reset with tlb := [(0, 0xFC00000000000002)] })] }
/-- HintsAndMigration: PREF of a block of module 1. -/
theorem witness_HintsAndMigration_off :
    let st : Strand := { stTrap with regs := stTrap.regs.set 8 0x200000 }
    let s : State := { stateOf st with
      modNo := 0, modSet := true, domain := 3, clusters := [(0, { Cluster.reset with tlb := [(tlbKey 512 false, 0xFC04000000000002)] })] }
    let h := (st.ea { o2 with ra := 8 } 1).h
    s.issuing = some (1, st) ∧ st.guardOk o2.gd = true ∧ h.toNat / 2 ^ 49 % 8 = 0 ∧ ({ o2 with imm6 := 0 } : XOp).imm6.getLsbD 0 = false ∧
      s.xlate (coreCluster st.home) true h 1 = .ok (.off 1) := by decide +kernel
/-- HintsAndMigration: PREF of another space, PREF without a translation and without the permission, PREF of a block that is not resident, MIGR to its own cluster and to another. -/
theorem witness_HintsAndMigration :
    let st : Strand := { stTrap with regs := stTrap.regs.set 8 0x40000 }
    let s := withTlb (stateOf st)
    let h := (st.ea { o2 with ra := 8 } 1).h
    s.issuing = some (1, st) ∧ st.guardOk o2.gd = true ∧ ((st.ea o2 1).h).toNat / 2 ^ 49 % 8 ≠ 0 ∧ h.toNat / 2 ^ 49 % 8 = 0 ∧
      ((st.ea { o2 with ra := 2 } 1).h).toNat / 2 ^ 49 % 8 = 0 ∧ s.xlate (coreCluster st.home) true (st.ea { o2 with ra := 2 } 1).h 1 = .miss ∧
      ({ s with clusters := [(0, { Cluster.reset with tlb := [(0, 0xF800000000000002)] })] } : State).xlate 0 true h 1 = .fault ∧
      ({ o2 with imm6 := 0 } : XOp).imm6.getLsbD 0 = false ∧ s.xlate (coreCluster st.home) true h 1 = .ok (.dom 0 1088) ∧ coreCluster st.home = 0 ∧
      (s.effective 0 1088).1.gen.toNat = h.toNat / 2 ^ 52 ∧ Maps.get (s.cluster 0).res 1088 = none ∧ Maps.get (s.cluster 0).fills 1088 = none ∧
      ((st.ea { o2 with ra := 0 } 1).h).toNat / 2 ^ 49 % 8 = 0 ∧ s.xlate (coreCluster st.home) true (st.ea { o2 with ra := 0 } 1).h 1 = .ok (.dom 8 1024) ∧
      st.anch = true ∧ ({ st with tags := st0.tags } : Strand).anch = false ∧ (s.core st.home).outbuf = [] := by decide +kernel

/-- HintsAndMigration: PREF with a target in service and one that is not, with the supply out, of a block whose log stands, of a resident FULL block and of one at another generation, which a target with room copies. -/
theorem witness_HintsAndMigration_target :
    let st : Strand := { stTrap with regs := (stTrap.regs.set 8 0x40000).set 1 3 }
    let s := withTlb (stateOf st)
    let o : XOp := { o2 with ra := 8, imm6 := 1 }
    let h := (st.ea o 1).h
    let d := BitVec.ofNat 9 (st.reg o.rb).toNat
    let full : Resident := { b := { Block.mapped with st := 1 }, used := 0, dirty := false }
    let c := s.cluster 0
    let sRes : State := { s with clusters := [(0, { c with res := [(1088, full)] })] }
    let sLog : State := { s with clusters := [(0, { c with logs := [(1088, { desc := Block.mapped, entries := [], born := 0 })] })] }
    s.issuing = some (1, st) ∧ st.guardOk o.gd = true ∧ h.toNat / 2 ^ 49 % 8 = 0 ∧ o.imm6.getLsbD 0 = true ∧ d = 3 ∧ s.inService d = true ∧
      ({ s with badClusters := [3] } : State).inService d = false ∧ s.supplyOk = true ∧ ({ s with supplyOk := false } : State).issuing = some (1, st) ∧
      s.xlate (coreCluster st.home) true h 1 = .ok (.dom 0 1088) ∧
      sRes.xlate (coreCluster st.home) true h 1 = .ok (.dom 0 1088) ∧ sLog.xlate (coreCluster st.home) true h 1 = .ok (.dom 0 1088) ∧
      Maps.get (sRes.cluster 0).res 1088 = some full ∧ full.b.gen.toNat = h.toNat / 2 ^ 52 ∧ full.b.st = 1 ∧ full.b.poisoned = false ∧
      ({ full.b with gen := 1 } : Block).gen.toNat ≠ h.toNat / 2 ^ 52 ∧
      (sRes.cluster 3).res.length + (sRes.cluster 3).copies.length < (sRes.cluster 3).capacity ∧
      (Maps.get (sLog.cluster 0).logs 1088).isSome = true ∧ Maps.get (sLog.cluster 0).res 1088 = none ∧
      (sLog.effective 0 1088).1.gen.toNat = h.toNat / 2 ^ 52 := by decide +kernel
/-- HintsAndMigration: MIGR with scratchpad handles of the own cluster, of another cluster in service and out of service, and of another module, and a block of another module. -/
theorem witness_HintsAndMigration_migr :
    let st : Strand := { stTrap with regs := (stTrap.regs.set 8 0x0002000040000000).set 9 0x200000, tags := st0.tags }
    let s := stateOf st
    let e := fun ra => (st.ea { o2 with ra := ra } 1).h
    s.issuing = some (1, st) ∧ st.guardOk o2.gd = true ∧ (e 11).toNat / 2 ^ 30 % 256 = s.modNo.toNat ∧
      s.xlate (coreCluster st.home) true (e 11) 1 = .migrate 1 ∧ s.standIn 1 = 1 ∧ coreCluster st.home = 0 ∧
      ({ withTlb s with badClusters := [8] } : State).standIn 8 = 0 ∧ ({ withTlb s with badClusters := [8] } : State).xlate 0 true (e 0) 1 = .ok (.dom 8 1024) ∧
      st.anch = false ∧ (s.core st.home).outbuf = [] ∧
      (let t : State := { s with modNo := 0, modSet := true, domain := 3, clusters := [(0, { Cluster.reset with tlb := [(tlbKey 512 false, 0xFC04000000000002)] })] }
       t.issuing = some (1, st) ∧ (e 8).toNat / 2 ^ 49 % 8 = 1 ∧ (e 8).toNat / 2 ^ 38 % 2048 = 0 ∧ (e 8).toNat / 2 ^ 30 % 256 ≠ t.modNo.toNat ∧
         t.inDomain (BitVec.ofNat 8 ((e 8).toNat / 2 ^ 30)) = true ∧ (e 9).toNat / 2 ^ 49 % 8 = 0 ∧
         t.xlate (coreCluster st.home) true (e 9) 1 = .ok (.off 1)) := by decide +kernel

/-- An operation of strand 1 on block 1088 of cluster 0 at generation 5, as a message. -/
def qd (k : OpKind) : Op := { q2 k with h := 0x0050000000040000, place := .dom 0 1088 }
/-- The block resident. -/
def sHome (blk : Block) (k : OpKind) : State :=
  { withTlb (stateOf (stReply (.ld o2))) with
    net := [(5, .op (qd k))], cur := none, clusters := [(0, { Cluster.reset with res := [(1088, { b := blk, used := 0, dirty := false })] })] }
/-- A block at generation 5, EMPTY or FULL. -/
def blk5 (full : Bool) : Block := { Block.mapped with gen := 5, st := if full then 1 else 0 }
/-- HomeEventsApply: each of the eleven events with an operation of its kind on a resident block at its generation, answered at once. -/
theorem witness_HomeEventsApply :
    (∀ p ∈ ([(.read false, true, .data 0 0x4014 0), (.wait, true, .data 0 0x4014 0), (.write 0 8 7 false, false, .report 0 0),
        (.seal true, false, .report 0 0), (.arrival, false, .status 0 0), (.accum 3968 128 8 0 true 0, false, .report 0 0),
        (.arm 0x2000000, false, .status 5 0), (.release, true, .report 32 16), (.clear false, true, .status 0 0),
        (.discard, false, .status 0 0), (.probe, false, .probe 0x14), (.watcher 0 7, false, .report 0 0)] : List (OpKind × Bool × Reply)),
      let s := sHome (blk5 p.2.1) p.1
      let a := (blk5 p.2.1).act false (qd p.1)
      Maps.get s.net 5 = some (.op (qd p.1)) ∧ (qd p.1).place = .dom 0 1088 ∧
        (Maps.get (s.cluster 0).res 1088).map Resident.b = some (blk5 p.2.1) ∧ Maps.get (s.cluster 0).fills 1088 = none ∧
        (match Maps.get (s.cluster 0).windows (qd p.1).unit with | none => true | some w => (w.seen.find? (fun z => z.1 == (qd p.1).seq)).isNone) = true ∧
        (p.1 ≠ .probe → p.1 ≠ .arm 0x2000000 → a.reply = some p.2.2) ∧ a.reply.isSome = true ∧ a.lost = [] ∧
        ((a.parks || a.queues) = true → (s.cluster 0).tableRoom (blk5 p.2.1) a.b = true)) := by decide +kernel

/-- ReadersParkAndWake: a read of an EMPTY and of a DEFERRED-READ block at its generation, a wake from another module before the report of its park, and the wakes of a parked strand. -/
theorem witness_ReadersParkAndWake :
    (∀ z ∈ [0#2, 2#2],
      let blk : Block := { blk5 false with st := z }
      let o : Op := qd (.read false)
      let st : Strand := { stW with wait := .reply (.ld o2) o.h pad0 }
      let s : State := { sHome blk (.read false) with strands := [(1, st)], units := [(0, [o])] }
      s.strand 1 = some st ∧ Maps.get s.net 5 = some (.op o) ∧ o.place = .dom 0 1088 ∧ o.kind = .read false ∧ o.asker = .strand 1 ∧
        st.wait = .reply (.ld o2) o.h pad0 ∧ st.loc = .slot 0 0 ∧ (Maps.get (s.cluster 0).res 1088).map Resident.b = some blk ∧
        Maps.get (s.cluster 0).fills 1088 = none ∧ Maps.get (s.cluster 0).windows o.unit = none ∧ Handle.gen o.h = blk.gen ∧
        blk.st.toNat % 2 = 0 ∧ o.unit < 8192 ∧ ((Maps.getD s.units o.unit []).any fun z => z.seq == o.seq && z.asker == o.asker) = true ∧
        (s.cluster 0).tableRoom blk { blk with st := 2, stubs := blk.stubs ++ [.reader (.strand 1) blk.gen o.h] } = true) ∧
    (let st : Strand := { stW with wait := .reply (.ld o2) 0x200FF8 pad0 }
     let s : State := { stateOf st with net := [(5, .wake 1 (.off 1) none 0x200000)] }
     s.strand 1 = some st ∧ st.wait = .reply (.ld o2) 0x200FF8 pad0 ∧ (0x200FF8#64).toNat / 4096 = (0x200000#64).toNat / 4096 ∧
       Maps.get s.net 5 = some (.wake 1 (.off 1) none 0x200000)) ∧
    (let st : Strand := { stW with wait := .parked (.pad 0 0) (pad0 + 8) }
     let s : State := { stateOf st with net := [(5, .wake 1 (.pad 0 0) none pad0), (6, .wake 1 (.pad 0 0) (some 12) pad0)], cur := none }
     s.strand 1 = some st ∧ st.wait = .parked (.pad 0 0) (pad0 + 8) ∧ (pad0 + 8).toNat / 4096 = pad0.toNat / 4096 ∧ s.victim st = false ∧
       Maps.get s.net 5 = some (.wake 1 (.pad 0 0) none pad0) ∧
       st.tcause.getLsbD 7 = false ∧ Maps.get s.net 6 = some (.wake 1 (.pad 0 0) (some 12) pad0)) := by decide +kernel

/-- HomeWritesSealsAndArrivals and HomeClearsAndAccumulations: writes of the first and the last unit, a whole block, and accumulations at the first and last row and of the whole block meet the bounds; the lines of the tables of R202, R205, R206 and R368 are taken by some block; an accumulation of I32 that does not fill its block. -/
theorem witness_HomeWritesSealsAndArrivals_HomeClearsAndAccumulations :
    (∀ p ∈ [((0 : Nat), 8), (4088, 8), (0, 4096)], p.1 % 8 = 0 ∧ p.2 % 8 = 0 ∧ p.1 + p.2 ≤ 4096) ∧
    (∀ p ∈ [((128 : Nat), 0), (128, 3968), (4096, 0)], (p.1 = 128 ∧ p.2 % 128 = 0 ∨ p.1 = 4096 ∧ p.2 = 0)) ∧
    ((blk5 false).mode ≠ 0 ∨ 8 * (List.range 512).countP ((blk5 false).mask ||| BitVec.ofNat 512 (2 ^ 16 - 1)).getLsbD < (blk5 false).acount.toNat) ∧
    ([blk5 true, blk5 false, blk5 true, { blk5 false with poisoned := true }, { blk5 true with poisoned := true }, { blk5 false with acount := 8 },
      { blk5 false with acount := 8 }, blk5 false].zip [opOf (.write 0 8 7 true) 6, opOf (.write 0 8 7 true) 6, opOf (.write 0 8 7 false) 5,
        opOf (.write 0 8 7 false) 5, opOf (.write 0 8 7 true) 6, opOf (.write 0 8 7 false) 5, opOf (.write 0 16 7 false) 5,
        opOf (.write 0 8 7 false) 5]).map (fun p => (p.1.act false p.2).reply) =
      [none, some (.report 2 8), some (.report 1 14), some (.report 8 17), some (.report 8 17), some (.report 0 0), some (.report 4 15),
        some (.report 0 0)] ∧
    ([blk5 false, blk5 false, blk5 true, blk5 true, { blk5 false with arrivals := 2 }, blk5 false, { blk5 true with poisoned := true }].zip
      [opOf (.arm 0x11000) 5, opOf (.arm 0x11000) 4, opOf (.arm 0x3030000) 5, opOf (.arm 0x11000) 5, opOf (.arm 0x10001) 5, opOf (.arm 0x10000) 5,
        opOf (.arm 0x3030000) 5]).map (fun p => (p.1.act false p.2).reply) =
      [some (.status 0 0), some (.status 3 0), some (.status 0 0), some (.status 4 0), some (.status 2 0), some (.status 5 0), some (.status 4 0)] ∧
    ([blk5 false, { blk5 false with poisoned := true }, { blk5 false with arrivals := 65535 }, blk5 true].zip
      [opOf .arrival 4, opOf .arrival 5, opOf .arrival 5, opOf .arrival 5]).map (fun p => (p.1.act false p.2).reply) =
      [some (.status 3 0), some .poison, some (.status 2 65535), some (.status 0 0)] := by decide +kernel

/-! #### Circuits, the Lantern and the collective -/

/-- Plan 1: fibres 0 and 63 of module 0 join module 1. -/
def plan1 : FMap (BitVec 16) := [(0, 0x8001), (63, 0x8001)]
/-- The channel of generation 7, plan 1, to module 1, group 0, fibre 0, stream 0. -/
def chan0 : Word := 7#32 ++ 1#4 ++ 1#8 ++ 0#4 ++ 1#4 ++ 0#4 ++ 0#8
def stCh : Strand := { stW with regs := stW.regs.set 2 chan0 |>.set 5 1 |>.set 10 0x0002000000000000 |>.set 11 0x0002000040000000 }
def sCh : State := { withTlb (stateOf stCh) with tgen := 7, plan := 1, plans := [(0, []), (1, plan1)], fibresUp := 0x8000000000000001, domain := 3, modSet := true }
/-- The operands of CHMK and SEND. -/
def oCh : XOp := { x with rd := 2, ra := 10, rb := 11 }
/-- CircuitInstructions: a channel as formed, on a replaced fibre too once CHMK has made it again, aligned operands with the source here and the destination a scratchpad of module 1, misaligned ones, and the strand that waits for acceptance. -/
theorem witness_CircuitInstructions :
    sCh.issuing = some (1, stCh) ∧ stCh.guardOk oCh.gd = true ∧ sCh.reconf = false ∧ ({ sCh with reconf := true } : State).reconf = true ∧
      stCh.reg 2 = sCh.tgen ++ sCh.plan ++ 1#8 ++ 0#4 ++ 1#4 ++ 0#4 ++ 0#8 ∧ (1#4 : BitVec 4) ≠ 0 ∧
      (∀ i ∈ List.range 4, (1#4 : BitVec 4).getLsbD i = true → sCh.fibresUp.getLsbD i = true ∧ sCh.planesUp.getLsbD i = true ∧
        (sCh.planEntry sCh.plan sCh.modNo i).toNat / 2 ^ 15 = 1 ∧ (sCh.planEntry sCh.plan sCh.modNo i).toNat % 2 ^ 8 = 1 ∧
        sCh.remade.getLsbD i = false) ∧ chan0 ∈ ({ sCh with remade := 1, chanMade := [chan0] } : State).chanMade ∧
      (stCh.reg 10).toNat % 4096 = 0 ∧ (stCh.reg 11).toNat % 4096 = 0 ∧ (stW.reg 11).toNat % 4096 ≠ 0 ∧ sCh.xlate 0 true (stCh.reg 10) 1 = .ok (.pad 0 0) ∧
      (stCh.reg 11).toNat / 2 ^ 49 % 8 = 1 ∧ (stCh.reg 11).extractLsb' 38 11 = 0 ∧ (stCh.reg 11).extractLsb' 30 8 = 1 ∧
      (sCh.copyFor 0 (stCh.reg 10) (.pad 0 0)).isNone = true ∧ sCh.roomFor 0 (homeOf (.pad 0 0)) 1 = true ∧
      (let st : Strand := { stCh with wait := .send (.send oCh) 9 }
       let s : State := { sCh with strands := [(1, st)], cur := none }
       s.strand 1 = some st ∧ st.wait = .send (.send oCh) 9 ∧ st.inSlot = true ∧ s.reconf = false ∧
         s.roomFor (unitCore st.home) (2048 + (chan0.extractLsb' 20 8).toNat) 1 = true) := by decide +kernel
/-- CircuitInstructions: the handle 0 names no channel of generation 7, whoever the peer is. -/
theorem witness_CircuitInstructions_stale (peer : BitVec 8) :
    ¬∃ lg m : BitVec 4, ∃ stream : BitVec 8, (0 : Word) = sCh.tgen ++ sCh.plan ++ peer ++ lg ++ m ++ 0#4 ++ stream ∧ m ≠ 0 := by
  rintro ⟨lg, m, stream, h, -⟩
  have b : (sCh.tgen ++ sCh.plan ++ peer ++ lg ++ m ++ 0#4 ++ stream).getLsbD 32 = false := by rw [← h]; decide
  simp only [BitVec.getLsbD_append] at b
  norm_num at b
  exact absurd b (by decide +kernel)

/-- SENDs of module 1 on channel 0, numbers 5 and 8; a frame for module 1. -/
def msg0 (num prev : Nat) : SendMsg :=
  { frm := 1, chan := chan0, hd := 0x0002000000000000, unit := 0, seq := 3, tracker := 1, batch := 0, ordinal := 0, node := 7, data := 9, num := num, prev := prev }
def fr (dst : BitVec 8) (body : FrameBody) : Frame := { src := if dst = 0 then 1 else 2, dst := dst, num := 4, body := body }
/-- The collective of strand 1 at its stages. -/
def coll : Collective := { round := 4, plan := 0, expect := 7, recs := [1], drain := false, drained := false, relocked := false, late := [] }
/-- LanternTraffic: SENDs while the Lantern holds, out of order, taken before, behind another and first of its channel. -/
theorem witness_LanternTraffic_sends :
    (let s : State := { sCh with rcir := some { coll with drain := true } }
     (s.rcir.any fun c => c.drain) = true ∧ ({ msg0 8 5 with chan := 8#32 ++ 0#32 } : SendMsg).chan.extractLsb' 32 32 = s.tgen + 1 ∧
       (msg0 8 5).chan.extractLsb' 32 32 ≠ s.tgen + 1) ∧ (sCh.rcir.any fun c => c.drain) = false ∧
      (let s : State := { sCh with chanLast := [(1, chan0, 5)] }
       s.lastSend 1 chan0 = 5 ∧ (msg0 9 8).prev > 5 ∧ (msg0 8 5).prev ≤ 5 ∧ 5 < (msg0 8 5).num ∧ (msg0 5 0).num ≤ 5 ∧ s.chanIn = [] ∧
         msg0 5 0 ∈ ({ s with chanIn := [msg0 5 0] } : State).chanIn ∧ s.channelPlace (msg0 8 5).hd = some (.pad 0 0)) := by decide +kernel
/-- LanternTraffic: a frame for module 1 with a path, each body for this module, frames heard before and not, and what is sent again. -/
theorem witness_LanternTraffic_frames :
    (1#8 ≠ sCh.modNo) ∧ (fr 1 (.fire 7)).src ≠ sCh.modNo ∧ sCh.route 1 = some 0 ∧ sCh.route 9 = none ∧ (0#8 = sCh.modNo) ∧
      (let s : State := { sCh with rcir := some { coll with drain := true } }
       (s.rcir.any fun c => c.drain) = true ∧ ({ fr 0 (.fire 7) with gen := 8 } : Frame).gen = s.tgen + 1 ∧ ({ fr 0 (.fire 7) with gen := 7 } : Frame).gen ≠ s.tgen + 1) ∧
      (fr 0 (.drop [4])).body = .drop [4] ∧ ((({ sCh with kept := [fr 9 (.fire 7)] } : State).kept).find? fun g => g.num == 4) = some (fr 9 (.fire 7)) ∧
      (let s : State := { sCh with hbm := (leBytes 8 0xFC00000000000002 |>.zipIdx.map fun p => (p.2, p.1)).filter fun c => c.2 != 0 }
       s.placeOf 0x40000 0 = some (.dom 0 1088)) ∧
      (fr 0 (.fire 7)).num ∈ Maps.getD ({ sCh with heard := [(1, [4])] } : State).heard 1 [] ∧ (fr 0 (.fire 7)).num ∉ Maps.getD sCh.heard 1 [] ∧
      (let o : Op := { qd (.write 0 8 7 false) with place := .off 1 }
       let s : State := { sCh with units := [(0, [o])], kept := [fr 1 (.fire 7)], chanOut := [msg0 8 5] }
       (Maps.getD s.units 0 []).find? (fun z => z.seq == o.seq) = some o ∧ (sCh.node 7).isSome = true ∧
         (s.kept.find? fun g => g.num == 4) = some (fr 1 (.fire 7)) ∧ (∀ f ∈ s.kept, f.num ≠ 8) ∧
         (s.chanOut.find? fun x => x.num == 8) = some (msg0 8 5)) := by decide +kernel

/-- CollectiveAtAModule: RCIR of a strand in a slot with no collective, and a collective before DRAIN, drained, before RELOCK and at GO, with its strand anchored in its slot; the leader is this module, with the message or without it, or another. -/
theorem witness_CollectiveAtAModule :
    sCh.issuing = some (1, stCh) ∧ stCh.guardOk oCh.gd = true ∧ stCh.loc = .slot 0 0 ∧ sCh.rcir = none ∧ stCh.anch = true ∧
      ({ stCh with tags := st0.tags } : Strand).anch = false ∧ sCh.leaderNo = sCh.modNo ∧ ({ sCh with leader := 1 } : State).leaderNo ≠ sCh.modNo ∧
      DomainMsg.drain coll.plan coll.expect ∈ ({ sCh with toSelf := [.drain 0 7] } : State).toSelf ∧ DomainMsg.drain coll.plan coll.expect ∉ sCh.toSelf ∧
      (let c : Collective := { coll with drain := true }
       let s : State := { sCh with rcir := some c }
       ({ sCh with rcir := some coll } : State).rcir = some coll ∧ coll.drain = false ∧
         s.rcir = some c ∧ c.drain = true ∧ c.drained = false ∧ s.chanOut = [] ∧ s.kept = []) ∧
      (let c : Collective := { coll with drain := true, drained := true }
       let s : State := { sCh with rcir := some c, toSelf := [.relock false (1 <<< 63)], lantern := [fr 1 (.fire 7)] }
       c.drained = true ∧ c.relocked = false ∧ ({ c with back := true } : Collective).relocked = false ∧
         (∀ f ∈ s.lantern, ({ s with
           toSelf := [], planesUp := s.planesUp &&& ~~~(1#64 <<< 63), rcir := some { c with relocked := true, plan := s.plan, back := true } } : State).hasPath f.dst = true) ∧ s.fibresUp.getLsbD 0 = true ∧ s.planesUp.getLsbD 0 = true ∧
         DomainMsg.relock false (1 <<< 63) ∈ s.toSelf ∧ (s.planEntry s.plan s.modNo 0).getLsbD 15 = true ∧ s.idler = none ∧
         (∀ k ∈ List.range 64, s.fibresUp.getLsbD k = true → (s.planEntry c.plan s.modNo k).toNat / 2 ^ 15 = 1 →
           (0x8000000000000001#64).getLsbD k = true) ∧
         (∀ k ∈ List.range 64, s.fibresUp.getLsbD k = true → (s.planEntry s.plan s.modNo k).toNat / 2 ^ 15 = 1 →
           (0x8000000000000001#64).getLsbD k = true)) ∧
      (let c : Collective := { coll with drain := true, drained := true, relocked := true }
       let st : Strand := { stCh with wait := .rcir (.rcir oCh) }
       let s : State := { sCh with rcir := some c, strands := [(1, st)], cur := none, toSelf := [.go false, .abort] }
       s.rcir = some c ∧ c.relocked = true ∧ c.late = [] ∧ c.recs = [1] ∧ s.strand 1 = some st ∧ st.wait = .rcir (.rcir oCh) ∧ st.inSlot = true ∧
         DomainMsg.go false ∈ s.toSelf ∧ DomainMsg.abort ∈ s.toSelf) := by
  decide +kernel

/-- Module 0 as the leader of the domain of modules 0 and 1. -/
def sLead : State := { sCh with leader := 0, modSet := true }
/-- An arrival: plan 0, expecting generation 7. -/
def arr1 : Arrival := { round := 4, plan := 0, digest := some 5, expect := 7, theirs := 7 }
/-- CollectiveAtTheLeader: the first and the last arrival, agreeing and not, one of a collective that has ended, and one that differs while the leader runs. -/
theorem witness_CollectiveAtTheLeader_gather :
    sLead.leaderNo = sLead.modNo ∧ 1#8 ∈ sLead.domainOf ∧ sLead.lead.running = false ∧ sLead.lead.bad = false ∧
      DomainMsg.gather arr1 ∈ ({ sLead with toSelf := [.gather arr1] } : State).toSelf ∧
      (Maps.get sLead.lead.arrivals 1).isNone = true ∧ sLead.domainOf = [0, 1] ∧ (Maps.get (Maps.put sLead.lead.arrivals 1 arr1) 0).isNone = true ∧
      (Maps.put (Maps.put sLead.lead.arrivals 0 { arr1 with round := 2 }) 1 arr1 == [(0, { arr1 with round := 2 }), (1, arr1)]) = true ∧
      ({ ({ arr1 with round := 2 } : Arrival) with round := arr1.round } == arr1) = true ∧ arr1.digest.isSome = true ∧ arr1.plan ≠ sLead.plan ∧
      arr1.theirs = arr1.expect ∧ (({ arr1 with expect := 6, theirs := 6 } : Arrival) == arr1) = false ∧
      arr1.round ≤ Maps.getD ({ Leader.reset with ended := [(1, 4)] } : Leader).ended 1 0 ∧ Maps.getD sLead.lead.ended 1 0 < arr1.round ∧
      (let l : Leader := { Leader.reset with running := true, arrivals := [(0, arr1), (1, arr1)] }
       l.running = true ∧ 1 ∉ l.drained ∧ Maps.get l.arrivals 1 ≠ some { arr1 with plan := 3 }) := by decide +kernel

/-- CollectiveAtTheLeader: the stages from DRAINED to LOCKED with one missing and with the last, planes asked and not; a plan request and its reply. -/
theorem witness_CollectiveAtTheLeader_stages :
    (let l : Leader := { Leader.reset with running := true, drained := [1] }
     l.running = true ∧ l.fallback = false ∧ l.asked = [] ∧ (0#8).toNat ∉ l.drained ∧ (∀ m ∈ sLead.domainOf, m ≠ 0 → m.toNat ∈ l.drained)) ∧
    (1#8 ∈ sLead.domainOf ∧ 1#8 ≠ 0 ∧ (1#8).toNat ∉ Leader.reset.drained ∧ DomainMsg.drained ∈ ({ sLead with toSelf := [.drained] } : State).toSelf) ∧
    (∀ n ∈ [0, 63],
      let s : State := { sLead with lead := { Leader.reset with running := true, drained := [0, 1], configured := List.range n } }
      s.allDrained = true ∧ (63#6).toNat ∉ s.lead.configured ∧ s.lead.configured.length = n ∧ s.lead.fallback = false ∧ (63#6).toNat ∉ s.lead.asked) ∧
    ((63#6).toNat ∈ ({ Leader.reset with asked := [63] } : Leader).asked ∧ ({ Leader.reset with asked := [63] } : Leader).asked.Nodup ∧
      ({ Leader.reset with fallback := true } : Leader).fallback = true ∧ Maps.getD sLead.upcSeq 63 0 = 0 ∧ sLead.planePairs 1 63 = [0, 1] ∧
      sLead.planePairs 1 0 = [0, 1] ∧ sLead.planePairs 1 5 = []) ∧
    (let l : Leader := { Leader.reset with running := true, drained := [0, 1], configured := List.range 64, locked := [0] }
     l.configured.length = 64 ∧ (1#8).toNat ∉ l.locked ∧ (∀ m ∈ sLead.domainOf, m ≠ 1 → m.toNat ∈ l.locked)) ∧
    (0#8 ∈ sLead.domainOf ∧ 0#8 ≠ 1 ∧ (0#8).toNat ∉ Leader.reset.locked ∧ DomainMsg.locked ∈ ({ sLead with toSelf := [.locked] } : State).toSelf) ∧
    sLead.boot.stage = 7 ∧
    (let s : State := { sLead with boot := { sLead.boot with stage := 5, wantsPlan := true } }
     s.boot.stage = 5 ∧ s.boot.wantsPlan = true) :=
  ⟨by decide +kernel, by decide +kernel, by decide +kernel, by decide +kernel, by decide +kernel, by decide +kernel, by decide +kernel, by decide +kernel⟩

/-! #### Vector, tile and matrix commands -/

def tileF : Tile := { isInt := false, phys := 0, reserved := false, data := 0 }
def tileI : Tile := { isInt := true, phys := 1, reserved := true, data := 0 }
/-- Vectors v0 to v7 of tags F32, F32, F32, N8, I32, EMPTY, I16 and MF; tiles a0 of F32 and a1 of I32. -/
def stA : Strand :=
  { stW with tags := #v[0x80, 0x80, 0x80, 0x40, 0x60, 0, 0x50, 0xB0], tiles := #v[some tileF, some tileI, none, none, none, none, none, none] }
def sA : State := stateOf stA
/-- Operands of F32 on v0, v1, v2 with the pointers p2; of I32 and of MF. -/
def oF : XOp := { x with rd := 0, ra := 1, rb := 2, rc := 0, fmt := 8 }
def oP : XOp := { x with rd := 0, ra := 10, rb := 10, rc := 10, re := 10, fmt := 8 }
def oM : XOp := { oP with fmt := 0xB }

/-- CommandsIssue: tags, tiles, pointers and destinations as the entries ask, with three and with four commands queued. -/
theorem witness_CommandsIssue :
    sA.issuing = some (1, stA) ∧ stA.guardOk oF.gd = true ∧ (sA.core stA.home).cmdq.length < 4 ∧
      ({ core0 with cmdq := [2, 3, 4] } : Core).cmdq.length < 4 ∧ 4 ≤ ({ core0 with cmdq := [2, 3, 4, 5] } : Core).cmdq.length ∧
      ([0#4, 1, 2].all fun n => stA.tag (low3 n) == BitVec.ofNat 8 (16 * oF.fmt.toNat)) = true ∧
      stA.tag (low3 3) = 0x40 ∧ stA.tag (low3 4) = 0x60 ∧ (stA.tag (low3 6)).toNat / 16 = 5 ∧ descOk (stA.desc 0) = true ∧
      ((stA.tile (low3 0)).any fun t => t.isInt == false) = true ∧ ((stA.tile (low3 1)).any fun t => t.isInt == true) = true ∧
      (stA.reg oP.ra).toNat % 4096 = 0 ∧ descScale (stA.desc 0) ≠ 0 ∧ (descFmt (stA.desc 0)).container = (descFmt (stA.desc 0)).container ∧
      sA.xlate (coreCluster stA.home) true (stA.reg oP.ra) 2 = .ok (.pad 0 0) ∧ sA.xlate (coreCluster stA.home) true (stA.ea oP 4096).h 4 = .ok (.pad 0 0) := by
  decide +kernel

/-- The same without an MF tag, and with a descriptor fd1 that breaks the rules. -/
def stBad : Strand := { stA with tags := stA.tags.set 7 0, fd := stA.fd.set 1 0xFFFFFFFF }
/-- TagTraps: an EMPTY source, one of another class and an illegal descriptor; tiles not held and of the other type. -/
theorem witness_TagTraps :
    (stateOf stBad).issuing = some (1, stBad) ∧ stBad.guardOk oF.gd = true ∧
      (∀ n ∈ [0#3, 1, 2, 3, 4, 5, 6, 7], (stBad.tag n).toNat / 16 ≠ 11) ∧ oF.fmt ≠ 0xB ∧ (stBad.tag (low3 5)).toNat / 16 = 0 ∧
      (stBad.tag (low3 4)).toNat / 16 ≠ 0 ∧ (stBad.tag (low3 4)).toNat ≠ 16 * oF.fmt.toNat ∧ descOk (stBad.desc 1) = false ∧
      (stBad.tile (low3 7)).isNone = true ∧ (stBad.tile (low3 1)).map (fun y => y.isInt) = some true ∧ (oF.fmt == 6) = false := by decide +kernel

/-- A strand whose command has its operands and is dispatched or not, at the head of its core's queue. -/
def stCmd (i : Instr) (disp : Bool) (pins : List Pin) : Strand := { stA with wait := .command i disp pins none }
def sCmd (i : Instr) (disp : Bool) (pins : List Pin) : State :=
  { stateOf (stCmd i disp pins) with
    cur := none, cores := [(0, { core0 with cmdq := if disp then [] else [1] })],
    anvils := [(0, { Anvil.reset with lanes := if disp then [1] else [], tiles := (Anvil.reset.tiles.set 0 (.held 1 none)).set 1 (.held 1 (some 7)) })] }
/-- CommandsDispatch: a matrix, a vector and each tile command at the head of core 0 while the pointers stand at 3, with budget left and spent; a strand with its seven tiles, an Anvil without a free one and one with a tile reserved for the node. -/
theorem witness_CommandsDispatch :
    (∀ p ∈ ([(.mma oP, [.data 0, .data 0]), (.vadd oF, []), (.tzero oF, []), (.tacq { oF with rd := 2 }, []), (.trel oF, []), (.trel { oF with rd := 1 }, []),
        (.tacq oF, []), (.trel { oF with rd := 2 }, [])] : List (Instr × List Pin)),
      let s := { sCmd p.1 false p.2 with anvils := [(0, { (sCmd p.1 false p.2).anvil 0 with vptr := 3, mptr := 3 })] }
      let st := stCmd p.1 false p.2
      s.tongsQuad 0 = s ∧ s.fencedAnvil 0 = false ∧ (s.core ((0#11) ++ ((s.anvil 0).vptr + 1 + 0#2))).cmdq = 1 :: [] ∧
        (s.core ((0#11) ++ ((s.anvil 0).mptr + 1 + 0#2))).cmdq = 1 :: [] ∧ s.strand 1 = some st ∧ st.wait = .command p.1 false p.2 none ∧
        p.2.all Pin.isData = true ∧ p.2.length = (tongsHandles st p.1).length ∧ (s.anvil 0).array.length < 2) ∧
    (let s := (sCmd (.mma oP) false [.data 0, .data 0]).setDie 0 { State.reset.die 0 with budget := 1 }
     (s.anvil 0).spent < (s.die (clusterDie (anvilCluster 0))).budget ∧ (s.die (clusterDie (anvilCluster 0))).budget ≤ (s.anvil 0).spent + 1 ∧
       s.tongsQuad 0 = s) ∧
    ((stA.tile (low3 0)).isSome = true ∧ (stA.tile (low3 2)).isNone = true ∧ stA.tcnt < 7 ∧
      ((sCmd (.trel oF) false []).anvil 0).tiles[(2 : Fin 16)] = .free ∧ ((sCmd (.trel oF) false []).anvil 0).tiles[tileF.phys.toNat]'(tileF.phys.isLt) = .held 1 none ∧
      ((sCmd (.trel oF) false []).anvil 0).tiles[tileI.phys.toNat]'(tileI.phys.isLt) = .held 1 (some 7) ∧
      ({ stA with tiles := #v[some tileF, some tileI, some tileF, some tileF, some tileF, some tileF, some tileF, none] } : Strand).tcnt = 7 ∧
      ({ stA with tiles := #v[some tileF, some tileI, some tileF, some tileF, some tileF, some tileF, some tileF, none] } : Strand).tile 7 = none ∧
      (let v : Anvil := { Anvil.reset with tiles := Vector.replicate 16 (.held 2 none) }
       ∀ j : Fin 16, v.tiles[j] ≠ .free ∧ v.tiles[j] ≠ .reserved stA.node) ∧
      (let v : Anvil := { Anvil.reset with tiles := (Vector.replicate 16 (.held 2 none)).set 3 (.reserved 7) }
       v.tiles[(3 : Fin 16)] = .reserved stA.node)) :=
  ⟨by decide +kernel, by decide +kernel, by decide +kernel⟩

/-- The operation of a Tongs operand, its strand and its reply. -/
def qT (k : Nat) : Op := { q2 (.read false) with asker := .tongs 1 k }
def sTongs (rep : Reply) (k : Nat) : State :=
  { sCmd (.mma { oP with rb := 8 }) false [.waiting, .waiting] with net := [(5, .reply (qT k) rep)], units := [(0, [qT k])] }
/-- TongsReplies: a reply that is no longer awaited, data, STALE, POISON and a park for the first operand of two blocks. -/
theorem witness_TongsReplies :
    (∀ rep ∈ ([.data 7 0x4000 0, .stale, .poison, .report 0 0] : List Reply),
      let s := sTongs rep 0
      let st := stCmd (.mma { oP with rb := 8 }) false [.waiting, .waiting]
      let hs := tongsHandles st (.mma { oP with rb := 8 })
      Maps.get s.net 5 = some (.reply (qT 0) rep) ∧ (qT 0).asker = .tongs 1 0 ∧
        ((Maps.getD s.units (qT 0).unit []).any fun z => z.seq == (qT 0).seq && z.asker == (qT 0).asker) = true ∧
        ((Maps.getD ({ s with units := [] } : State).units (qT 0).unit []).any fun z => z.seq == (qT 0).seq && z.asker == (qT 0).asker) = false ∧
        s.strand 1 = some st ∧ st.wait = .command (.mma { oP with rb := 8 }) false [.waiting, .waiting] none ∧ hs.length = 2 ∧ 0 < hs.length ∧
        (∀ y ∈ [Pin.waiting, Pin.waiting], y.isData = true ∨ y = .waiting)) := by decide +kernel

/-- VectorLaneResults, VectorOtherResults and TileResults: dispatched commands, VRED of integers and of floats, tiles held, a destination with room. -/
theorem witness_VectorLaneResults_VectorOtherResults_TileResults :
    (∀ i ∈ ([.vadd oF, .vfma oF, .vneg oF, .vscl oF, .vsel oF, .vbcastLiteral oF 7, .vzero oF, .vzero { oF with fmt := 0 }, .vcvt oF, .vred oF,
        .vred { oF with fmt := 6, ra := 4 }, .vcmp { oF with imm6 := 5 }, .vperm oF, .vext oF, .vtag oF, .taddr oF, .tzero { oF with imm6 := 1 }, .tld oP,
        .mma oP, .mmas oM, .mmai { oP with fmt := 3, rd := 1 }, .topk oP, .tmaxr oP, .tst oP, .acct oP, .tacq oF] : List Instr),
      (sCmd i true [.data 0]).strand 1 = some (stCmd i true [.data 0]) ∧ (stCmd i true [.data 0]).wait = .command i true [.data 0] none ∧
        (stCmd i true [.data 0]).ended = false ∧ (sCmd i true [.data 0]).fenced (stCmd i true [.data 0]).home = false ∧
        (sCmd i true [.data 0]).inService (coreCluster (stCmd i true [.data 0]).home) = true ∧
        (sCmd i true [.data 0]).fencedAnvil (coreAnvil (stCmd i true [.data 0]).home) = false) ∧
    stA.elem oF = .flt fmtF32 32 ∧ stA.elem { oF with fmt := 6 } = .int true 32 ∧ (stA.tile (low3 oF.rd)).isSome = true ∧
      sA.issuing = some (1, stA) ∧ stA.guardOk oF.gd = true ∧
      (stA.reg oP.ra).toNat % 4096 < 128 ∧ (sCmd (.tst oP) true []).roomFor (unitCore stA.home) (homeOf (.pad 0 0)) 32 = true := by decide +kernel

/-! #### Batches, strands, copies -/

/-- A batch state with two operations at one tracked home, and one with untracked operations. -/
def bsH (h n : Nat) (u : Nat) : BatchSt := { BatchSt.zero with homes := if n = 0 then [] else [(h, n)], untracked := u, next := n }
def trOf (v : BatchSt) : Tracker := { Tracker.zero with b0 := v }
def stB (w : Wait) : Strand := { stW with opens := 1, wait := w }
def sB (w : Wait) (v : BatchSt) : State := { stateOf (stB w) with trackers := [(1, trOf v)] }
/-- BatchesComplete: FENCE with nothing in scope and with a home in scope, BCLOSE of a closed and of an open batch. -/
theorem witness_BatchesComplete_issue :
    (let s := sB .run (bsH 70 2 0)
     s.strand 1 = some (stB .run) ∧ s.cur = some 1 ∧ (stB .run).guardOk b.gd = true ∧ (stB .run).opens.getLsbD 0 = true ∧
       (stB .run).opens.getLsbD 1 = false ∧ (stB .run).opens.getLsbD 2 = false ∧ (stB .run).opens.getLsbD 3 = false ∧
       ((Maps.getD s.trackers 1 Tracker.zero).get 0).untracked = 0 ∧ ((Maps.getD s.trackers 1 Tracker.zero).get 0).homes = [(70, 2)] ∧
       inScope 1 (coreCluster (stB .run).home) 70 = false ∧ inScope 3 (coreCluster (stB .run).home) 70 = true ∧ s.awaits 1 = false ∧
       Maps.wf ((Maps.getD s.trackers 1 Tracker.zero).get 0).homes = true ∧ Maps.wf ((Maps.getD s.trackers 1 Tracker.zero).get 1).homes = true ∧
       Maps.wf ((Maps.getD s.trackers 1 Tracker.zero).get 2).homes = true ∧ Maps.wf ((Maps.getD s.trackers 1 Tracker.zero).get 3).homes = true) := by
  decide +kernel

/-- BatchesComplete: BCLOSE of an open batch that tracks no home, with untracked operations and without. -/
theorem witness_BatchesComplete_homeless :
    ∀ u ∈ [0, 3],
      let s := sB .run (bsH 70 0 u)
      s.strand 1 = some (stB .run) ∧ s.cur = some 1 ∧ (stB .run).guardOk b.gd = true ∧ (stB .run).opens.getLsbD 0 = true ∧ s.awaits 1 = false ∧
        ((Maps.getD s.trackers 1 Tracker.zero).get 0).homes = [] ∧ ((Maps.getD s.trackers 1 Tracker.zero).get 0).untracked = u := by decide +kernel

/-- BatchesComplete: closes for another module: one on its way there, one that has come from it, and a rebroadcast that finds operations missing. -/
theorem witness_BatchesComplete_away :
    (let s : State := { sB .run (bsH 70 2 0) with net := [(5, .close 2049 1 0 (some 2) true 1)] }
     Maps.get s.net 5 = some (.close 2049 1 0 (some 2) true 1) ∧ 2048 ≤ 2049) ∧
    (let s : State := { sB .run (bsH 70 2 0) with
       net := [(5, .closeFor 1 1 0 (some 2) true 1)], sums := [(sumKey (remoteTracker 1 1) 0 70, { Sum.zero with count := 2 })] }
     Maps.get s.net 5 = some (.closeFor 1 1 0 (some 2) true 1) ∧ 2 ≤ (s.untrackedSum (remoteTracker 1 1) 0 []).count) ∧
    (let s : State := { sB (.closing (.bclose b 3 0 false) 0) { bsH 70 0 3 with off := true } with cur := none, modNo := 0, modSet := true, domain := 3 }
     s.strand 1 = some (stB (.closing (.bclose b 3 0 false) 0)) ∧ s.awaits 1 = false ∧
       (s.untrackedSum 1 0 ((Maps.getD s.trackers 1 Tracker.zero).get 0).homes).count < ((Maps.getD s.trackers 1 Tracker.zero).get 0).untracked ∧
       ((Maps.getD s.trackers 1 Tracker.zero).get 0).off = true ∧ s.others = [1] ∧
       Maps.get ((Maps.getD s.trackers 1 Tracker.zero).get 0).homes (2048 + 1) = none) := by decide +kernel

/-- BatchesComplete: a close at a home whose count has just been reached, the last answers of a BCLOSE and of a FENCE, and untracked operations met exactly. -/
theorem witness_BatchesComplete_answers :
    (let s : State := { sB .run (bsH 70 2 0) with net := [(5, .close 70 1 0 (some 2) true 1)], sums := [(sumKey 1 0 70, { Sum.zero with count := 2 })] }
     Maps.get s.net 5 = some (.close 70 1 0 (some 2) true 1) ∧ 2 ≤ (Maps.getD s.sums (sumKey 1 0 70) Sum.zero).count) ∧
    (∀ p ∈ ([(.bclose b 3 0 false, true), (.fence b 3, false)] : List (Instr × Bool)),
      let w : Wait := .closing p.1 0
      let s : State := { sB w (bsH 70 2 0) with cur := none, net := [(5, .closeReply 70 1 0 p.2 { Sum.zero with count := 2 } 1)] }
      s.strand 1 = some (stB w) ∧ (stB w).wait = w ∧ (s.take 5).awaits 1 = false ∧ (Maps.get s.trackers 1).isSome = true ∧
        ((Maps.getD s.trackers 1 Tracker.zero).get 0).untracked = 0 ∧
        Maps.get s.net 5 = some (.closeReply 70 1 0 p.2 { Sum.zero with count := 2 } 1)) ∧
    (∀ i ∈ ([.bclose b 3 0 false, .fence b 3] : List Instr),
      let s : State := { sB (.closing i 0) (bsH 70 0 3) with cur := none, sums := [(sumKey 1 0 70, { Sum.zero with count := 3 })] }
      s.strand 1 = some (stB (.closing i 0)) ∧ s.awaits 1 = false ∧ 0 < ((Maps.getD s.trackers 1 Tracker.zero).get 0).untracked ∧
        ((Maps.getD s.trackers 1 Tracker.zero).get 0).untracked ≤ (s.untrackedSum 1 0 ((Maps.getD s.trackers 1 Tracker.zero).get 0).homes).count) := by
  decide +kernel

/-- ForkJoinEnd: a target at 0 and at the last word, a deque with one place left, a table at XB and at the end of the store, JOIN to a scratchpad, END of a strand of two. -/
theorem witness_ForkJoinEnd :
    (let st : Strand := { stW with tags := st0.tags }
     let s : State := { stateOf st with cores := [(0, { core0 with deque := List.replicate 175 50 })], nodes := [(7, { node7 with live := 2 })] }
     s.strand 1 = some st ∧ (s.node st.node).map (fun nd => nd.live) = some 2 ∧ Maps.wf s.strands = true ∧ s.cur = some 1 ∧
       st.guardOk b.gd = true ∧ (st.reg 0).toNat % 4 = 0 ∧ (st.reg 0).toNat < 2 ^ 32 ∧ (st.reg 2).toNat % 4 = 0 ∧ (st.reg 2).toNat < 2 ^ 32 ∧
       (s.core st.home).deque.length < 176 ∧ 1 ≠ s.fresh + 1 ∧ stW.anch = true ∧ st.anch = false ∧ st.loc = .slot st.home 0 ∧ s.victim st = false ∧
       (st.reg 9).toNat = (s.core st.home).xb.toNat ∧ (st.reg 9).toNat % 8 = 0 ∧ (0x7FC0 : Nat) + 64 ≤ 0x8000 ∧ st.opens = 0 ∧
       s.xlate (coreCluster st.home) true (st.reg 10) 4 = .ok (.pad 0 0) ∧ s.roomFor (unitCore st.home) (homeOf (.pad 0 0)) 1 = true) ∧
    (∀ c ∈ [0#4, 1, 2, 3],
      let st : Strand := { stW with wait := .reply (.join b 10) pad0 pad0 }
      let s : State := { stateOf st with cur := none, net := [(5, .reply (q2 .arrival) (.status c 0))], units := [(0, [q2 .arrival])],
                                         nodes := [(7, { node7 with live := 2 })] }
      s.strand 1 = some st ∧ st.wait = .reply (.join b 10) pad0 pad0 ∧ (q2 .arrival).asker = .strand 1 ∧ st.inSlot = true ∧
        (q2 .arrival).place.onDie (clusterDie (coreCluster st.home)) = true ∧ Maps.get s.net 5 = some (.reply (q2 .arrival) (.status c 0)) ∧
        s.awaited (q2 .arrival) = true) := by decide +kernel

/-- ForkJoinEnd: the last strand of a node with a DONE block in a scratchpad. -/
theorem witness_ForkJoinEnd_done :
    let n : List Byte := List.replicate 8 0 ++ leBytes 8 0x10020 ++ List.replicate 0xB0 0
    let s : State := { sW with graphs := [(5, { nodes := [n], images := [] })], instances := [(9, { inst9 with args := Vector.replicate 8 pad0 })] }
    s.strand 1 = some stW ∧ (s.node stW.node) = some node7 ∧ node7.live = 1 ∧ (s.nodeRec node7).isSome = true ∧ NodeRec.done n ≠ 0 ∧
      (s.placeOf (RangeDesc.handle (NodeRec.done n) (Vector.replicate 8 pad0) 0) 2).isSome = true := by decide +kernel

/-- ForkJoinEnd: the last strand of a node without a DONE block, with a block of a last use and with none, in an instance with this node alone, with another and with a spawned instance; and no room left at the home of a DONE block. -/
theorem witness_ForkJoinEnd_last :
    (∀ p ∈ ([(0, false), (0x10028, true)] : List (Nat × Bool)),
      let n : List Byte := List.replicate 0x40 0 ++ leBytes 8 p.1 ++ List.replicate 0x78 0
      let i := { inst9 with args := Vector.replicate 8 pad0 }
      let s : State := { sW with graphs := [(5, { nodes := [n], images := [] })], instances := [(9, i)] }
      s.strand 1 = some stW ∧ s.node stW.node = some node7 ∧ node7.live = 1 ∧ (s.nodeRec node7).map (fun x => x.1) = some n ∧
        Maps.wf s.nodes = true ∧ Maps.wf s.instances = true ∧ NodeRec.done n = 0 ∧ (NodeRec.lastUses n i.args).isEmpty = !p.2 ∧
        ((NodeRec.lastUses n i.args).all fun h => (s.placeOf h 2).any fun pl => s.roomFor (unitBelfry node7.owner) (homeOf pl) 1) = true ∧
        i.nodes.filter (· != stW.node) = [] ∧ i.spawned = 0 ∧ i.parent = 0 ∧
        ({ i with nodes := [7, 8] } : Instance).nodes.filter (· != stW.node) ≠ [] ∧ ({ i with spawned := 1 } : Instance).spawned ≠ 0) ∧
    ({ sW with units := [(unitBelfry node7.owner, List.replicate 1024 (q2 .arrival))] } : State).roomFor (unitBelfry node7.owner) (homeOf (.pad 0 0)) 1 =
      false := by decide +kernel

/-- A copy word of one row without targets in g1; the operands: destination p2, source p3. -/
def stC : Strand := { stW with regs := stW.regs.set 1 0 |>.set 2 0x100000 |>.set 11 (pad0 + 0x1000) |>.set 12 0x0F80 |>.set 13 (pad0 + 0xF80) }
def oC : XOp := { x with rd := 1, ra := 10, rb := 11, rc := 0 }
def sC : State := { stateOf stC with flash := [(0x12018, 0x1000)], cores := [(0, { core0 with ring := [] })] }
/-- CopyCommandsEnterTheRing: one row, and the last row of its block; the host window ends exactly after the row; a source and a destination here. -/
theorem witness_CopyCommandsEnterTheRing :
    sC.issuing = some (1, stC) ∧ stC.guardOk oC.gd = true ∧ (stC.ea oC 128).h.toNat % 4096 % 128 = 0 ∧ (sC.core stC.home).ring.length < 16 ∧
      (stC.reg 1).toNat / 2 ^ 21 % 8 = 0 ∧ (stC.reg 1).toNat / 2 ^ 32 = 0 ∧ (stC.reg 1).toNat % 2 ^ 16 = 0 ∧ (stC.reg 1).toNat / 2 ^ 24 % 256 = 0 ∧
      (stC.reg 1).toNat / 2 ^ 16 % 32 + 1 = 1 ∧ (stC.reg 2).toNat / 2 ^ 16 % 32 + 1 = 17 ∧
      ((stC.ea { oC with ra := 13 } 128).h.toNat % 4096) / 128 + 1 = 32 ∧ (stC.reg 11).toNat % 8 = 0 ∧ (stC.reg 11).toNat % 4096 = 0 ∧
      sC.xlate 0 true (stC.ea oC 128).h 1 = .ok (.pad 0 0) ∧ sC.xlate 0 true (stC.ea oC 128).h 2 = .ok (.pad 0 0) ∧
      sC.xlate 0 true (stC.reg 11) 1 = .ok (.pad 0 1) ∧ (stC.reg 0).toNat % 8 = 0 ∧
      (stC.reg 12).toNat % 8 = 0 ∧ (Maps.getD sC.flash (0x12000 + 24) 0 : Word) ≠ 0 ∧ (stC.reg 12).toNat + 128 = (Maps.getD sC.flash (0x12000 + 24) 0 : Word).toNat ∧
      (stC.reg 12).toNat + 8 ≤ (Maps.getD sC.flash (0x12000 + 24) 0 : Word).toNat ∧
      ({ stC with regs := stC.regs.set 1 (2 ^ 36) } : Strand).reg 1 = 0x1000000000 := by decide +kernel

/-- A command of one row from one source, with one requester and one destination. -/
def req1 : CopyReq := { tracker := 1, batch := 0, ordinal := 0, node := 7, dests := [(pad0, .pad 0 0, false)], got := Sum.zero }
def cmd1 (posted : Bool) : CopyCmd :=
  { id := 4, core := 1, kind := .rows, hs := pad0 + 0x1000, rows := 1, srcs := [(pad0 + 0x1000, .pad 0 1, none)], dstOff := 0, reqs := [req1],
    asked := [], started := true, posted := posted }
def qC : Op := { q2 (.read false) with asker := .copySource 0 4 0, unit := unitEngine 0, h := pad0 + 0x1000, place := .pad 0 1 }
/-- CopiesAndHostRequests: the command of the next core, its last source, and a proxy request unsent and sent. -/
theorem witness_CopiesAndHostRequests :
    (let s : State := { stateOf st0 with cur := none, cores := [(0, core0), (1, { core0 with ring := [cmd1 false] })] }
     let e := (s.cluster 0).eng
     e.active = [] ∧ (s.core ((0#9) ++ e.ring)).ring = [] ∧ (s.core ((0#9) ++ (e.ring + 1 + BitVec.ofNat 4 0))).ring = cmd1 false :: [] ∧
       (cmd1 false).kind = .rows ∧ (cmd1 false).srcs = [(pad0 + 0x1000, .pad 0 1, none)] ∧ (cmd1 false).reqs = req1 :: [] ∧
       (s.copyFor 0 (pad0 + 0x1000) (.pad 0 1)).isNone = true ∧
       ((clusterCores 0).all fun j => j == 1 || (s.core j).ring.all fun x => !(cmd1 false).merges x) = true) ∧
    (∀ rep ∈ ([.data 7 0x4000 0, .stale, .poison] : List Reply),
      let s : State := { stateOf st0 with
        cur := none, net := [(5, .reply qC rep)], units := [(unitEngine 0, [qC])]
        clusters := [(0, { Cluster.reset with eng := { Cluster.reset.eng with active := [(4, cmd1 false)] } })] }
      Maps.get s.net 5 = some (.reply qC rep) ∧ qC.asker = .copySource 0 (cmd1 false).id 0 ∧
        Maps.get (s.cluster 0).eng.active 4 = some (cmd1 false) ∧ 0 < (cmd1 false).srcs.length ∧ (cmd1 false).posted = false ∧
        ((s.take 5).unack qC.unit qC.seq).roomFor (unitEngine 0) (homeOf (.pad 0 0)) 1 = true ∧ (Maps.get s.trackers 1).isSome = true) ∧
    (∀ sent ∈ [false, true],
      let q : ProxyReq := { id := 4, strand := some 1, cmd := none, ctx := 0, addr := 0x40, op := 2, a := 1, b := 0, bytes := [], sent := sent }
      let q0 : ProxyReq := { q with id := 3, addr := 0x80, strand := none }
      let st : Strand := { stW with wait := .proxy (.hadd oC) }
      let s : State := ({ stateOf st with cur := none } : State).setDie 0 { State.reset.die 0 with proxy := [q0, q] }
      (s.die 0).proxy = [q0] ++ q :: [] ∧ q0.id ≠ q.id ∧ 2 ≤ q.op.toNat ∧ q0.addr.toNat / 64 % 64 ≠ q.addr.toNat / 64 % 64 ∧ q.sent = sent ∧
        q.strand = some 1 ∧ s.strand 1 = some st ∧ st.inSlot = true ∧ st.wait = .proxy (.hadd oC)) :=
  ⟨by decide +kernel, by decide +kernel, by decide +kernel⟩

/-! #### Host requests, sessions, upkeep -/

/-- A little-endian field list. -/
def bytesOf (l : List (Nat × Nat)) : List Byte := l.flatMap fun p => leBytes p.1 p.2
/-- An image of number 2: 512 bytes of code, TRAPBASE 0, one entry at 0. -/
def imageFile : List Byte :=
  bytesOf [(4, 0x4F44494D), (2, 1), (2, 2), (4, 512), (4, 512), (4, 0), (4, 0), (4, 0), (2, 1), (2, 0), (4, 64), (4, 0), (4, 592), (4, 80), (16, 0),
    (8, 0), (8, 0), (512, 0)]
/-- A node of image 2, entry 0, without ranges, and a graph of number 6 with it. -/
def nodeFile : List Byte := bytesOf [(2, 2), (190, 0)]
def graphFile : List Byte := bytesOf [(4, 0x4F444750), (2, 1), (2, 6), (2, 1), (2, 1), (52, 0)] ++ nodeFile ++ bytesOf [(2, 2), (6, 0)]
/-- A session on slot 0 at a phase, with one datagram unacknowledged and sent so many times. -/
def sess (ph : SessPhase) (sent : Nat) : Session :=
  { port := false, slot := 0, phase := ph, openSeq := 0, openBody := [], opened := [], keys := 0, rxNext := 2, rxHeld := [], partOn := false,
    partSeq := 0, partTyp := 0, part := [], partBad := false, txNext := 1, unacked := [(0, 0x8F, false, [], sent)], stored := [] }
/-- A queue pair of port 0 at PSN 5 with a message or none. -/
def pair (l : List HostMsg) : QPair :=
  { port := false, mtu := 1024, hostGid := 0, hostQpn := 9, hostPsn := 5, startPsn := 0, psn := 5, err := false, msgs := l }
/-- A WRITE of two packets and so many units left. -/
def write2 (left applied : Nat) : HostMsg :=
  { id := 3, first := 3, psn := 4, left := left, applied := applied, bad := false, badSeal := false, sealDue := none }
/-- Module 0 with image 2 and graph 6, one extent mapped at VBN 0, a region and a pair. -/
def sHost : State :=
  { sW with
    modNo := 0, images := [(2, imageFile)], graphs := [(6, { nodes := [nodeFile], images := [2] })],
    hbm := [(0, 1), (7, 0x80), (4096, 2), (4103, 0xFC)],
    sessions := [(2, sess .opened 0)], qps := [(4, pair [])], regions := [(3, { first := 512, count := 512, write := true, read := true })] }
/-- A READ of 16 bytes across two blocks that waits for so many. -/
def read1 (left : Nat) : HostMsg := { write2 left 0 with psn := 3, read := some (0xFF8, 16, []) }
/-- A unit of the WRITE has taken effect at its home, and its answer is on its way. -/
def sApplied : State :=
  let o : Op := { kind := .write 0 8 0 false, h := 0x200000, place := .dom 0 1088, unit := unitPort false, seq := 3, asker := .host 4 3, tracker := 0,
                  batch := 0, ordinal := 0, node := 0 }
  { sHost with
    qps := [(4, pair [write2 2 0])], units := [(unitPort false, [o])]
    clusters := [(0, { Cluster.reset with windows := [(unitPort false, { seen := [(3, .status 0 0)], released := false })] })] }
/-- The conditions every request shares. -/
def req (typ : BitVec 8) (body : List Byte) : State := { sHost with keepq := [.uhp 2 1 typ false body] }
/-- HostRequestsSucceed: the request at the head of the Keep's order. -/
theorem witness_HostRequestsSucceed_common :
    (req 0x10 []).starting.isNone = true ∧ (req 0x10 []).keepq = .uhp 2 1 0x10 false [] :: [] ∧ (req 0x10 []).session 2 = some (sess .opened 0) ∧
    (sess .opened 0).phase ≠ .enrolling ∧ (sess .opened 0).phase ≠ .opening := by decide +kernel

/-- HostRequestsSucceed: IMAGE_LOAD, GRAPH_INSTALL and their removal. -/
theorem witness_HostRequestsSucceed_objects :
    (64 ≤ imageFile.length ∧ imageFile.length = recField imageFile 0x28 4 ∧ Image.badFormat imageFile = false ∧ Image.badRange imageFile = false ∧
      (Maps.get ({ sHost with images := [] } : State).images (recField imageFile 6 2)).isNone = true) ∧
    (graphFile.length = 64 + 192 * recField graphFile 8 2 + (2 * recField graphFile 10 2 + 7) / 8 * 8 ∧ recField graphFile 0 4 = 0x4F444750 ∧
      recField graphFile 4 2 = 1 ∧ recField graphFile 6 2 = 6 ∧ recField graphFile 8 2 = 1 ∧ recField graphFile 10 2 = 1 ∧
      ((graphFile.drop 12).take 52).all (· == 0) = true ∧ (graphFile.drop 258).all (· == 0) = true ∧ graphFile.length = 264 ∧
      (graphFile.drop 64).take 192 = nodeFile ∧ NodeRec.badFormat nodeFile [2] = false ∧ NodeRec.badRange nodeFile sHost.images = false ∧
      recField graphFile 256 2 = 2 ∧ (Maps.get sHost.images 2).isSome = true ∧ (Maps.get ({ sHost with graphs := [] } : State).graphs 6).isNone = true) ∧
    (sHost.instances.all fun p => (Maps.get sHost.graphs p.2.graph.toNat).isNone) = true ∧ (Maps.get sHost.graphs 6).isSome = true ∧
      (sHost.instances.all fun p => p.2.graph.toNat != 6) = true ∧ (bytesOf [(2, 2)]).length = 2 ∧ recField (bytesOf [(2, 2)]) 0 2 = 2 := by decide +kernel

/-- HostRequestsSucceed: an image and a graph that just fit in beside the others, and do not in a byte less. -/
theorem witness_HostRequestsSucceed_room :
    let used := fun s : State => (s.images.map fun p => p.2.length).sum +
      (s.graphs.map fun p => 64 + 192 * p.2.nodes.length + (2 * p.2.images.length + 7) / 8 * 8).sum
    let full : State := { sHost with graphs := [], keepSize := imageFile.length + graphFile.length }
    used full + graphFile.length = full.keepSize ∧ used { full with images := [] } + imageFile.length ≤ full.keepSize ∧
      full.keepSize - 1 < used full + graphFile.length ∧ imageFile.length - 1 < used { full with images := [] } + imageFile.length := by decide +kernel

/-- HostRequestsSucceed: BLOCK_MAP of the last extent of the space, of more frames than a stack has and of a spread pair, BLOCK_UNMAP of the first, REGION, QP, and QP_DESTROY of a pair with nothing applied, all applied and part of it. -/
theorem witness_HostRequestsSucceed_maps :
    (let last := bytesOf [(8, 2 ^ 37 - 512), (4, 1), (1, 15), (1, 31)]
     last.length = 14 ∧ recField last 12 1 ≤ 15 ∧ recField last 0 8 % 512 = 0 ∧ recField last 8 4 = 1 ∧
       recField last 0 8 + 512 * recField last 8 4 = 2 ^ 37 ∧ recField last 13 1 = 31 ∧ sHost.stackUp 31 = true ∧
       (sHost.walk (BitVec.ofNat 37 (2 ^ 37 - 512))).isNone = true ∧ sHost.framesFree [(31, 32703)] = true ∧ sHost.framesFree [(31, 32704)] = false ∧
       sHost.mapRoom 31 1 = true) ∧
    (let all := bytesOf [(8, 0), (4, 32705), (1, 15), (1, 31)]
     all.length = 14 ∧ recField all 8 4 ≤ 65536 ∧ recField all 0 8 + 512 * recField all 8 4 ≤ 2 ^ 37 ∧ sHost.mapRoom 31 32705 = false) ∧
    (sHost.mapRoom 255 2 = true ∧ spreadOk sHost.stacksUp.length [0, 1] = true ∧ sHost.framesFree [(0, 2000), (1, 2000)] = true ∧ (sHost.walk 512).isNone = true ∧ (sHost.walk 1024).isNone = true) ∧
    ((sHost.extentFrame 0).isSome = true ∧ (sHost.instances.all fun p => (sHost.named p.2).isEmpty) = true ∧
      (sHost.regions.all fun p => decide (0 + 512 * 1 ≤ p.2.first)) = true) ∧
    ((Maps.get sHost.regions 4).isNone = true ∧ (2 ^ 37 - 1 : Nat) + 1 ≤ 2 ^ 37 ∧ (Maps.get sHost.qps 5).isNone = true ∧
      (sHost.qps.filter fun p => p.2.port == false).length < 1024 ∧ (Maps.get sHost.qps 4).map (fun g => g.msgs) = some [] ∧
      (write2 2 0).applied = 0 ∧ (write2 0 2).left = 0 ∧ (write2 0 2).sealDue = none ∧ 0 < (write2 1 1).applied ∧ 0 < (write2 1 1).left ∧
      (read1 1).read.isSome = true ∧ sHost.hostOutcomes (pair [write2 2 0]) 4 (write2 2 0) = [] ∧
      sApplied.hostOutcomes (pair [write2 2 0]) 4 (write2 2 0) = [.status 0 0]) := by decide +kernel

/-- HostRequestsSucceed: with no tables no VBN has a translation, so a map of any size may be asked for. -/
theorem witness_HostRequestsSucceed_unmapped (v : BitVec 37) : ({ sHost with hbm := [] } : State).walk v = none := by
  have z : ∀ k a, Mem.num [] a k = 0 := by
    intro k
    induction k with
    | zero => exact fun _ => rfl
    | succ n ih => intro a; have := ih (a + 1); simp_all [Mem.num, Mem.bytes, leNat, Mem.byte, Maps.getD, Maps.get]
  simp [State.walk, State.hbmWord, z, Pte.valid]

/-- HostRequestsSucceed: RUN, QUENCH of a live and of no instance, LATENCY, QUERY and register writes at the ends of their ranges, a plan of one module. -/
theorem witness_HostRequestsSucceed_runs :
    (let body := bytesOf [(2, 6), (2, 0), (4, 0), (8, 0xC0)] ++ (List.replicate 8 (leBytes 8 nullHandle.toNat)).flatten
     body.length = 80 ∧ sHost.runStatus (recField body 2 2 != 0) (recField body 0 2) (Vector.replicate 8 nullHandle) = 0 ∧
       (Maps.get sHost.graphs (recField body 0 2)).map (fun g => g.nodes.length) = some 1 ∧ sHost.numbersFree 10 [20] 1 = true) ∧
    ((Maps.get sHost.instances 9).isSome = true ∧ (Maps.get sHost.instances 10).isNone = true) ∧
    ((bytesOf [(1, 0xFE), (3, 0), (4, 20000)]).length = 8 ∧ recField (bytesOf [(1, 7), (3, 0), (4, 19999)]) 0 1 = (7#3).toNat) ∧
    ((sHost.regRead 0).isSome = true ∧ (0x10FFF8 : Nat) % 8 = 0 ∧ (511#64).toNat < 512 ∧ (1#64).toNat < 16 ∧ (1#64).toNat ≠ sHost.plan.toNat ∧
      (sHost.takePlan 1).planOk 1 = true) ∧
    (0x7F#8).toNat ∉ ([0x04, 0x10, 0x11, 0x12, 0x13, 0x20, 0x21, 0x22, 0x23, 0x24, 0x30, 0x31, 0x32, 0x33, 0x34] : List Nat) := by decide +kernel

/-- HostSessionsAndRdma: OPEN as it comes and as the sixteenth session at its turn, CONFIRM with empty key slots and with a stored key, a datagram in turn and one under another key, retransmission at and past 16. -/
theorem witness_HostSessionsAndRdma_sessions :
    sHost.boot.stage = 7 ∧
      (let s : State := { sHost with sessions := (List.range 15).map fun k => (k + 1, sess .opened 0), keepq := [.openReq false 1 (List.replicate 1601 3)] }
       (99#32 ≠ 0) ∧ (99#32).toNat ∉ s.sessUsed ∧ s.sessions.length = 15 ∧ (List.replicate 1601 (3 : Byte)).length = 1601 ∧ s.starting = none ∧
         s.keepq = .openReq false 1 (List.replicate 1601 3) :: [] ∧ recField (List.replicate 1601 3) 32 1 ≤ 3 ∧ .openReq false 1 [] ∉ s.keepq) ∧
      (let d : Datagram := { ver := 1, typ := 0x33, a := false, m := false, session := 2, seq := 2, ack := 0, body := [], under := some 2 }
       d.ver = 1 ∧ d.session = 2 ∧ d.typ ≠ 3 ∧ d.under = some 2 ∧ ({ d with under := none } : Datagram).under ≠ some 2 ∧ d.seq = (sess .opened 0).rxNext ∧
         d.body.length ≤ 8192) ∧
      (let d : Datagram := { ver := 1, typ := 0x8F, a := true, m := false, session := 2, seq := 9, ack := 4, body := [], under := some 2 }
       d.ver = 1 ∧ d.session = 2 ∧ d.typ = 0x8F ∧ d.a = true ∧ d.under = some 2) ∧
      (let s : State := { sHost with keepq := [.uhp 2 1 3 false []], sessions := [(2, sess .opening 0)] }
       s.keepq = .uhp 2 1 3 false [] :: [] ∧ (Maps.get s.sessions 2).map Session.phase = some .opening) ∧
      ((List.range 4).all fun k => (sHost.hostKey k).all fun w => w == 0) = true ∧ sHost.enrolLock = false ∧ (sess .opening 0).slot = 0 ∧
      ((({ sHost with flash := [(0x1038, 1)] } : State).hostKey 0).all fun w => w == 0) = false ∧
      ((sess .opened 16).unacked.find? fun q => q.1 == 0).map (fun q => q.2.2.2.2) = some 16 ∧
      ((sess .opened 17).unacked.find? fun q => q.1 == 0).map (fun q => q.2.2.2.2) = some 17 ∧
      KeepReq.uhp 2 1 3 false [] ∈ ({ sHost with keepq := [.uhp 2 1 3 false []] } : State).keepq ∧ sHost.keepq = [] ∧
      (sess .opened 0).phase ≠ .opening ∧ (sess .opened 0).partOn = false ∧ (sess .opened 0).rxHeld.isEmpty = true ∧ (sess .opened 0).rxNext = 2 := by
  decide +kernel

/-- A packet for pair 4 in turn, at VBN 512, key 3. -/
def pkt : Packet := { qpn := 4, psn := 5, port := false, va := 0x200FF8, rkey := 3 }
/-- The tables lead VBN 512 to frame 2 of stack 0. -/
def sRdma : State := { sHost with hbm := [(0, 1), (7, 0x80), (4104, 2), (4111, 0xFC)] }
/-- HostSessionsAndRdma: a pair in turn, one that has been passed and one ahead, a WRITE of the last unit of a block and of a block's end and the next block's start, READs of two blocks, of none and of a block without a translation, an acknowledged message, an unknown pair. -/
theorem witness_HostSessionsAndRdma_rdma :
    let s := sRdma
    let room := fun (h : Word) (n : Nat) => (s.placeOf h 0).any fun pl => s.roomFor (unitPort pkt.port) (homeOf pl) n
    (s.pairOf pkt).map (fun q => (q.err, q.psn)) = some (false, 5) ∧ (s.pairOf { pkt with qpn := 5 }).isNone = true ∧ pkt.psn = 5 ∧
      2 ^ 23 ≤ ((4 : BitVec 24) - 5).toNat ∧ (0 < ((6 : BitVec 24) - 5).toNat ∧ ((6 : BitVec 24) - 5).toNat < 2 ^ 23) ∧
      ((4 : BitVec 24) - (write2 1 1).first).toNat < 2 ^ 23 ∧ ¬((2 : BitVec 24) - (write2 1 1).first).toNat < 2 ^ 23 ∧
      s.regionOk pkt 8 false true = true ∧ s.regionOk pkt 16 true true = true ∧ pkt.va.toNat % 8 = 0 ∧
      room pkt.va 1 = true ∧ (room pkt.va 2 = true ∧ room (padd49 pkt.va 8) 2 = true) ∧
      s.regionOk { pkt with va := 0x3FFFF8 } 8 false false = true ∧ (s.regionOk { pkt with va := 0x3FFFF8 } 16 false false = false) ∧
      s.regionOk pkt 16 false false = true ∧ (touched pkt.va 16 false).2 = 2 ∧ (room 0x200000 2 = true ∧ room 0x201000 2 = true) ∧
      s.regionOk pkt 0 false false = true ∧ (touched pkt.va 0 false).2 = 0 ∧ (touched pkt.va 8 false).2 = 1 ∧
      sHost.regionOk pkt 8 false false = true ∧ (sHost.placeOf (pkt.va &&& ~~~0xFFF#64) 0).isNone = true ∧
      (write2 0 2).left = 0 ∧ (write2 0 2).sealDue = none ∧ (write2 0 2).bad = false ∧ (write2 0 2).badSeal = false ∧ (write2 0 2).read = none ∧
      (write2 0 2).todo = [] := by
  decide +kernel
/-- HostSessionsAndRdma: the last of the blocks of a READ arrives. -/
theorem witness_HostSessionsAndRdma_read :
    let o : Op := { kind := .read false, h := 0x201000, place := .dom 0 1088, unit := unitPort false, seq := 3, asker := .host 4 3, tracker := 0,
                    batch := 0, ordinal := 0, node := 0 }
    let m : HostMsg := { read1 1 with read := some (0xFF8, 16, [(0x200, 0)]) }
    let s : State := { sRdma with qps := [(4, pair [m])], units := [(unitPort false, [o])], net := [(5, .reply o (.data 0 0x4000 0))] }
    Maps.get s.net 5 = some (.reply o (.data 0 0x4000 0)) ∧ o.asker = .host pkt.qpn m.id ∧ (∃ z ∈ Maps.getD s.units o.unit [], z.seq = o.seq) ∧
      s.qps = [(pkt.qpn.toNat, pair [m])] ∧ (pair [m]).msgs = [m] ∧ m.todo = [] ∧ m.bad = false ∧ m.left = 1 ∧
      m.read = some (0xFF8, 16, [(0x200, 0)]) ∧ s.pairOf pkt = some (pair [m]) ∧ (pair [m]).err = false := by decide +kernel

/-- HomesAndUnitsUpkeep: a fill with room, whose lines read or not, a window that may go and one that may not, an unacknowledged operation here and away, its report. -/
theorem witness_HomesAndUnitsUpkeep_homes :
    (let s : State := { sHost with clusters := [(0, { Cluster.reset with fills := [(1088, [5])], windows := [(0, { seen := [], released := true })] })] }
     Maps.get (s.cluster 0).fills 1088 = some [5] ∧ (s.cluster 0).res.length + (s.cluster 0).copies.length < (s.cluster 0).capacity ∧
       (s.resident 0 1088).stubs.length ≤ (s.cluster 0).stubRoom ∧ (s.cluster 0).prefs = [] ∧ (Maps.get (s.cluster 0).logs 1088).isNone = true ∧
       s.unreadable 0 1088 = false ∧ (s.hbmState 1088).poisoned = false ∧ Maps.get (s.cluster 0).windows 0 = some { seen := [], released := true } ∧
       (0 < 16384) ∧ (Maps.getD s.units 0 []).isEmpty = true ∧ s.net = []) ∧
    (let s : State := { sHost with
       clusters := [(0, { Cluster.reset with fills := [(1088, [])] })], hbmMeta := [(64 * 1088, 0x4000)], badLines := [64 * 1088 + 63] }
     s.unreadable 0 1088 = true ∧ (s.hbmState 1088).poisoned = false) ∧
    (let s : State := { sHost with
       clusters := [(0, { Cluster.reset with fills := [(1088, [])], prefs := [(1088, 0x40000, none, 3)] })], hbmMeta := [(64 * 1088, 0x4000)] }
     Maps.get (s.cluster 0).fills 1088 = some [] ∧ (s.cluster 0).prefs = [(1088, 0x40000, none, 3)] ∧ (3#9 : BitVec 9) ≠ 0 ∧ s.unreadable 0 1088 = false ∧
       (s.resident 0 1088).st = 1 ∧ (s.resident 0 1088).gen.toNat = (0x40000 : Nat) / 2 ^ 52 ∧ (s.resident 0 1088).poisoned = false ∧ s.inService 3 = true ∧
       (s.cluster 3).res.length + (s.cluster 3).copies.length < (s.cluster 3).capacity) ∧
    (let o : Op := { q2 (.seal false) with place := .dom 0 1088 }
     let s : State := { sHost with net := [(5, .op o)] }
     Maps.get s.net 5 = some (.op o) ∧ o.unit = 0 ∧ homeOf o.place = (0#9).toNat) := by decide +kernel

/-- HomesAndUnitsUpkeep: an operation not acknowledged, here and on another module. -/
theorem witness_HomesAndUnitsUpkeep_units :
    (∀ p ∈ [Place.pad 0 0, Place.off 1],
      let o : Op := { q2 (.seal false) with asker := .batch, place := p }
      let s : State := { sHost with units := [(0, [o])], net := [(5, .reply o (.report 1 14))] }
      (Maps.getD s.units 0 []).find? (fun o => o.seq.toNat == 3) = some o ∧ Maps.get s.net 5 = some (.reply o (.report 1 14)) ∧ o.asker = .batch ∧
        ((Maps.getD s.units o.unit []).any fun q => q.seq == o.seq) = true ∧
        ((Maps.getD ({ s with units := [] } : State).units o.unit []).any fun q => q.seq == o.seq) = false) := by decide +kernel

/-- A strand that waits for a walk of VBN 0x40. -/
def stWalk : Strand := { stW with wait := .walk 0x40000 3 }
/-- HomesAndUnitsUpkeep: a walk that finds a leaf and one that finds none, and the walk of a hint. -/
theorem witness_HomesAndUnitsUpkeep_walk :
    (let s : State := { sHost with strands := [(1, stWalk)], cur := none }
     s.strand 1 = some stWalk ∧ stWalk.wait = .walk 0x40000 3 ∧ s.walk (BitVec.ofNat 37 (0x40000 / 4096)) = some (0xFC00000000000002, false) ∧
       ({ stW with wait := .walk 0x40000 0 } : Strand).wait = .walk 0x40000 0 ∧ ¬Pte.perm 0xF800000000000002 &&& 3 = 3 ∧ Pte.perm 0xFC00000000000002 &&& 3 = 3 ∧
       s.inDomain (Pte.module 0xFC00000000000002) = true ∧ (s.walk (BitVec.ofNat 37 512)).isNone = true) := by decide +kernel

/-- A strand on the fault queue of die 0 with a handle. -/
def stQ (h : Word) : Strand := { stW with wait := .fault h (.perm 1), loc := .faultq 0 }
def sQ (h : Word) : State := ({ sHost with strands := [(1, stQ h)], cur := none } : State).setDie 0 { State.reset.die 0 with faultq := [1] }
/-- Does a strand on the fault queue find its permission? -/
def met (s : State) (h : Word) : Bool := match s.xlate 0 false h 1 with | .ok _ => true | .migrate _ => true | _ => false
/-- HomesAndUnitsUpkeep: the oldest record of the fault queue with its need met and not met. -/
theorem witness_HomesAndUnitsUpkeep_faults :
    (sQ 0x40000).strand 1 = some (stQ 0x40000) ∧ ((sQ 0x40000).die 0).faultq = [1] ∧ (sQ 0x40000).victim (stQ 0x40000) = false ∧
      (stQ 0x40000).inSlot = false ∧ (stQ 0x40000).clusterOf = 0 ∧ met (sQ 0x40000) 0x40000 = true ∧
      ({ stQ 0x40000 with loc := .slot 0 0 } : Strand).inSlot = true ∧ (sQ 0x200000).strand 1 = some (stQ 0x200000) ∧ ((sQ 0x200000).die 0).faultq = [1] ∧ met (sQ 0x200000) 0x200000 = false := by decide +kernel

/-! #### Nodes, records, quenches, the Keep's services -/

/-- A node of image 2 with one watched last-use input block and a DONE block, both under argument 0, and priority 2. -/
def nodeLu : List Byte := bytesOf [(2, 2), (2, 0), (4, 2), (8, 0x10020), (48, 0), (8, 0x10028), (120, 0)]
/-- Node 7 of instance 9 of a graph with that node, its argument a scratchpad slot; its image stands in every core. -/
def sNode (st : Stage) (missing : Nat) : State :=
  { sHost with
    modNo := 255, graphs := [(6, { nodes := [nodeLu], images := [2] })], nodes := [(7, { node7 with stage := st, missing := missing })]
    instances := [(9, { inst9 with graph := 6, args := Vector.replicate 8 pad0, nodes := [7, 8] })], cores := [(0, { core0 with image := 2 })], cur := none }
/-- The same with node 7 in a ready queue of die 0. -/
def sReady : State := (sNode .ready 0).setDie 0 { State.reset.die 0 with ready := State.reset.die 0 |>.ready.set 2 [7] }

/-- NodeInstancesAdvance: a fire with three, two and one inputs missing, and the round that dispatches a ready node instance. -/
theorem witness_NodeInstancesAdvance_ready :
    (∀ k ∈ [3, 2, 1],
      let s : State := { sNode .waiting k with net := [(5, .fire 0 7)] }
      Maps.get s.net 5 = some (.fire 0 7) ∧ s.node 7 = some { node7 with stage := .waiting, missing := k } ∧
        (s.nodeRec { node7 with stage := .waiting, missing := k }).isSome = true) ∧
    ((sReady.die 0).alive = true ∧ sReady.examined (sReady.die 0) 4 = [] ++ 7 :: [] ∧ (sReady.choice 0 7).map (fun x => x.2.2) = some 0 ∧
      sReady.node 7 = some { node7 with stage := .ready, missing := 0 } ∧ sReady.starting.isNone = true ∧
      (∀ p ∈ sReady.nodes, p.2.stage ≠ .sealDue ∧ p.2.stage = .ready)) := by decide +kernel
/-- NodeInstancesAdvance: the round that sends a seal for which there is room now, and a discard that finds none. -/
theorem witness_NodeInstancesAdvance_due :
    (let nd := { node7 with stage := .sealDue, missing := 0 }
     let s := sNode .sealDue 0
     (s.die 0).alive = true ∧ s.starting.isNone = true ∧ s.nodes = [((7 : BitVec 32).toNat, nd)] ∧ nd.owner = 0 ∧
       (s.nodeRec nd).map (fun x => x.1) = some nodeLu ∧ NodeRec.done nodeLu ≠ 0 ∧
       s.placeOf (RangeDesc.handle (NodeRec.done nodeLu) (Vector.replicate 8 pad0) 0) 2 = some (.pad 0 0) ∧
       s.roomFor (unitBelfry 0) (homeOf (.pad 0 0)) 1 = true ∧ ∀ k : Fin 4, (s.die 0).ready[k] = []) ∧
    ({ sNode .doneSeal 0 with units := [(unitBelfry 0, List.replicate 1024 (q2 .arrival))] } : State).roomFor (unitBelfry 0) (homeOf (.pad 0 0)) 1 = false := by
  decide +kernel

/-- NodeInstancesAdvance: a ready entry that only another die can take. -/
theorem witness_NodeInstancesAdvance_handover :
    let s : State := { sReady with badClusters := List.range 64 }
    s.node 7 = some { node7 with stage := .ready, missing := 0 } ∧ node7.owner = 0 ∧ (1 : BitVec 3) ≠ 0 ∧ (s.die 1).alive = true ∧ (s.choice 0 7).isNone = true ∧
      (s.choice 1 7).isSome = true ∧ (s.nodeRec { node7 with stage := .ready, missing := 0 }).isSome = true := by decide +kernel

/-- NodeInstancesAdvance: a SPAWN that is served and one of a graph that is not installed. -/
theorem witness_NodeInstancesAdvance_spawn :
    (let s : State := { sNode .running 0 with keepq := [.spawn 1 6 (List.replicate 8 pad0)] }
     s.starting.isNone = true ∧ s.runStatus false 6 (Vector.replicate 8 pad0) = 0 ∧ (Maps.get s.graphs 6).isSome = true ∧
       s.numbersFree 10 [20] 1 = true ∧ (s.ownInstance 1).map Prod.fst = some 9) ∧
    (let st : Strand := { stW with wait := .keep (.spawn b 3 1 9) }
     let s : State := { sNode .running 0 with keepq := [.spawn 1 5 (List.replicate 8 pad0)], strands := [(1, st)] }
     s.runStatus false 5 (Vector.replicate 8 pad0) ≠ 0 ∧ s.runStatus false 5 (Vector.replicate 8 pad0) < 16 ∧ s.strand 1 = some st ∧
       st.inSlot = true ∧ st.wait = .keep (.spawn b 3 1 9)) := by decide +kernel

/-- The operations of a retiring node instance. -/
def qDone (a : Asker) : Op := { q2 (.seal false) with asker := a, unit := unitBelfry 0 }
/-- NodeInstancesAdvance: the outcome of the DONE seal, applied, STALE and XLATE, and the status of the only discard. -/
theorem witness_NodeInstancesAdvance_retire :
    (∀ bits ∈ [0#16, 2#16, 16#16],
      let s : State := { sNode .doneSeal 0 with net := [(5, .reply (qDone (.belfryDone 7)) (.report bits 8))] }
      s.node 7 = some { node7 with stage := .doneSeal } ∧ (s.nodeRec { node7 with stage := .doneSeal }).isSome = true ∧ Maps.wf s.nodes = true ∧
        Maps.get s.net 5 = some (.reply (qDone (.belfryDone 7)) (.report bits 8)) ∧ (qDone (.belfryDone 7)).asker = .belfryDone 7 ∧
        ((bits &&& 0x1A = 0) = (bits = 0)) ∧ bits.getLsbD 0 = false ∧ bits.getLsbD 2 = false) ∧
    ((sNode .doneSeal 0).placeOf (RangeDesc.handle (NodeRec.inp nodeLu 0) (Vector.replicate 8 pad0) 0) 2 = some (.pad 0 0) ∧
      ((NodeRec.inputs nodeLu).filter RangeDesc.lastUse).map RangeDesc.count = [1]) ∧
    (let s : State := { sNode (.discards 1) 0 with net := [(5, .reply (qDone (.belfryLu 7)) (.status 1 0))] }
     s.node 7 = some { node7 with stage := .discards 1 } ∧ Maps.get s.net 5 = some (.reply (qDone (.belfryLu 7)) (.status 1 0)) ∧
       [7#32, 8].filter (· != 7) ≠ []) := by
  refine ⟨?_, by decide +kernel, by decide +kernel⟩
  intro bits h
  simp only [List.mem_cons, List.not_mem_nil, or_false] at h
  obtain rfl | rfl | rfl := h <;>
    exact ⟨by decide +kernel, by decide +kernel, by decide +kernel, by decide +kernel, by decide +kernel, by simp, by decide, by decide⟩

/-- A record of strand 1 at a place, of image 2, unbound. -/
def stR (l : Loc) : Strand := { stW with loc := l, image := 2, bound := false, steal := 4 }
def sR (l : Loc) : State := { sNode .running 0 with strands := [(1, stR l)], cores := [(0, { core0 with image := 2, slots := Core.reset.slots })] }
/-- RecordsTakeSlots: an arriving and a migrating record with room, at the head of those that wait, behind another and without room, a queued one that a core takes, and one for which a core has to switch. -/
theorem witness_RecordsTakeSlots_dispatcher :
    (∀ l ∈ [Loc.arriving 0, .migrating 0 64], (sR l).strand 1 = some (stR l) ∧ (stR l).loc = l ∧ (sR l).victim (stR l) = false ∧
      ((sR l).cluster 0).waiting = [] ∧ (sR l).queueRoom 0 1 = true) ∧
    ({ sR (.arriving 0) with instances := [(9, { inst9 with quenched := true })] } : State).victim (stR (.arriving 0)) = true ∧
    ({ Cluster.reset with waiting := [1] } : Cluster).waiting.head? = some 1 ∧
    (let c : Cluster := { Cluster.reset with waiting := [2] }
     c.waiting ≠ [] ∧ c.waiting.head? ≠ some 1 ∧ 1 ∉ c.waiting) ∧
    ({ sR (.arriving 0) with clusters := [(0, { Cluster.reset with queue := List.replicate 1000 1 })] } : State).queueRoom 0 1 = false ∧
    (let s : State := { sR (.queue 0) with clusters := [(0, { Cluster.reset with queue := [1] })] }
     s.inService 0 = true ∧ (s.pick 0).map (fun x => (x.1, x.2.2)) = some (1, 0)) ∧
    (let s : State := { sR (.queue 0) with clusters := [(0, { Cluster.reset with queue := [1] })], cores := [] }
     s.inService 0 = true ∧ (s.pick 0).isNone = true ∧ (s.switchFor 0).map Prod.fst = some 2) := by decide +kernel

/-- Core 0 without a strand, and a core with one in its deque. -/
def sSteal (v : BitVec 13) : State :=
  let c : Core := { core0 with image := 2, slots := Core.reset.slots }
  { sR (.deque v) with cores := [(0, c), (v.toNat, { c with deque := [1] })] }
/-- RecordsTakeSlots: the bottom record of a deque, records stolen from the same quad and from another cluster, and the end of an image switch. -/
theorem witness_RecordsTakeSlots_cores :
    (let s : State := { sR (.deque 0) with cores := [(0, { core0 with image := 2, slots := Core.reset.slots, deque := [1] })] }
     (s.core 0 |>.slots[(0 : Fin 8)] |>.isNone) = true ∧ s.canIssue 0 = true ∧ (s.core 0).deque = 1 :: [] ∧ s.strand 1 = some (stR (.deque 0)) ∧
       s.usedWords 0 + (stR (.deque 0)).words ≤ 2048 ∧ s.victim (stR (.deque 0)) = false) ∧
    (∀ v ∈ [1#13, 16#13],
      let s := sSteal v
      (s.poppable 0).isNone = true ∧ s.served_ (coreCluster 0) = [] ∧ s.canIssue 0 = true ∧ Maps.wf s.cores = true ∧ (∀ p ∈ s.cores, p.1 < 8192) ∧ (s.stealable 0 v).isSome = true ∧
        distance 0 v = (if v = 1 then 1 else 3) ∧ (s.core 0).victims[(0 : Fin 4)] < v ∧ (s.core 0).victims[(2 : Fin 4)] < v) ∧
    (let s : State := { sHost with cores := [(0, { Core.reset with switching := some 2 })] }
     (s.core 0).switching = some 2 ∧ (Maps.get s.images 2).isSome = true ∧ recField imageFile 8 4 ≤ recField imageFile 12 4 ∧
       recField imageFile 0x2C 4 + recField imageFile 8 4 + recField imageFile 16 4 = imageFile.length) :=
  ⟨by decide +kernel, by decide +kernel, by decide +kernel⟩
/-- RecordsTakeSlots: in those states only that core has a record to steal, so none stands nearer and none comes between. -/
theorem witness_RecordsTakeSlots_victims (v w : BitVec 13) (h : ((sSteal v).stealable 0 w).isSome = true) : w = v := by
  by_contra n
  have d : ((sSteal v).core w).deque = [] := by
    have x : ¬v.toNat = w.toNat := fun e => n (BitVec.eq_of_toNat_eq e.symm)
    by_cases z : (0 : Nat) = w.toNat <;> simp [sSteal, State.core, Maps.getD, Maps.get, z, x, core0, Core.reset]
  simp [State.stealable, d] at h

/-- An instance of priority 2 with a ready node that no cluster can take, beside a running one of priority 0 with strand 1. -/
def sStarve : State :=
  { sReady with
    graphs := [(5, { nodes := [nodeFile], images := [2] }), (6, { nodes := [nodeLu], images := [2] })], badClusters := List.range 512
    instances := [(9, { inst9 with graph := 6, args := Vector.replicate 8 pad0, nodes := [7] }), (11, { inst9 with nodes := [8], slice := 100 })]
    nodes := [(7, { node7 with stage := .ready }), (8, { node7 with inst := 11 })], strands := [(1, { stW with node := 8 })] }
/-- QuenchSavesAndResumes: a waiting node of higher priority, and the end of the slice of the instance it waits for. -/
theorem witness_QuenchSavesAndResumes_begin :
    sStarve.node 7 = some { node7 with stage := .ready } ∧ sStarve.quench = none ∧ sStarve.starved 7 = true ∧
      sStarve.lowestBelow (sStarve.nodePrio 7) 9 = some 11 ∧ (sStarve.inst 11).map (fun i => (i.slice, i.quenched)) = some (100, false) ∧
      sStarve.starving = [7] := by decide +kernel

/-- The quench of instance 11, its strand in a slot or saved. -/
def sQuench (saved : Bool) : State :=
  { sStarve with
    quench := some { victims := [11], saved := saved, waits := [7] }
    nodes := [(7, { node7 with stage := if saved then .running else .ready }), (8, { node7 with inst := 11 })]
    instances := [(9, { inst9 with graph := 6, args := Vector.replicate 8 pad0, nodes := [7] }), (11, { inst9 with nodes := [8], quenched := true })]
    strands := [(1, { stW with node := 8, loc := if saved then .saved 0 0 else .slot 0 0 })] }
/-- QuenchSavesAndResumes: a victim whose record is in flight, between dispatchers and between clusters; a victim that a self-test has moved aside, and the end of that test. -/
theorem witness_QuenchSavesAndResumes_waits :
    (∀ l ∈ [Loc.arriving 0, .migrating 1 0],
      let st : Strand := { stW with node := 8, loc := l }
      let s : State := { sQuench false with strands := [(1, st)] }
      (1, st) ∈ s.strands ∧ s.victim st = true ∧ ∃ c, st.loc = .arriving c ∨ ∃ k, st.loc = .migrating c k) ∧
    ((sQuench false).strands.all fun p => match p.2.loc with | .arriving _ => false | .migrating _ _ => false | _ => true) = true ∧
    (let u : UnitId := { unit := 4, die := 0, cluster := 3, index := 0 }
     let s : State := { sQuench true with tests := [{ unit := u, record := 0, second := false, moved := [11] }] }
     (∃ x ∈ s.tests, 11 ∈ x.moved) ∧ s.quench = some { victims := [11], saved := true, waits := [7] }) ∧
    (sQuench true).tests = [] := by
  refine ⟨?_, by decide +kernel, ⟨⟨_, List.mem_singleton.2 rfl, by decide⟩, by decide +kernel⟩, by decide +kernel⟩
  intro l h
  simp only [List.mem_cons, List.not_mem_nil, or_false] at h
  obtain rfl | rfl := h
  · exact ⟨by decide +kernel, by decide +kernel, 0, .inl rfl⟩
  · exact ⟨by decide +kernel, by decide +kernel, 1, .inr ⟨0, rfl⟩⟩
/-- QuenchSavesAndResumes: a quench whose victims stand at a boundary, and one whose work has left. -/
theorem witness_QuenchSavesAndResumes_end :
    ((sQuench false).quench = some { victims := [11], saved := false, waits := [7] } ∧
      ((sQuench false).strands.all fun p => !((sQuench false).victim p.2 && p.2.inSlot) || p.2.wait == .run) = true ∧
      Maps.wf (sQuench false).strands = true ∧ (sQuench false).victim { stW with node := 8, loc := .slot 0 0 } = true ∧
      ({ stW with node := 8, loc := .slot 0 0 } : Strand).savable = true ∧ ({ stW with node := 8, loc := .held 0 } : Strand).savable = false) ∧
    ((sQuench true).quench = some { victims := [11], saved := true, waits := [7] } ∧ ((sQuench true).inst 11).isSome = true ∧
      least (fun n => 3 - ((sQuench true).inst n).elim 0 (sQuench true).instPrio) [11#32] = some 11 ∧ (sQuench true).starving = [] ∧
      ((sQuench true).node 7).map (fun nd => nd.stage) = some .running ∧ ((sQuench true).node 8).map (fun nd => nd.stage) ≠ some .ready ∧
      (sQuench true).strand 1 = some { stW with node := 8, loc := .saved 0 0 }) := by decide +kernel

/-- A privileged strand with a legal leaf for VBN 1024, a mapped VBN, one under no level-2 table, one that is misaligned. -/
def stM : Strand := { stK with regs := stK.regs.set 0 0 |>.set 1 1024 |>.set 2 0x40000 |>.set 3 513 |>.set 4 0xC000000000000003 |>.set 5 0xC000000000008000 }
def sM : State := { sHost with strands := [(1, stM)] }
/-- PrivilegedObjects: MAPB of a leaf that is installed, of a mapped extent, of one without a level-2 table and of illegal operands. -/
theorem witness_PrivilegedObjects_mapb :
    sM.issuing = some (1, stM) ∧ stM.guardOk b.gd = true ∧ stM.image = 0xFFFF ∧ Memory.wf sM.hbm = true ∧
      (let e := stM.reg 4
       e.toNat % 2 ^ 24 < 32704 ∧ e.getLsbD 63 = true ∧ e.getLsbD 62 = true ∧ e.toNat / 2 ^ 24 % 2 ^ 21 = 0 ∧ e.toNat % 2 ^ 24 < 32768 ∧ e.toNat / 2 ^ 50 % 256 = sM.modNo.toNat) ∧
      (∀ k ∈ [0#4, 1, 2], (stM.reg k).toNat % 512 = 0 ∧ (stM.reg k).toNat < 2 ^ 37) ∧ (stM.reg 3).toNat % 512 ≠ 0 ∧ ¬(stM.reg 5).toNat % 2 ^ 24 < 32768 ∧
      (sM.walk (BitVec.ofNat 37 (stM.reg 0).toNat)).isSome = true ∧ (sM.walk (BitVec.ofNat 37 (stM.reg 1).toNat)).isNone = true ∧
      (sM.l2Addr (BitVec.ofNat 37 (stM.reg 1).toNat)).isSome = true ∧ (sM.walk (BitVec.ofNat 37 (stM.reg 2).toNat)).isNone = true ∧
      (sM.l2Addr (BitVec.ofNat 37 (stM.reg 2).toNat)).isNone = true := by decide +kernel

/-- A victim strand of cluster 0 in slot 1 of core 0, beside the privileged strand of node 7. -/
def stV (w : Wait) : Strand := { st0 with node := 8, loc := .slot 0 1, wait := w, win := 0, image := 2 }
def sV (w : Wait) : State :=
  { sQuench false with
    cur := some 1, badClusters := [], strands := [(1, stK), (2, stV w)], cores := [(0, { core0 with slots := core0.slots.set 1 (some 2) })] }
/-- PrivilegedObjects: SAVEREC with the victim halted, its entry of one piece translated, and with the victim not halted. -/
theorem witness_PrivilegedObjects_saverec :
    (sV .run).issuing = some (1, stK) ∧ (stK.reg 10).toNat % 64 = 0 ∧ coreDie stK.home ++ BitVec.ofNat 6 (stK.reg 0).toNat = (0#9 : BitVec 9) ∧
      (sV (.go)).victim (stV .go) = true ∧ (stV .go).inSlot = true ∧ (stV .go).clusterOf = 0 ∧ (stV .go).wait ≠ .run ∧
      ((sV .run).strands.all fun p => !((sV .run).victim p.2 && p.2.inSlot) || p.2.wait == .run) = true ∧ Maps.wf (sV .run).strands = true ∧
      (sV .run).victim stK = false ∧ (sV .run).savableIn 0 = [2] ∧ (stV .run).entry.length = 256 ∧
      (blockPieces pad0 (stV .run).entry 5).map (fun p => (p.1, p.2.length)) = [(pad0, 256)] ∧
      (sV .run).xlate 0 true pad0 2 = .ok (.pad 0 0) ∧ (sV .run).roomFor 0 (homeOf (.pad 0 0)) 1 = true := by decide +kernel

/-- The slot of p2 FULL with the entry of the victim. -/
def sLoad (pool : List Nat) : State :=
  { sV .run with
    savePool := pool, strands := [(1, stK), (2, { stV .run with loc := .saved 0 0, core := 0, bound := false })]
    clusters := [(0, { Cluster.reset with pads := [(0, { Block.mapped with st := 1, payload := Payload.ofBytes (stV .run).entry })] })] }
/-- PrivilegedObjects: LOADREC of a legal entry, of the record it was made from and of no record. -/
theorem witness_PrivilegedObjects_loadrec :
    let e := (stV .run).entry
    (sLoad [2]).issuing = some (1, stK) ∧ stK.handing = none ∧ (sLoad [2]).entryBytes stK 0 pad0 4 3 = .inl (e.take 4) ∧ leNat (e.take 4) = 256 ∧
      (sLoad [2]).entryBytes stK 0 pad0 256 10 = .inl e ∧ entryBad e = false ∧ (Maps.get (sLoad [2]).images (recField e 0xE4 2)).isSome = true ∧
      ((sLoad [2]).cluster 0).waiting = [] ∧ (sLoad [2]).savePool.find? (fun q => ((sLoad [2]).strand q).any fun y => y.entry == e) = some 2 ∧
      (2 : Nat) ≠ 1 ∧ ({ sLoad [2] with quench := none, instances := [] } : State).victim { stV .run with loc := .saved 0 0 } = false ∧
      (sLoad [2]).queueRoom 0 2 = true ∧ ({ sLoad [2] with clusters := [(0, { Cluster.reset with queue := List.replicate 1000 9 })] } : State).queueRoom 0 2 = false ∧
      2 ∉ List.replicate 1000 9 ∧ (sLoad []).savePool = [] ∧ 1 ≠ (sLoad []).fresh + 1 ∧ ((sLoad []).cluster 0).queue.length < 64 ∧
      (({ sLoad [] with nodes := [(7, node7)] } : State).node (entryStrand e 0).node).isNone = true := by decide +kernel

/-- The components of a flash copy; a component whose signature does not verify. -/
def comps : List Component :=
  (List.range 6).map fun n => { readable := true, signed := true, number := BitVec.ofNat 32 n, version := 3, floor := 2, bytes := [BitVec.ofNat 8 n] }
def badComps : List Component := comps.map fun c => { c with signed := false }
/-- What a step of the boot sequence finds. -/
def bo (a b_ : List Component) (dies : BitVec 8) : BootOutcome :=
  { copyA := a, copyB := b_, hearth := true, failed := [], dies := dies, fibres := BitVec.allOnes 64 }
/-- A part at a stage of the sequence, not yet asking for a plan. -/
def sBoot (stage : BitVec 4) : State := { State.reset with boot := { State.reset.boot with stage := stage } }
/-- Does the component pass: readable, signed, no older than the fuses, of its number (R382)? -/
def passes (l : List Component) (n : Nat) : Bool :=
  (l[n]?).any fun c => c.readable && c.signed && decide (popcount State.reset.rollback.toNat 64 ≤ c.version.toNat) && c.number.toNat == n
/-- ServiceAndBringUp: each stage, with copies that pass, pass in part and fail, with and without a die and a cluster of it; a supply fault and its end; the idle entry of a core. -/
theorem witness_ServiceAndBringUp_boot :
    (∀ n ∈ [0#4, 1, 2, 3, 4, 5], (sBoot n).boot.stage = n ∧ (sBoot n).boot.wantsPlan = false ∧ (sBoot n).boot.copyB = false ∧ (sBoot n).supplyOk = true) ∧
      ((List.range 6).all (passes comps)) = true ∧ ((List.range 6).all fun n => !passes badComps n) = true ∧ passes [] 0 = false ∧
      ((comps.take 3)[3]?).isNone = true ∧ (bo comps comps 1).hearth = true ∧ (bo comps comps 1).failed = [] ∧
      (bo comps comps 1).fibres = BitVec.allOnes 64 ∧ (bo comps comps 1).dies.getLsbD 0 = true ∧ (State.reset.die 0).alive = true ∧
      State.reset.inService 0 = true ∧ (clusterDie 0).toNat = 0 ∧ (bo comps comps 0).dies.getLsbD 0 = false ∧ State.reset.modSet = false ∧
      ({ State.reset with modSet := true, leader := 1 } : State).leader ≠ State.reset.modNo ∧
      ({ sHost with supplyOk := false } : State).supplyOk = false ∧ State.reset.coreQuiet 0 = true ∧ State.reset.idleCores = [] := by decide +kernel

/-- Every core of die 0 idle, and its tolerance 300 microseconds. -/
def sIdle : State := { State.reset with idleCores := List.range 1024, dieTol := Vector.replicate 8 300 }
/-- ServiceAndBringUp: the idle entries of a die, from S0 and from S2. -/
theorem witness_ServiceAndBringUp_die :
    (sIdle.die 0).alive = true ∧ (sIdle.die 0).idle = 0 ∧ sIdle.dieQuiet 0 = true ∧ sIdle.dieTol[(0 : Fin 8)] = 300 ∧ sIdle.dieEmpty 0 = true := by
  refine ⟨by decide +kernel, by decide +kernel, ?_, by decide +kernel, by decide +kernel⟩
  simp only [State.dieQuiet, Bool.and_eq_true]
  exact ⟨⟨⟨by simp [sIdle], rfl⟩, rfl⟩, rfl⟩

/-- ServiceAndBringUp: a supply fault before the Keep runs, in RECOVERY and after, an idle entry from S2, dies in S3, and a scrub of a die that is out and of one that is not. -/
theorem witness_ServiceAndBringUp_supply :
    ((sBoot 1).supplyOk = true ∧ (sBoot 1).boot.stage.toNat < 2) ∧ (sBoot 15).boot.stage = 15 ∧ (2 ≤ (sBoot 2).boot.stage.toNat ∧ (sBoot 2).boot.stage ≠ 15) ∧
      (let s : State := { State.reset with dies := State.reset.dies.map fun d => { d with idle := 3 } }
       (∀ i : Fin 8, (s.dies[i]).idle = 3) ∧ s.qps = [] ∧ (if (s.die 0).secondPort then 4 else 0 : BitVec 3) = 0 ∧ (s.die 0).idle = 3) ∧
      (State.reset.die 0).secondPort = false ∧ (State.reset.die 0).idle ≠ 3 ∧ State.reset.rowActs = [] := by decide +kernel
/-- ServiceAndBringUp: a row of stack 0 at its threshold, whatever that is, beside one of stack 1. -/
theorem witness_ServiceAndBringUp_rows :
    let s : State := { State.reset with rowActs := [(0, Config.rowThreshold 0), (2 ^ 24, 5)] }
    (∃ p ∈ s.rowActs, p.1 / 2 ^ 24 = (0#5).toNat ∧ Config.rowThreshold (0#5).toNat ≤ p.2) ∧ Maps.wf s.rowActs = true :=
  ⟨⟨_, List.mem_cons_self, by decide, le_refl _⟩, rfl⟩
/-- ServiceAndBringUp: the idle entry of the module with every die lost. -/
theorem witness_ServiceAndBringUp_module :
    let s : State := { State.reset with dies := State.reset.dies.map fun d => { d with alive := false }, modTol := 20000 }
    (s.dies.toList.all fun d => !d.alive) = true ∧ 20000 ≤ s.modTol.toNat ∧ s.qps = [] := by decide +kernel

/-- A unit with an error record: cluster 3 of die 0. -/
def unit4 : UnitId := { unit := 4, die := 0, cluster := 3, index := 0 }
/-- ServiceAndBringUp: errors of a strand and corrected ones, a self-test with a record, its end, and a die to lose. -/
theorem witness_ServiceAndBringUp_errors :
    (sHost.strand 1 = some stW ∧ sHost.node stW.node = some node7 ∧ (sHost.inst node7.inst).isSome = true ∧ Maps.wf sHost.strands = true) ∧
    (let s : State := { sHost with errHead := 1, errLog := [(0, BitVec.ofNat 256 (UnitId.word unit4 0).toNat)] }
     s.recordOf unit4 = some 0 ∧ Maps.getD s.tested (UnitId.key unit4) 0 ≤ 0 ∧
       0 < Maps.getD ({ s with tested := [(UnitId.key unit4, 1)] } : State).tested (UnitId.key unit4) 0 ∧ 1 ≤ unit4.unit.toNat ∧ unit4.unit.toNat ≤ 10 ∧ s.tests = [] ∧
       ((unit4.die ++ unit4.cluster : BitVec 9) = 3)) ∧
    (let x : Test := { unit := unit4, record := 0, second := false }
     let s : State := { sHost with errHead := 1, errLog := [(0, 5)], tests := [x] }
     s.tests.find? (fun t => t.unit == unit4) = some x ∧ unit4.unit ≠ 9 ∧ x.second = false ∧ (Maps.getD s.errTimes (UnitId.key unit4) []).isEmpty = true ∧
       (Maps.get s.errLog (x.record % 1024)).isSome = true) ∧
    (let u : UnitId := { unit4 with unit := 1 }
     let x : Test := { unit := u, record := 0, second := true }
     let s : State := { sHost with tests := [x], spareUse := [(49, 1)] }
     s.tests.find? (fun t => t.unit == u) = some x ∧ u.unit = 1 ∧ s.inService (u.die ++ u.cluster) = true ∧
       1 + 16 * (u.die ++ u.cluster : BitVec 9).toNat = 49 ∧ Maps.getD sHost.spareUse 49 0 = 0 ∧ 1 ≤ Maps.getD s.spareUse 49 0) ∧
    (let x : Test := { unit := unit4, record := 0, second := false }
     let s : State := { sHost with tests := [x], errHead := 1, errLog := [(0, BitVec.ofNat 256 (UnitId.word unit4 0).toNat), (3, 7)] }
     s.tests.find? (fun t => t.unit == unit4) = some x ∧ unit4.unit = 4 ∧ Maps.getD s.spareUse (10 + 16 * unit4.die.toNat) 0 < 2 ∧
       Maps.wf s.spareUse = true ∧ s.inService (unit4.die ++ unit4.cluster) = true ∧
       UnitId.names unit4 (BitVec.ofNat 256 (UnitId.word unit4 0).toNat) = true ∧ x.record ≤ 0 ∧ 0 < s.errHead.toNat ∧ UnitId.names unit4 7 = false) ∧
    (let u : UnitId := { unit := 8, die := 1, cluster := 0, index := 31 }
     let x : Test := { unit := u, record := 0, second := false }
     let s : State := { sHost with tests := [x] }
     s.tests.find? (fun t => t.unit == u) = some x ∧ u.unit = 8 ∧ 32 * (u.die.toNat % 2) + u.index.toNat % 32 = 63 ∧
       Maps.getD s.spareUse (8 + 16 * 63) 0 = 0 ∧ 1 ≤ Maps.getD ({ s with spareUse := [(8 + 16 * 63, 1)] } : State).spareUse (8 + 16 * 63) 0) ∧
    (let s : State := { sHost with clusters := [(0, { Cluster.reset with res := [(1088, { b := Block.mapped, used := 0, dirty := false })] })] }
     (s.stateAt 0 1088).gen = 0 ∧ (s.stateAt 0 1088).gen ≠ 1 ∧ (s.stateAt 0 1088).poisoned = false) ∧
    (∀ c pins p, stW.wait ≠ .command c true pins p) ∧ (sHost.die 7).alive = true := by
  refine ⟨by decide +kernel, by decide +kernel, by decide +kernel, by decide +kernel, by decide +kernel, by decide +kernel, by decide +kernel, ?_,
    by decide +kernel⟩
  intro c pins p h
  exact absurd h (by simp [stW, withRegs, st0, Strand.blank])

/-- StepKeepsTheInvariant and EveryStepGoesOn: the state after reset, with a turn as its next move, has the invariant and its step answers a next state. -/
theorem witness_StepKeepsTheInvariant :
    ({ State.reset with schedule := [.turn 0] } : State).Inv ∧ (nextOf (step { State.reset with schedule := [.turn 0] })).isSome = true :=
  ⟨⟨by decide +kernel, by decide +kernel, by decide +kernel⟩, by decide +kernel⟩

/-! ### One step each, with results from the rules of the spec -/

/-- JR to an address that is no multiple of 4 enters the handler of cause 3 at TRAPBASE + 48 (R121, R316). -/
theorem test_jr_align :
    (after (.jr b 1) sW).map (fun t => (t.pc, t.tpc, t.tcause, t.tval)) = some (48, 0x40, 0x83, 1) := by decide +kernel

/-- BBS with the bit set goes to the pc minus 4, BBC falls through (R121). -/
theorem test_branches :
    (after (.bbs b 3 5 0x3FFF) sW).map Strand.pc = some 0x3C ∧ (after (.bbc b 3 5 0x3FFF) sW).map Strand.pc = some 0x44 ∧
      (after (.jal b 0xFFFFFF) sW).map (fun t => (t.pc, t.reg 7)) = some (0x3C, 0x44) := by decide +kernel

/-- STL.w writes the low bytes first; LDL.b sign-extends, LDLU.b does not, LDL.b below XB raises PRIV (R127). -/
theorem test_core_store :
    ((nextOf (exec (.stl b 2 8 9 0) (stateOf { stW with regs := stW.regs.set 8 0x11223380 }))).map fun t =>
      Mem.bytes (t.core 0).store 0x400 4) = some [0x80, 0x33, 0x22, 0x11] ∧
    (let s := fun i => after i { sW with cores := [(0, { core0 with store := [(0x400, 0x80)] })] }
     (s (.ldl b 0 2 9 0)).map (fun t => t.reg 2) = some 0xFFFFFFFFFFFFFF80 ∧ (s (.ldlu b 0 2 9 0)).map (fun t => t.reg 2) = some 0x80 ∧
       (s (.ldl b 0 2 13 0)).map (fun t => (t.tcause, t.tval)) = some (0x81, 0x3FF)) := by decide +kernel

/-- DIV by zero traps with cause 4 and the dividend (R110); -7 over 2 gives quotient -3 and remainder -1. -/
theorem test_divide :
    (after (.div b 2 5 0) sW).map (fun t => (t.tcause, t.tval)) = some (0x84, 2) ∧
    (∀ p ∈ ([(.div b 2 6 5, 0xFFFFFFFFFFFFFFFD), (.rem b 2 6 5, 0xFFFFFFFFFFFFFFFF)] : List (Instr × Word)),
      let st : Strand := { stDiv p.1 with regs := stW.regs.set 6 0xFFFFFFFFFFFFFFF9 }
      ((nextOf (exec (.dividerResult 0) { sDiv p.1 with strands := [(1, st)] })).bind fun t => t.strand 1).map (fun t => (t.reg 2, t.pc)) =
        some (p.2, 0x44)) := by decide +kernel

/-- TRAP 7 and RETT.S: the handler is entered with cause 13, and the strand goes on after the trapping word (R92, R318). -/
theorem test_trap_and_return :
    (after (.trap b 7) sW).map (fun t => (t.pc, t.tpc, t.tcause, t.tval)) = some (208, 0x40, 0x8D, 7) ∧
    (after (.rett b true) (stateOf (stTpc 0x3F8))).map (fun t => (t.pc, t.tcause)) = some (0x3FC, 0x0D) := by decide +kernel

/-- WRSR to TCAUSE leaves bits 6:5 zero; RDSR of XB reads the boundary (R315, R327). -/
theorem test_special_registers :
    (after (.wrsr b 9 1) (stateOf { stW with regs := stW.regs.set 9 0xFF })).map Strand.tcause = some 0x9F ∧
      (after (.rdsr b 1 6) sW).map (fun t => t.reg 1) = some 0x400 := by decide +kernel

/-- VADD of 1.0 and 1.0 in lane 0 under a mask of lane 0: lane 0 is 2.0, the other lanes keep vD, the tag is F32 (R158, R163). -/
theorem test_vadd_masked :
    let i : Instr := .vadd { oF with lme := true, lmr := 1 }
    let ones : Vec := BitVec.ofNat 1024 0x3F8000003F800000
    let st : Strand := { stCmd i true [] with vecs := ((stA.vecs.set 1 ones).set 2 ones).set 0 (BitVec.ofNat 1024 (2 ^ 32 * 5)) }
    ((nextOf (exec (.vectorResult 1) { sCmd i true [] with strands := [(1, st)] })).bind fun t => t.strand 1).map (fun t => (t.vec 0, t.tag 0, t.pc)) =
      some (BitVec.ofNat 1024 (2 ^ 32 * 5 + 0x40000000), 0x80, 0x4C) := by decide +kernel

/-- HOME_SEAL leaves the block FULL at its generation with presence word 0x4014, and reports without a bit (R203). -/
theorem test_home_seal :
    ((nextOf (exec (.homeSeal 5) (sHome (blk5 false) (.seal false)))).bind fun t => (Maps.get (t.cluster 0).res 1088).map fun x =>
      (x.b.pw false, Maps.get t.net t.fresh.pred == some (.reply (qd (.seal false)) (.report 0 0)))) = some (0x4014, true) := by decide +kernel

/-- A lost die 0 puts its stacks on the port of die 4 (R9, R376). -/
theorem test_die_failure : ((nextOf (exec (.dieFailure 0) State.reset)).map fun t => (t.driver 0, t.driver 4, (t.die 0).alive)) = some (4, 1, false) := by
  decide +kernel

/-- FORK leaves its slot and goes back through the dispatcher, its pc past the instruction; the child stands in the deque with a clear handler status (R103, R276). -/
theorem test_fork_leaves :
    ((nextOf (exec (.fork b 0 2) (stateOf { stW with tags := st0.tags }))).map fun t =>
      ((t.strand 1).map fun v => (v.pc, v.loc), (t.core 0).slots[(0 : Fin 8)], (t.core 0).deque)) =
      some (some (0x44, Loc.arriving 0), none, [11]) := by decide +kernel

/-- ARM MODE 3 of a poisoned FULL block answers FULL and leaves the quota (R368). -/
theorem test_arm_poisoned :
    (let a := ({ blk5 true with poisoned := true } : Block).act false (opOf (.arm 0x3030000) 5)
     (a.reply, a.b.qarmed, a.b.qrem)) = (some (.status 4 0), 0, 0) := by decide +kernel

/-! #### Further forms -/

/-- Block 1088 not resident, with a log of these entries over a descriptor, and an operation on its way. -/
def sLog (d : Block) (l : List LogEntry) (k : OpKind) : State :=
  { withTlb (stateOf (stReply (.ld o2))) with
    net := [(5, .op (qd k))], cur := none, clusters := [(0, { Cluster.reset with logs := [(1088, { desc := d, entries := l, born := 0 })] })] }
/-- The stub of node instance 8, which watches for generation 6. -/
def stub8 : Stub := .watcher 0 8 6 0x0060000000040000 none
/-- HomeEventsApply: a block without residence: an ACC that merges and one that fills the block's armed count, a read that parks, a watcher beside another, an arrival, a CLR over an accumulation, an ARM that seals, a PROBE that changes nothing, and the sixteenth ACC entry, with which a fill starts. -/
theorem witness_HomeEventsApply_logged :
    ∀ p ∈ ([(blk5 false, [.acc 5 3 0 0 7], .accum 0 128 3 0 false 5, true), ({ blk5 false with acount := 128 }, [], .accum 0 128 8 0 true 5, true),
        (blk5 false, [.acct 5 3 0 9], .read false, true), (blk5 false, [.stubs 1 6 [stub8]], .watcher 0 9, true), (blk5 false, [], .arrival, true),
        (blk5 false, [.acc 5 3 0 0 7, .stubs 1 6 [stub8]], .clear false, true), ({ blk5 false with arrivals := 1 }, [], .arm 0x10001, true),
        (blk5 false, [.acct 5 3 0 9], .probe, false), (blk5 false, List.replicate 15 (.acc 5 3 0 256 7), .accum 0 128 3 0 false 5, true)] :
        List (Block × List LogEntry × OpKind × Bool)),
      let s := sLog p.1 p.2.1 p.2.2.1
      let o := qd p.2.2.1
      let e := (s.effective 0 1088).1
      let a := e.act true o
      Maps.get s.net 5 = some (.op o) ∧ o.place = .dom 0 1088 ∧ Maps.get (s.cluster 0).res 1088 = none ∧ Maps.get (s.cluster 0).fills 1088 = none ∧
        e.poisoned = false ∧ Maps.get (s.cluster 0).windows o.unit = none ∧ s.badLine 1088 0 = false ∧ (s.cluster 0).crucible ≤ 5000 ∧
        (a.parks || a.cleared || a.sealed || a.combined || a.b != e || (match a.reply with | some (.status 0 _) => true | _ => false)) = p.2.2.2 ∧
        o.unit % 16384 < 8192 := by decide +kernel
/-- HomesAndUnitsUpkeep: a fill whose log stands: an accumulation, a seal, a clear and stubs in their order. -/
theorem witness_HomesAndUnitsUpkeep_log :
    let l : List LogEntry := [.acc 5 3 0 0 7, .seal 5, .clear 5, .stubs 1 6 [stub8]]
    let s : State := { sHost with clusters := [(0, { Cluster.reset with fills := [(1088, [])], logs := [(1088, { desc := { blk5 false with gen := 6 }, entries := l, born := 0 })] })] }
    Maps.get (s.cluster 0).fills 1088 = some [] ∧ (s.cluster 0).res.length + (s.cluster 0).copies.length < (s.cluster 0).capacity ∧
      (s.resident 0 1088).stubs = [stub8] ∧ 1 ≤ (s.cluster 0).stubRoom ∧ (Maps.get (s.cluster 0).logs 1088).map Log.entries = some l ∧
      (s.cluster 0).prefs = [] ∧ s.unreadable 0 1088 = false := by decide +kernel

/-- HomeClearsAndAccumulations and HomeWritesSealsAndArrivals: an accumulation that seals by its bytes, one past the armed count, the arrival of .c that seals, at 65,535 and on a FULL block; PROBE, a read that parks and a host's that is refused, a watcher of a FULL block, of a poisoned one and of an EMPTY one. -/
theorem witness_HomeClearsAndAccumulations_seals :
    (∀ p ∈ ([({ blk5 false with acount := 128 }, false, some (.report 0 0), true), ({ blk5 false with acount := 64 }, false, some (.report 4 15), true),
        ({ blk5 false with mode := 1, acount := 1 }, true, some (.report 0 0), true), ({ blk5 false with arrivals := 65535 }, true, some (.report 4 15), false),
        ({ blk5 true with mode := 1 }, true, some (.report 5 14), false), (blk5 true, false, some (.report 1 14), false)] :
        List (Block × Bool × Option Reply × Bool)),
      let a := p.1.act false (opOf (.accum 0 128 3 0 p.2.1 5) 5)
      (a.reply, a.sealed) = p.2.2) ∧
    ((blk5 false).act false (opOf .probe 9)).reply = some (.probe 0x14) ∧ ((blk5 false).act false (opOf .wait 5)).parks = true ∧
    ((blk5 false).act false { opOf (.read false) 5 with unit := unitPort false }).reply = some .stale ∧
    (8712 ≤ unitPort false % 16384 ∧ unitPort false % 16384 < 8720) ∧
    (∀ p ∈ ([(blk5 true, (1, 0, false)), ({ blk5 true with poisoned := true }, (0, 1, false)), (blk5 false, (0, 0, true))] : List (Block × Nat × Nat × Bool)),
      let a := p.1.act false (opOf (.watcher 0 7) 5)
      (a.woken.length, a.lost.length, a.parks) = p.2) := by decide +kernel

/-- ForkJoinEnd: END and JOIN that close batch 0 first: with a home to ask, at once, with untracked operations, with an error collected; the last answer of its home, clean and with an error, before batch 1, as the last but one live strand; and POISON to a JOIN. -/
theorem witness_ForkJoinEnd_closes :
    (∀ i ∈ ([.endStrand b, .join b 10] : List Instr),
      (∀ v ∈ [bsH 70 2 0, bsH 70 0 0, bsH 70 0 3, { bsH 70 0 0 with got := { count := 1, bits := 2, first := some (0, 0, 8, pad0) } }],
        let s := sB .run v
        s.strand 1 = some (stB .run) ∧ s.node (stB .run).node = some node7 ∧ Maps.wf s.strands = true ∧ s.cur = some 1 ∧ (stB .run).guardOk b.gd = true ∧
          (stB .run).opens.getLsbD 0 = true ∧ s.awaits 1 = false ∧ ((Maps.getD s.trackers (stB .run).tracker Tracker.zero).get 0) = v ∧
          Maps.wf v.homes = true ∧ s.xlate (coreCluster (stB .run).home) true ((stB .run).reg 10) 4 = .ok (.pad 0 0)) ∧
      (∀ p ∈ ([(1, Sum.zero), (3, Sum.zero), (1, { count := 2, bits := 2, first := some (0, 0, 8, pad0) })] : List (BitVec 4 × Sum)),
        let st : Strand := { stB (.closing i 0) with opens := p.1 }
        let s : State := { sB (.closing i 0) (bsH 70 2 0) with
          strands := [(1, st)], trackers := [(1, { trOf (bsH 70 2 0) with b1 := bsH 80 1 0 })], nodes := [(7, { node7 with live := 2 })], cur := none
          net := [(5, .closeReply 70 1 0 true p.2 1)] }
        s.strand 1 = some st ∧ st.wait = .closing i 0 ∧ (s.take 5).awaits 1 = false ∧ Maps.del (bsH 70 2 0).homes 70 = [] ∧
          (Maps.get s.trackers 1).isSome = true ∧ Maps.get s.net 5 = some (.closeReply 70 st.tracker 0 true p.2 1) ∧
          st.opens &&& ~~~(1#4 <<< 0) = (if p.1 = 1 then 0 else 2) ∧ ((trOf (bsH 70 2 0)).get 0).untracked = 0 ∧ (bsH 80 1 0).homes ≠ [] ∧
          s.roomFor (unitCore st.home) (homeOf (.pad 0 0)) 1 = true)) ∧
    (let st : Strand := { stW with wait := .reply (.join b 10) pad0 pad0 }
     let s : State := { stateOf st with cur := none, net := [(5, .reply (q2 .arrival) .poison)], units := [(0, [q2 .arrival])] }
     Maps.get s.net 5 = some (.reply (q2 .arrival) .poison) ∧ s.awaited (q2 .arrival) = true ∧ st.inSlot = true) := by decide +kernel

/-- CopiesAndHostRequests: the last source of a command of two destinations of one home with room for both, and with room for one. -/
theorem witness_CopiesAndHostRequests_portion :
    ∀ p ∈ [((0 : Nat), 2), (1023, 1)],
      let cmd : CopyCmd := { cmd1 false with reqs := [{ req1 with dests := [(pad0, .pad 0 0, false), (pad0 + 0x2000, .pad 0 2, false)] }] }
      let s : State := { stateOf st0 with
        cur := none, net := [(5, .reply qC (.data 7 0x4000 0))], units := [(unitEngine 0, List.replicate p.1 { qC with seq := 9 })]
        clusters := [(0, { Cluster.reset with eng := { Cluster.reset.eng with active := [(4, cmd)] } })] }
      let s1 := (s.take 5).unack qC.unit qC.seq
      let homes := cmd.reqs.flatMap fun q => q.dests.map fun y => homeOf y.2.1
      cmd.sent = 0 ∧ homes.length = 2 ∧ p.2 ≤ homes.length ∧
        (∀ j < p.2, s1.roomFor (unitEngine 0) (homes.getD j 0) ((homes.take (j + 1)).count (homes.getD j 0)) = true) ∧
        (p.2 < homes.length → s1.roomFor (unitEngine 0) (homes.getD p.2 0) ((homes.take (p.2 + 1)).count (homes.getD p.2 0)) = false) := by decide +kernel

/-- HostRequestsSucceed: no reply is owed; a domain of two modules, in which a map waits for the other one; and QUENCH of an instance with a command that has been dispatched, so that its reply is owed. -/
theorem witness_HostRequestsSucceed_owed :
    (req 0x20 []).keepWait.isNone = true ∧ sHost.others = [] ∧ ({ sHost with modSet := true, domain := 3 } : State).others = [1] ∧
    (let st := stCmd (.vadd oF) true []
     let s : State := { sHost with strands := [(1, st)], keepWait := none }
     (s.inst 9).isSome = true ∧ ((s.endInstance 9 killed).ending.any fun e => e.number == 9) = true ∧ (sHost.endInstance 9 killed).ending = [] ∧
       (s.instances.filter fun p => p.2.parent == 0).map (fun p => BitVec.ofNat 32 p.1) = [9]) := by decide +kernel

/-- Two records in the queue of cluster 0 and one free slot on cores 0 and 1; a record on the deque of core 2. -/
def sThief (queue : List Nat) : State :=
  let u : Strand := { stW with image := 2, tags := st0.tags, win := 0, bound := false, core := 0, node := 0, loc := .queue 0 }
  let c1 : Core := { core0 with image := 2, slots := (Vector.replicate 8 (some 77)).set 0 none }
  { stateOf st0 with
    cur := none, strands := queue.map (fun k => (k, u)) ++ [(90, { u with loc := .deque 2, core := 2, steal := 4 })]
    cores := [(0, c1), (1, c1), (2, { c1 with deque := [90], slots := Vector.replicate 8 (some 77) })]
    clusters := [(0, { Cluster.reset with queue := queue })] }
/-- RecordsTakeSlots: with one record waiting the dispatcher places it on core 0 and none on core 1, which steals; with two it places the second on core 1. -/
theorem witness_RecordsTakeSlots_order :
    (∀ q ∈ [[], [20]], (sThief q).serves 0 1 q.length = false ∧ ((sThief q).poppable 1).isNone = true ∧ ((sThief q).stealable 1 2).isSome = true ∧
      distance 1 2 = 1 ∧ (sThief q).canIssue 1 = true ∧ Maps.wf (sThief q).cores = true) ∧
    ((sThief [20, 21]).serves 0 1 2 = true ∧ ((sThief [20, 21]).pick 0).map (fun x => (x.1, x.2.2)) = some (20, 0) ∧
      ((nextOf (exec (.dispatcherPlace 0 0) (sThief [20, 21]))).bind fun t => (t.pick 0).map fun x => (x.1, x.2.2)) = some (21, 1)) := by decide +kernel

/-- QuenchSavesAndResumes: a victim that has not come to its boundary. -/
theorem witness_QuenchSavesAndResumes_running :
    let st : Strand := { stW with node := 8, loc := .slot 0 0, wait := .go }
    let s : State := { sQuench false with strands := [(1, st)] }
    (1, st) ∈ s.strands ∧ s.victim st = true ∧ st.inSlot = true ∧ st.wait ≠ .run := by decide +kernel

/-- ServiceAndBringUp: plan 0 of a module of a domain, with two fibres to the other module, which passes its tests, and none outside a domain; an error of a fibre of hearth die 1; a copy in error; a pseudo-channel without a spare. -/
theorem witness_ServiceAndBringUp_more :
    (let es : List (Nat × BitVec 16) := [(0, 0x8001), (64, 0x8000)]
     let s : State := { sBoot 5 with modNo := 0, modSet := true, domain := 3, leader := 0 }
     s.boot.stage = 5 ∧ s.boot.wantsPlan = false ∧ s.modSet = true ∧ (s.withPlan0 es).planOk 0 = true ∧ (s.provision es).plans = [(0, es)] ∧
       ((sBoot 5).provision es).plans = [(0, [])] ∧ (s.provision [(0, 0x8001)]).plans = [(0, [])]) ∧
    (let e : ErrorReport := { unit := { unit := 9, die := 1, cluster := 0, index := 31 }, addr := 0, syndrome := 0, corrected := true, target := .nothing }
     e.corrected = true ∧ (e.unit.unit = 8 ∨ e.unit.unit = 9) ∧ e.unit.die.toNat % 2 = 1) ∧
    (let e : ErrorReport := { unit := { unit := 2, die := 0, cluster := 0, index := 0 }, addr := 0, syndrome := 0, corrected := false, target := .copy 0 5 6 }
     e.corrected = false ∧ e.target = .copy 0 5 6) ∧
    (let u : UnitId := { unit := 7, die := 1, cluster := 0, index := 2 }
     let x : Test := { unit := u, record := 0, second := true }
     let s : State := { sHost with tests := [x], spareUse := [(7 + 16 * (1 + 8 * 2), 1)] }
     s.tests.find? (fun t => UnitId.same t.unit u) = some x ∧ 1 ≤ Maps.getD s.spareUse (7 + 16 * (u.die.toNat + 8 * u.index.toNat)) 0) := by decide +kernel

/-- CollectiveAtTheLeader: the leader's own DRAINED after its collective has ended, and a DRAINED behind its own gather. -/
theorem witness_CollectiveAtTheLeader_late :
    (let s : State := { sLead with toSelf := [.drained] }
     s.lead.running = false ∧ 0 ∈ s.domainOf ∧ s.toSelf.find? (fun x => x.up == DomainMsg.drained.up) = some .drained) ∧
    (let s : State := { sLead with toSelf := [.go false, .gather arr1, .drained] }
     s.toSelf.find? (fun x => x.up == DomainMsg.drained.up) = some (.gather arr1)) := by decide +kernel

/-- BlockAccessTraps: POISON to ACNT. -/
theorem witness_BlockAccessTraps_acnt :
    let s := sReply (.acnt o2) .arrival .poison
    s.strand 1 = some (stReply (.acnt o2)) ∧ Maps.get s.net 5 = some (.reply (q2 .arrival) .poison) ∧ s.awaited (q2 .arrival) = true := by decide +kernel

end Sys2Proof.Tests
end

section
/-!
PROOF. The scope of the model: what the accessors and the management registers read in the state after reset, and that the
invariant holds there.
-/
namespace Sys2Proof.Machine

/-! ### What a sparse table without entries reads -/

@[simp] theorem Maps.getD_nil {α : Type} (k : Nat) (d : α) : Maps.getD [] k d = d := rfl
theorem Memory.wf_nil : Memory.wf [] = true := (Memory.wf_iff []).2 ⟨rfl, List.forall_mem_nil _⟩

/-! ### Registers of the module (R385, R388), in every state -/

theorem State.regRead_bootstatus (s : State) : s.regRead 0x18 = some s.boot.word := by
  simp [State.regRead]
theorem State.regRead_errhead (s : State) : s.regRead 0x10048 = some (s.errHead.zeroExtend 64) := by
  simp [State.regRead, inRegs]
theorem State.regRead_evthead (s : State) : s.regRead 0x10050 = some (s.evtHead.zeroExtend 64) := by
  simp [State.regRead, inRegs]
theorem State.regRead_tracesel (s : State) : s.regRead 0x10060 = some (s.tracesel.zeroExtend 64) := by
  simp [State.regRead, inRegs]

/-! ### Every unit is as its own reset gives it: none is listed, and the dies are eight alike -/

@[simp] theorem State.cluster_reset (c : BitVec 9) : State.reset.cluster c = Cluster.reset := Maps.getD_nil ..
@[simp] theorem State.core_reset (k : BitVec 13) : State.reset.core k = Core.reset := Maps.getD_nil ..
@[simp] theorem State.anvil_reset (a : BitVec 11) : State.reset.anvil a = Anvil.reset := Maps.getD_nil ..
@[simp] theorem State.die_reset (d : BitVec 3) : State.reset.die d = Die.reset := by
  simp [State.die, State.reset]

/-- Four of the sixteen L2 units are scratchpad, 32 slots each (R221). -/
theorem Cluster.padSlots_reset : Cluster.reset.padSlots = 128 := rfl

theorem State.dieTol_reset (d : Fin 8) : State.reset.dieTol[d] = 1 := by
  simp [State.reset]

/-- No field of BOOTSTATUS is set before power is good (R388). -/
theorem State.bootWord_reset : State.reset.boot.word = 0 := by decide

/-- Settles O56: the fields of the module as reset writes them, the registers by what QUERY reads of them, and the
units by their own reset. -/
theorem resetLeavesStatedValues : Obligations.ResetLeavesStatedValues := by
  unfold Obligations.ResetLeavesStatedValues
  intro s
  have bootstatus : s.regRead 0x18 = some 0 := s.regRead_bootstatus.trans (congrArg some State.bootWord_reset)
  have clusters (c : BitVec 9) : (s.cluster c).l2units = 12 ∧ (s.cluster c).padSlots = 128 ∧ (s.cluster c).res = [] ∧
      (s.cluster c).logs = [] ∧ (s.cluster c).tlb = [] ∧ (s.cluster c).perf4 = 0 ∧ (s.cluster c).perf7 = 0 := by
    rw [State.cluster_reset c]
    exact ⟨rfl, Cluster.padSlots_reset, rfl, rfl, rfl, rfl, rfl⟩
  have cores (k : BitVec 13) : (s.core k).ringwt = 1 ∧ (s.core k).perf0 = 0 ∧ (s.core k).perf1 = 0 ∧ (s.core k).perf5 = 0 := by
    rw [State.core_reset k]
    exact ⟨rfl, rfl, rfl, rfl⟩
  have anvils (a : BitVec 11) : (s.anvil a).perf2 = 0 ∧ (s.anvil a).perf3 = 0 := by
    rw [State.anvil_reset a]
    exact ⟨rfl, rfl⟩
  have dies (d : BitVec 3) : (s.die d).perf6 = 0 ∧ (s.die d).perf8 = 0 := by
    rw [State.die_reset d]
    exact ⟨rfl, rfl⟩
  exact ⟨rfl, rfl, rfl, rfl, rfl, rfl, rfl, rfl, bootstatus, s.regRead_tracesel, s.regRead_errhead, s.regRead_evthead, rfl,
    clusters, cores, anvils, dies, State.dieTol_reset, rfl, rfl, rfl⟩

/-- Settles O57: HBM lists no byte, no core is listed, and STAGE is 0. -/
theorem resetMeetsTheInvariant : Obligations.ResetMeetsTheInvariant where
  hbm := Memory.wf_nil
  stores := List.forall_mem_nil _
  stage := .inl (show 0#4 ≤ 7#4 by decide)

end Sys2Proof.Machine
end

section
/-!
PROOF. Sparse tables, and what the steps that only send, log, count or end work leave as it was: the error log, the tests, the
retired clusters and the dies.
-/
namespace Sys2Proof.Machine

/-! ### Sparse tables and folds -/

theorem Maps.get_map {α β : Type} (m : FMap α) (f : Nat → α → β) (k : Nat) : Maps.get (Maps.map m f) k = (Maps.get m k).map (f k) := by
  induction m with
  | nil => rfl
  | cons p r ih =>
    by_cases h : p.1 = k
    · simp [Maps.map, Maps.get, h]
    · simpa [Maps.map, Maps.get, h] using ih

/-- A key that no entry has reads nothing. -/
theorem Maps.get_eq_none {α : Type} {m : FMap α} {k : Nat} (h : ∀ p ∈ m, p.1 ≠ k) : Maps.get m k = none := by
  induction m with
  | nil => rfl
  | cons p r ih => simp [Maps.get, h p (List.mem_cons_self ..), ih fun q hq => h q (List.mem_cons_of_mem _ hq)]

theorem Maps.get_of_mem {α : Type} {m : FMap α} {p : Nat × α} (hw : Maps.wf m = true) (hp : p ∈ m) : Maps.get m p.1 = some p.2 := by
  induction m with
  | nil => simp at hp
  | cons q r ih =>
    obtain ⟨hq, hr⟩ := (Maps.wf_cons q.1 q.2 r).1 hw
    rcases List.mem_cons.1 hp with rfl | hp
    · simp [Maps.get]
    · have hlt := hq p hp
      simp only [Maps.get, (Nat.ne_of_lt hlt), if_false]
      exact ih hr hp

theorem Maps.mem_of_get {α : Type} {m : FMap α} {k : Nat} {v : α} (h : Maps.get m k = some v) : (k, v) ∈ m := by
  induction m with
  | nil => simp [Maps.get] at h
  | cons q r ih =>
    by_cases hq : q.1 = k
    · simp only [Maps.get, hq, if_true, Option.some.injEq] at h
      rw [← hq, ← h]
      exact List.mem_cons_self ..
    · simp only [Maps.get, hq, if_false] at h
      exact List.mem_cons_of_mem _ (ih h)

/-- A key put and two others deleted. -/
theorem Maps.getD_put_del_del {m : FMap Nat} {k a b : Nat} (hw : Maps.wf m = true) (n : Nat) (ha : k ≠ a) (hb : k ≠ b) (hab : a ≠ b) :
    Maps.getD (Maps.del (Maps.del (Maps.put m k n) a) b) k 0 = n ∧ Maps.getD (Maps.del (Maps.del (Maps.put m k n) a) b) a 0 = 0 ∧
      Maps.getD (Maps.del (Maps.del (Maps.put m k n) a) b) b 0 = 0 := by
  have hp := Maps.wf_put m k n hw
  simp only [Maps.getD, Maps.get_del_other _ _ _ hb, Maps.get_del_other _ _ _ ha, Maps.get_put_same, Maps.get_del_other _ _ _ hab,
    Maps.get_del_same _ _ hp, Maps.get_del_same _ _ (Maps.wf_del _ _ hp)]
  exact ⟨rfl, rfl, rfl⟩

/-- What every step of a fold keeps, the fold keeps. -/
theorem foldl_keeps {α β γ : Type} {f : β → α → β} (g : β → γ) (h : ∀ t x, g (f t x) = g t) (l : List α) (s : β) :
    g (l.foldl f s) = g s := by
  induction l generalizing s with
  | nil => rfl
  | cons x l ih => exact (ih _).trans (h s x)

/-! ### What is kept -/

/-- What a die keeps while the Keep and the homes report, send and end work: whether it is in service, which port its stacks are
on, and that an empty queue of ready node instances stays empty. -/
structure Die.Kept (x y : Die) : Prop where
  alive : y.alive = x.alive
  secondPort : y.secondPort = x.secondPort
  ready : ∀ k : Fin 4, x.ready[k] = [] → y.ready[k] = []

theorem Die.Kept.refl (x : Die) : x.Kept x := ⟨rfl, rfl, fun _ h => h⟩
theorem Die.Kept.trans {x y z : Die} (h : x.Kept y) (h' : y.Kept z) : x.Kept z :=
  ⟨h'.alive.trans h.alive, h'.secondPort.trans h.secondPort, fun k e => h'.ready k (h.ready k e)⟩

/-- The error log, the tests, the retired clusters and what `Die.Kept` says of every die stand as they were. -/
structure Steady (s t : State) : Prop where
  errHead : t.errHead = s.errHead
  errLog : t.errLog = s.errLog
  tests : t.tests = s.tests
  badClusters : t.badClusters = s.badClusters
  dies : ∀ d, (s.die d).Kept (t.die d)

theorem Steady.refl (s : State) : Steady s s := ⟨rfl, rfl, rfl, rfl, fun _ => .refl _⟩
theorem Steady.trans {s t u : State} (h : Steady s t) (h' : Steady t u) : Steady s u :=
  ⟨h'.errHead.trans h.errHead, h'.errLog.trans h.errLog, h'.tests.trans h.tests, h'.badClusters.trans h.badClusters,
    fun d => (h.dies d).trans (h'.dies d)⟩
theorem Steady.after {s t u : State} (h' : Steady t u) (h : Steady s t) : Steady s u := h.trans h'
theorem Steady.foldl {α : Type} {f : State → α → State} (h : ∀ t x, Steady t (f t x)) (l : List α) (s : State) :
    Steady s (l.foldl f s) := by
  induction l generalizing s with
  | nil => exact .refl s
  | cons x l ih => exact (h s x).trans (ih _)

/-- No strand and no die changes either: the step only sends, logs and counts. -/
structure Reported (s t : State) : Prop where
  errHead : t.errHead = s.errHead
  errLog : t.errLog = s.errLog
  tests : t.tests = s.tests
  badClusters : t.badClusters = s.badClusters
  dies : t.dies = s.dies
  strands : t.strands = s.strands

theorem Reported.refl (s : State) : Reported s s := ⟨rfl, rfl, rfl, rfl, rfl, rfl⟩
theorem Reported.trans {s t u : State} (h : Reported s t) (h' : Reported t u) : Reported s u :=
  ⟨h'.errHead.trans h.errHead, h'.errLog.trans h.errLog, h'.tests.trans h.tests, h'.badClusters.trans h.badClusters,
    h'.dies.trans h.dies, h'.strands.trans h.strands⟩
theorem Reported.after {s t u : State} (h' : Reported t u) (h : Reported s t) : Reported s u := h.trans h'
theorem Reported.steady {s t : State} (h : Reported s t) : Steady s t :=
  ⟨h.errHead, h.errLog, h.tests, h.badClusters, fun d => by rw [State.die, State.die, h.dies]; exact .refl _⟩
theorem Reported.foldl {α : Type} {f : State → α → State} (h : ∀ t x, Reported t (f t x)) (l : List α) (s : State) :
    Reported s (l.foldl f s) := by
  induction l generalizing s with
  | nil => exact .refl s
  | cons x l ih => exact (h s x).trans (ih _)

/-! ### Messages sent and answered -/

theorem State.logNoPath_reported (s : State) (m : BitVec 8) : Reported s (s.logNoPath m) := by
  unfold State.logNoPath
  split <;> exact ⟨rfl, rfl, rfl, rfl, rfl, rfl⟩

theorem State.inject_reported (s : State) (f : Frame) : Reported s (s.inject f) := by
  unfold State.inject
  split
  · exact ⟨rfl, rfl, rfl, rfl, rfl, rfl⟩
  · split
    · exact ⟨rfl, rfl, rfl, rfl, rfl, rfl⟩
    · exact (s.logNoPath_reported f.dst).trans ⟨rfl, rfl, rfl, rfl, rfl, rfl⟩

theorem State.routed_reported (s : State) (m : BitVec 8) (b : FrameBody) : Reported s (s.routed m b) :=
  (State.inject_reported ..).after ⟨rfl, rfl, rfl, rfl, rfl, rfl⟩

theorem State.send_reported (s : State) (m : Msg) : Reported s (s.send m) := ⟨rfl, rfl, rfl, rfl, rfl, rfl⟩
theorem State.take_reported (s : State) (m : Nat) : Reported s (s.take m) := ⟨rfl, rfl, rfl, rfl, rfl, rfl⟩

theorem State.holdLost_reported (s : State) : Reported s s.holdLost :=
  (Reported.foldl (fun t (f : Frame) => t.logNoPath_reported f.dst) _ s).trans ⟨rfl, rfl, rfl, rfl, rfl, rfl⟩

theorem State.sendSegments_reported (fuel : Nat) (s : State) (n : BitVec 32) (se : Session) (typ : BitVec 8) (body : List Byte) :
    Reported s (s.sendSegments fuel n se typ body).1 := by
  induction fuel generalizing s se body with
  | zero => exact ⟨rfl, rfl, rfl, rfl, rfl, rfl⟩
  | succ fuel ih =>
    rw [State.sendSegments]
    split
    · exact ⟨rfl, rfl, rfl, rfl, rfl, rfl⟩
    · exact (ih _ _ _).after ⟨rfl, rfl, rfl, rfl, rfl, rfl⟩

theorem State.sendMsg_reported (s : State) (n : BitVec 32) (typ : BitVec 8) (body : List Byte) : Reported s (s.sendMsg n typ body) := by
  unfold State.sendMsg
  split
  · exact .refl s
  · exact (State.sendSegments_reported _ s n _ typ body).trans ⟨rfl, rfl, rfl, rfl, rfl, rfl⟩

theorem State.reply_reported (s : State) (n q : BitVec 32) (status : Nat) (body : List Byte) : Reported s (s.reply n q status body) := by
  unfold State.reply
  dsimp only
  split
  · exact s.sendMsg_reported ..
  · exact (s.sendMsg_reported ..).trans ⟨rfl, rfl, rfl, rfl, rfl, rfl⟩

theorem State.sendComplete_reported (s : State) (n : BitVec 32) (i : Instance) : Reported s (s.sendComplete n i) := by
  unfold State.sendComplete
  split
  · exact s.sendMsg_reported ..
  · exact ⟨rfl, rfl, rfl, rfl, rfl, rfl⟩

theorem State.sendFault_reported (s : State) (n : BitVec 32) (i : Instance) (f : FaultInfo) : Reported s (s.sendFault n i f) := by
  unfold State.sendFault
  split
  · exact s.sendMsg_reported ..
  · exact ⟨rfl, rfl, rfl, rfl, rfl, rfl⟩

theorem State.childGone_reported (s : State) (n : BitVec 32) : Reported s (s.childGone n) := by
  unfold State.childGone
  split <;> exact ⟨rfl, rfl, rfl, rfl, rfl, rfl⟩

theorem State.checkComplete_reported (fuel : Nat) (s : State) (n : BitVec 32) : Reported s (s.checkComplete fuel n) := by
  induction fuel generalizing s n with
  | zero =>
    unfold State.checkComplete
    split
    · exact .refl s
    · split
      · dsimp only
        split
        · exact (State.sendComplete_reported _ _ _).after ⟨rfl, rfl, rfl, rfl, rfl, rfl⟩
        · exact (State.childGone_reported _ _).after ⟨rfl, rfl, rfl, rfl, rfl, rfl⟩
      · exact .refl s
  | succ fuel ih =>
    unfold State.checkComplete
    split
    · exact .refl s
    · split
      · dsimp only
        split
        · exact (State.sendComplete_reported _ _ _).after ⟨rfl, rfl, rfl, rfl, rfl, rfl⟩
        · exact (ih _ _).after ((State.childGone_reported _ _).after ⟨rfl, rfl, rfl, rfl, rfl, rfl⟩)
      · exact .refl s

theorem State.settleWait_reported (s : State) : Reported s s.settleWait := by
  unfold State.settleWait
  split
  · exact .refl s
  · split
    · exact (State.reply_reported ..).after ⟨rfl, rfl, rfl, rfl, rfl, rfl⟩
    · exact .refl s

theorem State.ended_reported (s : State) (e : Ending) : Reported s (s.ended e) := by
  unfold State.ended
  extract_lets s1 s2 s3
  have h2 : Reported s1 s2 := by
    simp only [s2]
    split
    · exact .refl s1
    · exact (State.checkComplete_reported ..).after (s1.childGone_reported _)
  have h3 : Reported s2 s3 := ⟨rfl, rfl, rfl, rfl, rfl, rfl⟩
  exact s3.settleWait_reported.after (h3.after (h2.after (s.sendFault_reported ..)))

theorem State.settleEnds_reported (s : State) : Reported s s.settleEnds :=
  (Reported.foldl State.ended_reported _ _).after ⟨rfl, rfl, rfl, rfl, rfl, rfl⟩

theorem State.tellHomes_reported (s : State) (ns : List (BitVec 32)) : Reported s (s.tellHomes ns) :=
  Reported.foldl (fun t _ => t.routed_reported _ _) _ s

/-! ### Strands -/

theorem State.setStrand_steady (s : State) (r : Nat) (v : Strand) : Steady s (s.setStrand r v) := ⟨rfl, rfl, rfl, rfl, fun _ => .refl _⟩

theorem State.die_mapped {s t : State} {f : Die → Die} (h : t.dies = s.dies.map f) (d : BitVec 3) : t.die d = f (s.die d) := by
  simp [State.die, h]

theorem State.unlist_steady (s : State) (r : Nat) : Steady s (s.unlist r) :=
  ⟨rfl, rfl, rfl, rfl, fun d => by rw [State.die_mapped (t := s.unlist r) rfl]; exact ⟨rfl, rfl, fun _ h => h⟩⟩

theorem State.freeTiles_reported (s : State) (r : Nat) : Reported s (s.freeTiles r) := ⟨rfl, rfl, rfl, rfl, rfl, rfl⟩

theorem State.updStrand_steady (s : State) (r : Nat) (f : Strand → Strand) : Steady s (s.updStrand r f) := by
  unfold State.updStrand
  split
  · exact .refl s
  · exact s.setStrand_steady ..

theorem State.dropStrand_steady (s : State) (r : Nat) : Steady s (s.dropStrand r) := by
  unfold State.dropStrand
  split
  · exact .refl s
  · exact ((s.freeTiles_reported r).steady.trans (State.unlist_steady _ r)).trans ⟨rfl, rfl, rfl, rfl, fun _ => .refl _⟩

theorem State.discardStrand_steady (s : State) (r : Nat) : Steady s (s.discardStrand r) := by
  unfold State.discardStrand
  split
  · exact .refl s
  · split
    · exact s.setStrand_steady ..
    · exact s.dropStrand_steady r

theorem State.toDispatcher_steady (s : State) (r : Nat) (c : BitVec 9) : Steady s (s.toDispatcher r c) := by
  unfold State.toDispatcher
  split
  · exact .refl s
  · split
    · exact ⟨rfl, rfl, rfl, rfl, fun _ => .refl _⟩
    · split <;> exact s.setStrand_steady ..

theorem State.leaveCore_steady (s : State) (r : Nat) : Steady s (s.leaveCore r) := by
  unfold State.leaveCore
  split
  · exact .refl s
  · exact (((s.freeTiles_reported r).steady.trans (State.unlist_steady _ r)).trans (State.setStrand_steady ..)).trans
      (State.toDispatcher_steady ..)

theorem State.tellKeep_steady (s : State) (kind : BitVec 8) (ref : Nat) : Steady s (s.tellKeep kind ref) := by
  unfold State.tellKeep
  dsimp only
  split
  · exact s.setStrand_steady ..
  · exact ⟨rfl, rfl, rfl, rfl, fun _ => .refl _⟩

/-! ### Instances that end -/

theorem State.started_steady (s : State) (x : Starting) : Steady s (s.started x) := by
  unfold State.started
  split
  · exact (State.reply_reported ..).steady.after ⟨rfl, rfl, rfl, rfl, fun _ => .refl _⟩
  · have upd (r : Nat) (f : Strand → Strand) : Steady s (({ s with starting := none } : State).updStrand r f) :=
      (State.updStrand_steady _ r f).after ⟨rfl, rfl, rfl, rfl, fun _ => .refl _⟩
    dsimp only
    split
    · exact upd _ _
    · split
      · exact upd _ _
      · exact (upd _ _).trans (State.toDispatcher_steady ..)

/-- Only the queues of ready node instances are thinned out. -/
theorem Die.kept_filterReady (x : Die) (p : BitVec 32 → Bool) : x.Kept { x with ready := x.ready.map fun q => q.filter p } :=
  ⟨rfl, rfl, fun k h => by simp at h ⊢; simp [h]⟩

theorem State.removeInstances_steady (s : State) (ns : List (BitVec 32)) : Steady s (s.removeInstances ns) := by
  unfold State.removeInstances
  extract_lets nodes recs s0 s1 s2 s3 s4 s5
  have h0 : Steady s s0 := (State.tellHomes_reported _ nodes).steady.after ⟨rfl, rfl, rfl, rfl, fun _ => .refl _⟩
  have h1 : Steady s0 s1 := ⟨rfl, rfl, rfl, rfl, fun d => by rw [State.die_mapped (t := s1) rfl]; exact Die.kept_filterReady _ _⟩
  have h2 : Steady s1 s2 := .foldl State.discardStrand_steady _ _
  have h4 : Steady s2 s4 := ⟨rfl, rfl, rfl, rfl, fun _ => .refl _⟩
  have h5 : Steady s4 s5 := by
    simp only [s5]
    split
    · exact .refl _
    · split
      · exact s4.started_steady _
      · exact .refl _
  exact ((((h0.trans h1).trans h2).trans h4).trans h5).trans ⟨rfl, rfl, rfl, rfl, fun _ => .refl _⟩

theorem State.endInstance_steady (s : State) (n : BitVec 32) (f : FaultInfo) : Steady s (s.endInstance n f) := by
  unfold State.endInstance
  split
  · exact .refl s
  · dsimp only
    split
    · exact (s.removeInstances_steady _).trans (State.ended_reported ..).steady
    · exact (s.removeInstances_steady _).trans ⟨rfl, rfl, rfl, rfl, fun _ => .refl _⟩

theorem State.endOwner_steady (s : State) (r : Nat) (cause : BitVec 8) (v : Word) : Steady s (s.endOwner r cause v) := by
  unfold State.endOwner
  split
  · exact .refl s
  · split
    · exact s.dropStrand_steady r
    · exact s.endInstance_steady ..

theorem State.endNode_steady (s : State) (n : BitVec 32) (cause : BitVec 5) (v : Word) : Steady s (s.endNode n cause v) := by
  unfold State.endNode
  split
  · exact .refl s
  · exact s.endInstance_steady ..

theorem State.raise_steady (s : State) (r : Nat) (cause : BitVec 5) (v : Word) : Steady s (s.raise r cause v) := by
  unfold State.raise
  split
  · exact .refl s
  · split
    · exact s.endOwner_steady ..
    · exact s.setStrand_steady ..

theorem State.vacate_steady (s : State) (r : Nat) : Steady s (s.vacate r) := by
  unfold State.vacate
  split
  · exact .refl s
  · split
    · split
      · exact .refl s
      · exact ⟨rfl, rfl, rfl, rfl, fun _ => .refl _⟩
    · exact .refl s

theorem State.die_setDie_other (s : State) {d e : BitVec 3} (v : Die) (h : e ≠ d) : (s.setDie d v).die e = s.die e := by
  have : d.toNat ≠ e.toNat := fun q => h (BitVec.eq_of_toNat_eq q.symm)
  simp [State.die, State.setDie, Vector.getElem_set_ne _ _ this]

/-- One die set to a value that keeps what is kept of it. -/
theorem State.setDie_steady (s : State) (d : BitVec 3) (v : Die) (h : (s.die d).Kept v) : Steady s (s.setDie d v) :=
  ⟨rfl, rfl, rfl, rfl, fun e => by
    by_cases he : e = d
    · subst he; rw [State.die_setDie_same]; exact h
    · rw [State.die_setDie_other _ _ he]; exact .refl _⟩

theorem State.setFaultq_steady (s : State) (d : BitVec 3) (q : List Nat) : Steady s (s.setDie d { s.die d with faultq := q }) :=
  s.setDie_steady d _ ⟨rfl, rfl, fun _ h => h⟩

theorem State.toFaultQueue_steady (s : State) (r : Nat) (v : Word) (need : Need) : Steady s (s.toFaultQueue r v need) := by
  unfold State.toFaultQueue
  split
  · exact .refl s
  · exact (State.tellKeep_steady ..).after ((State.setFaultq_steady _ _ _).after
      ((State.updStrand_steady ..).after ((State.vacate_steady _ r).after (s.setStrand_steady ..))))

theorem State.setCore_reported (s : State) (k : BitVec 13) (v : Core) : Reported s (s.setCore k v) := ⟨rfl, rfl, rfl, rfl, rfl, rfl⟩
theorem State.abandon_reported (s : State) (r : Nat) : Reported s (s.abandon r) := ⟨rfl, rfl, rfl, rfl, rfl, rfl⟩

theorem State.withdraw_steady (s : State) (r : Nat) : Steady s (s.withdraw r) := by
  unfold State.withdraw
  split
  · exact .refl s
  · exact (State.setStrand_steady ..).after ((State.abandon_reported _ r).after (s.setCore_reported ..)).steady

theorem State.decideTongs_steady (s : State) (r : Nat) : Steady s (s.decideTongs r) := by
  unfold State.decideTongs
  split
  · exact .refl s
  split
  · split
    · exact .refl s
    dsimp only
    split
    · exact (s.withdraw_steady r).trans (State.raise_steady ..)
    · exact (s.withdraw_steady r).trans (State.toFaultQueue_steady ..)
    · exact (s.withdraw_steady r).trans (State.raise_steady ..)
    · exact (s.withdraw_steady r).trans (State.raise_steady ..)
    · exact (s.withdraw_steady r).trans (State.updStrand_steady ..)
    · exact (s.withdraw_steady r).trans (State.raise_steady ..)
    · exact s.withdraw_steady r
  · exact .refl s

theorem State.pinReply_steady (s : State) (r i : Nat) (x : Pin) : Steady s (s.pinReply r i x) := by
  unfold State.pinReply
  split
  · exact .refl s
  · split
    · exact (s.setStrand_steady ..).trans (State.decideTongs_steady ..)
    · exact .refl s

/-! ### Homes -/

theorem State.tally_reported (s : State) (home t : Nat) (b : BitVec 2) (x : Sum) : Reported s (s.tally home t b x) := by
  unfold State.tally
  split <;> exact ⟨rfl, rfl, rfl, rfl, rfl, rfl⟩

theorem State.tallyOp_reported (s : State) (o : Op) (bits : BitVec 16) (cause : BitVec 5) : Reported s (s.tallyOp o bits cause) := by
  unfold State.tallyOp
  split
  · exact s.tally_reported ..
  · exact .refl s

theorem State.tallyMerge_reported (s : State) (w : Op) : Reported s (s.tallyMerge w) := by
  unfold State.tallyMerge
  extract_lets x
  split
  · exact s.tally_reported ..
  · split
    · exact s.routed_reported ..
    · exact s.tally_reported ..
  · split
    · exact s.tally_reported ..
    · exact .refl s

theorem State.mergeFailed_reported (s : State) (whole : Bool) (b : Block) (first : Option Op) :
    Reported s (s.mergeFailed whole b first) := by
  unfold State.mergeFailed
  split
  · exact .refl s
  · split
    · exact s.tallyMerge_reported _
    · exact s.tallyMerge_reported _
    · exact .refl s

theorem State.trace_reported (s : State) (cl : BitVec 9) (n : TraceNote) : Reported s (s.trace cl n) := ⟨rfl, rfl, rfl, rfl, rfl, rfl⟩

theorem State.wakeStub_reported (s : State) (p : Place) (x : Stub) (cause : Option (BitVec 5)) : Reported s (s.wakeStub p x cause) := by
  unfold State.wakeStub
  split
  · exact s.send_reported _
  · exact s.send_reported _
  · exact s.send_reported _
  · exact s.routed_reported ..
  · exact .refl s
  · exact s.send_reported _
  · exact s.routed_reported ..

theorem State.answer_reported (s : State) (o : Op) (r : Reply) : Reported s (s.answer o r) := by
  unfold State.answer
  split
  · exact s.routed_reported ..
  · exact s.send_reported _

theorem State.loseWatcher_steady (s : State) (x : Stub) : Steady s (s.loseWatcher x) := by
  unfold State.loseWatcher
  split
  · exact s.endNode_steady ..
  · exact (s.routed_reported ..).steady
  · exact .refl s

theorem State.spread_steady (s : State) (cl : BitVec 9) (p : Place) (a : Act) : Steady s (s.spread cl p a) :=
  (Steady.foldl State.loseWatcher_steady _ _).after
    ((Reported.foldl (fun t _ => t.tallyOp_reported ..) _ _).after
      ((Reported.foldl (fun t _ => t.wakeStub_reported ..) _ _).after (Reported.foldl (fun t _ => t.trace_reported ..) _ s))).steady

theorem State.setLineMeta_reported (s : State) (blk n : Nat) (v : BitVec 16) : Reported s (s.setLineMeta blk n v) :=
  ⟨rfl, rfl, rfl, rfl, rfl, rfl⟩

theorem State.setCluster_reported (s : State) (c : BitVec 9) (v : Cluster) : Reported s (s.setCluster c v) := ⟨rfl, rfl, rfl, rfl, rfl, rfl⟩

theorem State.writeState_reported (s : State) (blk : Nat) (b : Block) (l : Bool) : Reported s (s.writeState blk b l) := by
  unfold State.writeState
  extract_lets s0 s1 m s2 s3 cl s4
  have h1 : Reported s s1 := (State.setLineMeta_reported ..).after
      ((s0.setLineMeta_reported blk 0 (b.pw l)).after ⟨rfl, rfl, rfl, rfl, rfl, rfl⟩)
  clear_value s1
  have h2 : Reported s1 s2 := .foldl (fun t _ => t.setLineMeta_reported ..) _ _
  clear_value s2
  have h3 : Reported s2 s3 := .after (State.setLineMeta_reported ..)
    (.after (State.setLineMeta_reported ..) (s2.setLineMeta_reported blk 34 (b.mode.zeroExtend 16)))
  clear_value s3
  have h4 : Reported s3 s4 := (s3.setLineMeta_reported blk 37 (b.qrem ++ b.qarmed)).trans (State.setCluster_reported _ cl _)
  clear_value s4
  exact (((h1.trans h2).trans h3).trans h4).trans ⟨rfl, rfl, rfl, rfl, rfl, rfl⟩

theorem State.writeBack_reported (s : State) (blk : Nat) (b : Block) (l : Bool) : Reported s (s.writeBack blk b l) := by
  unfold State.writeBack
  extract_lets s1
  have h1 : Reported s s1 := by simp only [s1]; split <;> exact ⟨rfl, rfl, rfl, rfl, rfl, rfl⟩
  exact h1.trans (s1.writeState_reported ..)

theorem State.poisonBlock_steady (s : State) (cl : BitVec 9) (blk : Nat) (b : Block) (destroyed : Bool) (gone : List Stub) :
    Steady s (s.poisonBlock cl blk b destroyed gone) := by
  unfold State.poisonBlock
  split
  · exact .refl s
  · extract_lets a c log s1
    have h1 : Reported s s1 := by
      simp only [s1]
      split <;> exact (State.writeState_reported ..).after ⟨rfl, rfl, rfl, rfl, rfl, rfl⟩
    exact h1.steady.trans (s1.spread_steady ..)

end Sys2Proof.Machine
end

section
/-!
PROOF. The loss of a die, and the work that makes way for a test or a retired cluster (R372, R375, R376).
-/
namespace Sys2Proof.Machine

/-! ### The loss of a die -/

theorem State.moveCount_reported (s : State) (o : Op) (d : BitVec 3) : Reported s (s.moveCount o d) := by
  unfold State.moveCount
  extract_lets old new
  split
  · exact .refl s
  split
  · exact .refl s
  extract_lets b
  split
  · exact .refl s
  · exact ⟨rfl, rfl, rfl, rfl, rfl, rfl⟩

theorem State.rehomeAll_steady (s : State) (d : BitVec 3) : Steady s (s.rehomeAll d) := by
  unfold State.rehomeAll
  extract_lets ops s1 asked
  have h : Reported s s1 := .foldl (fun t o => t.moveCount_reported o d) _ _
  exact h.steady.trans ⟨rfl, rfl, rfl, rfl, fun _ => .refl _⟩

theorem State.rehomeBlock_steady (s : State) (d : BitVec 3) (blk : Nat) (x : Resident) : Steady s (s.rehomeBlock d blk x) := by
  unfold State.rehomeBlock
  extract_lets h b cl
  split
  · exact s.spread_steady ..
  split
  · exact (State.spread_steady ..).after (s.writeBack_reported ..).steady
  · exact (State.spread_steady ..).after (s.writeState_reported ..).steady

theorem State.loseLog_steady (s : State) (blk : Nat) (l : Log) : Steady s (s.loseLog blk l) :=
  (State.spread_steady ..).after (s.writeState_reported ..).steady

theorem State.losePad_steady (s : State) (cl : BitVec 9) (slot : Nat) (b : Block) : Steady s (s.losePad cl slot b) :=
  s.spread_steady ..

theorem State.loseClusters_steady (s : State) (d : BitVec 3) (old : FMap Cluster) : Steady s (s.loseClusters d old) :=
  Steady.foldl (fun t p => by
    split
    · exact .refl t
    · exact (Steady.foldl (fun u _ => u.loseLog_steady ..) _ _).after ((Steady.foldl (fun u _ => u.losePad_steady ..) _ _).after
        (Steady.foldl (fun u _ => u.rehomeBlock_steady ..) _ t))) old s

theorem State.failCmd_reported (s : State) (cl : BitVec 9) (c : CopyCmd) (bits : BitVec 16) (h : Word) :
    Reported s (s.failCmd cl c bits h) :=
  (Reported.foldl (fun t _ => t.tally_reported ..) _ _).after ⟨rfl, rfl, rfl, rfl, rfl, rfl⟩

theorem State.loseRequest_steady (s : State) (m : Nat) (o : Op) : Steady s (s.loseRequest m o) := by
  have taken : Reported s ((s.take m).unack o.unit o.seq) := ⟨rfl, rfl, rfl, rfl, rfl, rfl⟩
  unfold State.loseRequest
  split
  · exact taken.steady.trans (State.toFaultQueue_steady ..)
  · exact taken.steady.trans (State.pinReply_steady ..)
  · split
    · exact (s.take_reported m).steady
    · exact (taken.trans (State.failCmd_reported ..)).steady
  · exact ((State.tallyOp_reported ..).after ((State.answer_reported ..).after (s.take_reported m))).steady

theorem State.losePads_steady (s : State) (gone : BitVec 9 → Bool) : Steady s (s.losePads gone) :=
  Steady.foldl (fun t p => by
    split
    · split
      · split
        · exact t.loseRequest_steady ..
        · exact .refl t
      · exact .refl t
    · exact .refl t) _ s

theorem State.shootdown_reported (s : State) (vbn : Option (BitVec 37)) : Reported s (s.shootdown vbn) := ⟨rfl, rfl, rfl, rfl, rfl, rfl⟩

theorem State.endOnDie_steady (s : State) (d : BitVec 3) (word : Word) : Steady s (s.endOnDie d word) := by
  unfold State.endOnDie
  extract_lets s1
  have h : Steady s s1 := .foldl (fun t p => by
    split
    · exact .refl t
    · exact t.endNode_steady ..) _ _
  exact (State.settleEnds_reported _).steady.after ((Steady.foldl (fun t _ => t.dropStrand_steady _) _ _).after h)

/-- What the loss of die `d` leaves of the dies, the translations, the tests and the retired clusters. -/
structure DieLost (d : BitVec 3) (s t : State) : Prop where
  tests : t.tests = s.tests
  badClusters : t.badClusters = s.badClusters
  dead : (t.die d).alive = false
  secondPort : (t.die d).secondPort = true
  ready : ∀ k : Fin 4, (t.die d).ready[k] = []
  tlb : ∀ c, (t.cluster c).tlb = []
  others : ∀ e, (s.die e).alive = false → (t.die e).alive = false

theorem State.shootdown_tlb (s : State) (c : BitVec 9) : ((s.shootdown none).cluster c).tlb = [] := by
  simp only [State.cluster, State.shootdown, Maps.getD, Maps.get_map]
  cases Maps.get s.clusters c.toNat <;> rfl

theorem State.loseDie_lost (s : State) (d : BitVec 3) : DieLost d s (s.loseDie d) := by
  unfold State.loseDie
  extract_lets u word s0 s1 dead _ s2 old s3
  have h0 : Steady (s.logError word 0 3 2 (s.die d).cycle) s0 := State.tellKeep_steady ..
  clear_value s0
  have h1 : Steady (s.logError word 0 3 2 (s.die d).cycle) s1 := h0.trans (s0.endOnDie_steady d word)
  clear_value s1
  have die2 : s2.die d = { s1.die d with alive := false, secondPort := true, ready := Vector.replicate 4 [], faultq := [], proxy := [] } :=
    s1.die_setDie_same ..
  have dead2 (e) (he : (s.die e).alive = false) : (s2.die e).alive = false := by
    by_cases hed : e = d
    · rw [hed, die2]
    · rw [show s2.die e = s1.die e from s1.die_setDie_other _ hed]
      exact (h1.dies e).alive.trans he
  have tests2 : s2.tests = s.tests := h1.tests
  have bad2 : s2.badClusters = s.badClusters := h1.badClusters
  clear_value s2
  have h3 : Steady s2 s3 := ⟨rfl, rfl, rfl, rfl, fun _ => .refl _⟩
  clear_value s3
  have h4 : Steady s2 ((((s3.rehomeAll d).losePads fun c => clusterDie c == d).loseClusters d old).shootdown none) :=
    (State.shootdown_reported _ none).steady.after ((State.loseClusters_steady ..).after ((State.losePads_steady ..).after
      ((s3.rehomeAll_steady d).after h3)))
  exact
    { tests := h4.tests.trans tests2
      badClusters := h4.badClusters.trans bad2
      dead := (h4.dies d).alive.trans (by rw [die2])
      secondPort := (h4.dies d).secondPort.trans (by rw [die2])
      ready := fun k => (h4.dies d).ready k (by rw [die2]; simp)
      tlb := State.shootdown_tlb _
      others := fun e he => (h4.dies e).alive.trans (dead2 e he) }

/-! ### Work that makes way -/

theorem State.storeRec_steady (s : State) (r : Nat) : Steady s (s.storeRec r) := by
  unfold State.storeRec
  split
  · exact .refl s
  · split
    · exact (State.setStrand_steady ..).after ((State.unlist_steady _ r).after (s.freeTiles_reported r).steady)
    · exact s.setStrand_steady ..

theorem State.storeFaulted_steady (s : State) (r : Nat) : Steady s (s.storeFaulted r) := by
  unfold State.storeFaulted
  split
  · exact .refl s
  · extract_lets _ s1
    have h1 : Steady s s1 := by simp only [s1]; split <;> exact ⟨rfl, rfl, rfl, rfl, fun _ => .refl _⟩
    exact h1.trans (State.setStrand_steady ..)

theorem State.stop_steady (s : State) (r : Nat) : Steady s (s.stop r) := by
  unfold State.stop
  split
  · exact .refl s
  next st _ =>
  have here : Steady s (s.setStrand r { st with wait := .run }) := s.setStrand_steady ..
  split
  · exact .refl s
  · exact .refl s
  · exact here
  · split
    · exact here.trans (State.abandon_reported _ r).steady
    · exact s.storeRec_steady r
  · split
    · exact .refl s
    · exact s.withdraw_steady r
  · exact s.storeRec_steady r
  · exact here
  · exact s.storeRec_steady r
  · exact s.storeRec_steady r
  · exact s.storeRec_steady r
  · exact here
  · exact here
  · exact s.storeRec_steady r
  · exact s.storeFaulted_steady r
  · exact here

theorem State.evacuate_steady (s : State) (r : Nat) : Steady s (s.evacuate r) := by
  unfold State.evacuate
  extract_lets s1
  have h1 : Steady s s1 := s.stop_steady r
  split
  · exact h1
  · split
    · exact h1.trans (s1.leaveCore_steady r)
    · exact h1

theorem State.evacuateAnvil_steady (s : State) (a : BitVec 11) : Steady s (s.evacuateAnvil a) :=
  Steady.foldl (fun t p => by
    split
    · exact t.evacuate_steady _
    · split
      · exact t.withdraw_steady _
      · exact .refl t) _ s

theorem State.quenchInst_steady (s : State) (n : BitVec 32) (waits : List (BitVec 32)) : Steady s (s.quenchInst n waits) := by
  unfold State.quenchInst
  split
  · exact .refl s
  · exact (Steady.foldl State.stop_steady _ _).after ⟨rfl, rfl, rfl, rfl, fun _ => .refl _⟩

theorem State.moveAside_steady (s : State) (u : UnitId) : Steady s (s.moveAside u) := by
  unfold State.moveAside
  split
  · exact Steady.foldl State.evacuate_steady _ s
  · exact s.evacuateAnvil_steady _
  · exact Steady.foldl (fun t n => t.quenchInst_steady n []) _ s
  · exact Steady.foldl (fun t n => t.quenchInst_steady n []) _ s
  · exact (State.holdLost_reported _).steady.after ⟨rfl, rfl, rfl, rfl, fun _ => .refl _⟩
  · exact .refl s

theorem State.leaveCluster_steady (s : State) (cl : BitVec 9) :
    Steady { s with badClusters := s.badClusters ++ [cl.toNat] } (s.leaveCluster cl) := by
  unfold State.leaveCluster
  extract_lets pads _ s1 s2 c rs s3
  have h1 : Steady { s with badClusters := s.badClusters ++ [cl.toNat] } s1 := ⟨rfl, rfl, rfl, rfl, fun _ => .refl _⟩
  have h2 : Steady s1 s2 := (Steady.foldl (fun t _ => t.losePad_steady ..) _ _).after (s1.losePads_steady _)
  split
  · exact h1.trans h2
  · have h3 : Steady s2 s3 := .foldl (fun t r => by
      extract_lets t1
      have moved : Steady t t1 := t.evacuate_steady r
      split
      · exact moved
      · split
        · exact (State.setStrand_steady ..).after ((t1.unlist_steady r).after moved)
        · exact moved.trans (t1.setStrand_steady ..)) _ _
    exact ((h1.trans h2).trans h3).trans ⟨rfl, rfl, rfl, rfl, fun _ => .refl _⟩

end Sys2Proof.Machine
end

section
/-!
PROOF. Bring-up: each step of R380, by what STAGE shows (R381 to R386).
-/
namespace Sys2Proof.Machine

/-! ### Bring-up: the flash copies -/

/-- Verifying a component writes MEASURE or FAIL, and nothing else. -/
theorem State.verify_spec (s : State) (copy : List Component) (n : Fin 8) :
    ∃ m f, s.verify copy n = { s with measure := m, boot := { s.boot with fail := f } } := by
  unfold State.verify
  split
  · exact ⟨_, s.boot.fail, rfl⟩
  · exact ⟨s.measure, _, rfl⟩

theorem State.verify_of_ok {s : State} {copy : List Component} {n : Fin 8} (h : s.componentFail copy n.val = 0) :
    s.verify copy n = { s with measure := s.measure.set n.val (shake32 ((copy[n.val]?).elim [] Component.bytes)) n.isLt } := by
  simp only [State.verify, h, if_true]

theorem State.verify_of_fail {s : State} {copy : List Component} {n : Fin 8} (h : s.componentFail copy n.val ≠ 0) :
    s.verify copy n = { s with boot := { s.boot with fail := s.componentFail copy n.val } } := by
  simp only [State.verify, h, if_false]

/-- Whether a component verifies depends on ROLLBACK alone. -/
theorem State.componentFail_congr {s t : State} (h : t.rollback = s.rollback) : t.componentFail = s.componentFail := by
  funext copy n
  simp only [State.componentFail, h]

@[simp] theorem State.verify_rollback (s : State) (copy : List Component) (n : Fin 8) : (s.verify copy n).rollback = s.rollback := by
  obtain ⟨m, f, h⟩ := s.verify_spec copy n
  rw [h]

@[simp] theorem State.componentFail_verify (s : State) (copy : List Component) (n : Fin 8) :
    (s.verify copy n).componentFail = s.componentFail := State.componentFail_congr (s.verify_rollback copy n)

/-- The registers of the fabric and the fuses, which verifying leaves as they were read. -/
structure SameFuses (s t : State) : Prop where
  modNo : t.modNo = s.modNo
  modSet : t.modSet = s.modSet
  leader : t.leader = s.leader
  domain : t.domain = s.domain
  rollback : t.rollback = s.rollback

theorem SameFuses.trans {s t u : State} (h : SameFuses s t) (h' : SameFuses t u) : SameFuses s u :=
  ⟨h'.modNo.trans h.modNo, h'.modSet.trans h.modSet, h'.leader.trans h.leader, h'.domain.trans h.domain, h'.rollback.trans h.rollback⟩

theorem State.verify_sameFuses (s : State) (copy : List Component) (n : Fin 8) : SameFuses s (s.verify copy n) := by
  obtain ⟨m, f, h⟩ := s.verify_spec copy n
  rw [h]
  exact ⟨rfl, rfl, rfl, rfl, rfl⟩

theorem State.runStage1_sameFuses (s : State) (b : Bool) (copy : List Component) : SameFuses s (s.runStage1 b copy) :=
  (s.verify_sameFuses copy 0).trans ⟨rfl, rfl, rfl, rfl, rfl⟩

theorem State.tryCopyB_sameFuses (s : State) (o : BootOutcome) : SameFuses s (s.tryCopyB o) := by
  unfold State.tryCopyB
  split
  · exact s.runStage1_sameFuses ..
  · exact (s.verify_sameFuses o.copyB 0).trans ⟨rfl, rfl, rfl, rfl, rfl⟩

theorem State.bootRom_sameFuses (s : State) (o : BootOutcome) : SameFuses s.readFuses (s.bootRom o) := by
  unfold State.bootRom
  extract_lets s1
  split
  · exact s1.runStage1_sameFuses ..
  · exact (s1.verify_sameFuses o.copyA 0).trans (State.tryCopyB_sameFuses ..)

/-- The stage-1 component that verifies runs, and is measured. -/
theorem State.runStage1_of_ok {s : State} {copy : List Component} (b : Bool) (h : s.componentFail copy 0 = 0) :
    (s.runStage1 b copy).boot = { s.boot with stage := 1, copyB := b, floor := (copy[0]?).elim 0 Component.floor } ∧
      (s.runStage1 b copy).measure[0] = shake32 ((copy[0]?).elim [] Component.bytes) := by
  have hv := State.verify_of_ok (n := 0) h
  constructor
  · rw [State.runStage1, hv]
  · simp only [State.runStage1, hv]
    exact Vector.getElem_set_self _

theorem State.tryCopyB_of_ok {s : State} {o : BootOutcome} (h : s.componentFail o.copyB 0 = 0) :
    s.tryCopyB o = s.runStage1 true o.copyB := by
  rw [State.tryCopyB, if_pos h]

theorem State.tryCopyB_of_fail {s : State} {o : BootOutcome} (h : s.componentFail o.copyB 0 ≠ 0) :
    (s.tryCopyB o).boot = { s.boot with stage := 15, fail := s.componentFail o.copyB 0 } := by
  rw [State.tryCopyB, if_neg h, State.verify_of_fail (n := 0) h]
  rfl

theorem State.bootRom_of_fail {s : State} {o : BootOutcome} (h : s.readFuses.componentFail o.copyA 0 ≠ 0) :
    s.bootRom o = (s.readFuses.verify o.copyA 0).tryCopyB o := if_neg h

theorem State.bootRom_copyA {s : State} {o : BootOutcome} (h : s.readFuses.componentFail o.copyA 0 = 0) :
    (s.bootRom o).boot = { s.boot with stage := 1, copyB := false, floor := (o.copyA[0]?).elim 0 Component.floor } ∧
      (s.bootRom o).measure[0] = shake32 ((o.copyA[0]?).elim [] Component.bytes) := by
  have hr : s.bootRom o = s.readFuses.runStage1 false o.copyA := if_pos h
  rw [hr]
  exact State.runStage1_of_ok false h

theorem State.bootRom_copyB {s : State} {o : BootOutcome} (hA : s.readFuses.componentFail o.copyA 0 ≠ 0)
    (hB : s.readFuses.componentFail o.copyB 0 = 0) :
    (s.bootRom o).boot = { s.boot with
        stage := 1, copyB := true, fail := s.readFuses.componentFail o.copyA 0, floor := (o.copyB[0]?).elim 0 Component.floor } ∧
      (s.bootRom o).measure[0] = shake32 ((o.copyB[0]?).elim [] Component.bytes) := by
  have hv : (s.readFuses.verify o.copyA 0).componentFail o.copyB 0 = 0 := by rw [State.componentFail_verify, hB]
  obtain ⟨hb, hm⟩ := State.runStage1_of_ok true hv
  rw [State.bootRom_of_fail hA, State.tryCopyB_of_ok hv]
  refine ⟨hb.trans ?_, hm⟩
  rw [State.verify_of_fail (n := 0) hA]
  rfl

theorem State.bootRom_recovery {s : State} {o : BootOutcome} (hA : s.readFuses.componentFail o.copyA 0 ≠ 0)
    (hB : s.readFuses.componentFail o.copyB 0 ≠ 0) :
    (s.bootRom o).boot = { s.boot with stage := 15, fail := s.readFuses.componentFail o.copyB 0 } := by
  have hv := s.readFuses.componentFail_verify o.copyA 0
  rw [State.bootRom_of_fail hA, State.tryCopyB_of_fail (by rw [hv]; exact hB), hv, State.verify_of_fail (n := 0) hA]
  rfl

/-! ### Bring-up: step 1 -/

/-- The components of a copy after the first. -/
theorem forall_later (p : Nat → Prop) : (∀ n ∈ ([1, 2, 3, 4, 5] : List (Fin 8)), p n.val) ↔ ∀ n : Fin 5, p (n.val + 1) := by
  simp [Fin.forall_fin_succ]
theorem exists_later (p : Nat → Prop) : (∃ n ∈ ([1, 2, 3, 4, 5] : List (Fin 8)), p n.val) ↔ ∃ n : Fin 5, p (n.val + 1) := by
  simp [Fin.exists_fin_succ]

theorem State.verifyAll_rollback (s : State) (copy : List Component) (l : List (Fin 8)) :
    (l.foldl (fun (t : State) n => t.verify copy n) s).rollback = s.rollback := by
  induction l generalizing s with
  | nil => rfl
  | cons n l ih => exact (ih _).trans (s.verify_rollback copy n)

/-- When all of them verify, all are measured, and BOOTSTATUS stands. -/
theorem State.verifyAll_of_ok {s : State} {copy : List Component} {l : List (Fin 8)} (h : ∀ n ∈ l, s.componentFail copy n.val = 0) :
    (l.foldl (fun (t : State) n => t.verify copy n) s).boot = s.boot ∧
      ∀ n : Fin 8, n ∈ l ∨ s.measure[n] = shake32 ((copy[n.val]?).elim [] Component.bytes) →
        (l.foldl (fun (t : State) n => t.verify copy n) s).measure[n] = shake32 ((copy[n.val]?).elim [] Component.bytes) := by
  induction l generalizing s with
  | nil => exact ⟨rfl, fun n hn => hn.resolve_left (List.not_mem_nil)⟩
  | cons a l ih =>
    have hv := State.verify_of_ok (h a (List.mem_cons_self ..))
    obtain ⟨hb, hm⟩ := ih (s := s.verify copy a) fun n hn => by
      rw [State.componentFail_verify]; exact h n (List.mem_cons_of_mem _ hn)
    refine ⟨hb.trans (by rw [hv]), fun n hn => hm n ?_⟩
    by_cases hna : n = a
    · right
      rw [hv, hna]
      exact Vector.getElem_set_self _
    · refine hn.imp (fun h => (List.mem_cons.1 h).resolve_left hna) fun hs => ?_
      rw [hv]
      exact (Vector.getElem_set_ne a.isLt n.isLt fun e => hna (Fin.ext e.symm)).trans hs

/-- When one of them does not, FAIL holds the reason of the last that does not. -/
theorem State.verifyAll_fail {s : State} {copy : List Component} {l : List (Fin 8)} (h : ∃ n ∈ l, s.componentFail copy n.val ≠ 0) :
    ∃ n ∈ l, (l.foldl (fun (t : State) n => t.verify copy n) s).boot.fail = s.componentFail copy n.val ∧ s.componentFail copy n.val ≠ 0 :=
        by
  induction l using List.reverseRecOn with
  | nil => simp at h
  | append_singleton l a ih =>
    have hf := State.componentFail_congr (s.verifyAll_rollback copy l)
    rw [List.foldl_concat]
    by_cases ha : s.componentFail copy a.val = 0
    · obtain ⟨n, hn, hs⟩ := ih (by simpa [ha, or_and_right, exists_or] using h)
      rw [State.verify_of_ok (by rw [hf, ha])]
      exact ⟨n, List.mem_append_left _ hn, hs⟩
    · rw [State.verify_of_fail (by rw [hf]; exact ha), hf]
      exact ⟨a, by simp, rfl, ha⟩

/-- The copy that runs. -/
def State.copyRun (s : State) (o : BootOutcome) : List Component := if s.boot.copyB then o.copyB else o.copyA

/-- Its other components verified, one after the other. -/
def State.verifyLater (s : State) (o : BootOutcome) : State :=
  ([1, 2, 3, 4, 5] : List (Fin 8)).foldl (fun (t : State) n => t.verify (s.copyRun o) n) s

theorem State.bootKeep_of_ok {s : State} {o : BootOutcome} (h : ∀ n : Fin 5, s.componentFail (s.copyRun o) (n.val + 1) = 0) :
    (s.bootKeep o).boot = { s.boot with stage := 2 } ∧
      ∀ n : Fin 5, (s.bootKeep o).measure[n.val + 1] = shake32 (((s.copyRun o)[n.val + 1]?).elim [] Component.bytes) := by
  have hl := (forall_later fun n => s.componentFail (s.copyRun o) n = 0).2 h
  obtain ⟨hb, hm⟩ := State.verifyAll_of_ok hl
  have hall : ([1, 2, 3, 4, 5].all fun n => s.componentFail (s.copyRun o) n == 0) = true := by
    simpa [Fin.forall_fin_succ] using h
  have hk : s.bootKeep o = { s.verifyLater o with boot := { (s.verifyLater o).boot with stage := 2 } } := if_pos hall
  rw [hk]
  refine ⟨congrArg (fun b : Boot => { b with stage := 2 }) hb, fun n => hm ⟨n.val + 1, by omega⟩ (.inl ?_)⟩
  revert n
  decide

theorem State.bootKeep_of_fail {s : State} {o : BootOutcome} (h : ¬∀ n : Fin 5, s.componentFail (s.copyRun o) (n.val + 1) = 0) :
    s.bootKeep o = if s.boot.copyB then (s.verifyLater o).recover
      else (s.verifyLater o).tryCopyB o := by
  have hall : ([1, 2, 3, 4, 5].all fun n => s.componentFail (s.copyRun o) n == 0) ≠ true := by
    simpa [Fin.forall_fin_succ] using h
  exact if_neg hall

theorem State.bootKeep_recovery {s : State} {o : BootOutcome} (h : ¬∀ n : Fin 5, s.componentFail (s.copyRun o) (n.val + 1) = 0)
    (hB : s.boot.copyB = true) :
    (s.bootKeep o).boot.stage = 15 ∧
      ∃ n : Fin 5, (s.bootKeep o).boot.fail = s.componentFail (s.copyRun o) (n.val + 1) ∧ (s.bootKeep o).boot.fail ≠ 0 := by
  rw [State.bootKeep_of_fail h, if_pos hB]
  have bad := (exists_later fun n => s.componentFail (s.copyRun o) n ≠ 0).2 (not_forall.1 h)
  obtain ⟨n, hn, hf, h0⟩ := State.verifyAll_fail bad
  obtain ⟨m, hm⟩ := (exists_later fun n => (s.verifyLater o).boot.fail =
      s.componentFail (s.copyRun o) n ∧ s.componentFail (s.copyRun o) n ≠ 0).1 ⟨n, hn, hf, h0⟩
  exact ⟨rfl, m, hm.1, fun e => hm.2 (hm.1.symm.trans e)⟩

theorem State.tryCopyB_boot (s : State) (o : BootOutcome) :
    (s.tryCopyB o).boot.copyB = (s.boot.copyB || decide (s.componentFail o.copyB 0 = 0)) ∧
      (s.tryCopyB o).boot.stage = if s.componentFail o.copyB 0 = 0 then 1 else 15 := by
  by_cases h : s.componentFail o.copyB 0 = 0
  · rw [State.tryCopyB_of_ok h, (State.runStage1_of_ok true h).1, if_pos h, decide_eq_true h, Bool.or_true]
    exact ⟨rfl, rfl⟩
  · rw [State.tryCopyB_of_fail h, if_neg h, decide_eq_false h, Bool.or_false]
    exact ⟨rfl, rfl⟩

theorem State.verifyAll_copyB (s : State) (copy : List Component) (l : List (Fin 8)) :
    (l.foldl (fun (t : State) n => t.verify copy n) s).boot.copyB = s.boot.copyB := by
  induction l generalizing s with
  | nil => rfl
  | cons n l ih =>
    obtain ⟨m, f, h⟩ := s.verify_spec copy n
    have hv : (s.verify copy n).boot.copyB = s.boot.copyB := by rw [h]
    exact (ih _).trans hv

theorem State.bootKeep_copyA {s : State} {o : BootOutcome} (h : ¬∀ n : Fin 5, s.componentFail (s.copyRun o) (n.val + 1) = 0)
    (hA : s.boot.copyB = false) :
    (s.bootKeep o).boot.copyB = decide (s.componentFail o.copyB 0 = 0) ∧
      (s.bootKeep o).boot.stage = if s.componentFail o.copyB 0 = 0 then 1 else 15 := by
  have hc : (s.verifyLater o).boot.copyB = s.boot.copyB := s.verifyAll_copyB ..
  have hf : (s.verifyLater o).componentFail = s.componentFail := State.componentFail_congr (s.verifyAll_rollback ..)
  rw [State.bootKeep_of_fail h, if_neg (by rw [hA]; decide)]
  obtain ⟨hb, hs⟩ := (s.verifyLater o).tryCopyB_boot o
  rw [hf, hc, hA, Bool.false_or] at hb
  rw [hf] at hs
  exact ⟨hb, hs⟩

/-! ### Bring-up: dies, tables and fibres -/

theorem cluster_of_parts (c : BitVec 9) : clusterDie c ++ BitVec.ofNat 6 (c.toNat % 64) = c := by
  refine BitVec.eq_of_toNat_eq ((BitVec.toNat_append _ _).trans ?_)
  rw [Nat.shiftLeft_eq, ← Nat.mul_comm, ← Nat.two_pow_add_eq_or_of_lt (by simp; omega)]
  simp [clusterDie, BitVec.extractLsb'_toNat, Nat.shiftRight_eq_div_pow]
  omega

theorem mem_dieClusters (c : BitVec 9) (d : BitVec 3) : c ∈ dieClusters d ↔ clusterDie c = d := by
  simp only [dieClusters, List.mem_map, List.mem_range]
  constructor
  · rintro ⟨i, -, rfl⟩
    exact BitVec.extractLsb'_append_eq_left
  · rintro rfl
    exact ⟨c.toNat % 64, Nat.mod_lt _ (by decide), cluster_of_parts c⟩

/-- A die is up after a step that tests it: it stood, passes, and has a cluster in service. -/
def State.dieUp (s : State) (up : BitVec 8) (i : Fin 8) : Prop :=
  (s.dies[i]).alive = true ∧ up.getLsbD i.val = true ∧ ∃ c : BitVec 9, (clusterDie c).toNat = i.val ∧ s.inService c = true

theorem State.passDies_die (s : State) (up : BitVec 8) (i : Fin 8) :
    (((s.passDies up).dies[i]).alive = true ↔ s.dieUp up i) ∧ (((s.passDies up).dies[i]).secondPort = true ↔ ¬s.dieUp up i) := by
  have hc : (dieClusters (BitVec.ofNat 3 i.val)).any s.inService = true ↔ ∃ c : BitVec 9, (clusterDie c).toNat = i.val ∧
      s.inService c = true := by
    have he (c : BitVec 9) : clusterDie c = BitVec.ofNat 3 i.val ↔ (clusterDie c).toNat = i.val := by
      rw [← BitVec.toNat_inj, BitVec.toNat_ofNat, Nat.mod_eq_of_lt (by omega)]
    simp only [List.any_eq_true, mem_dieClusters, he]
  have ha : (s.passDies up).dies[i] = { s.dies[i] with
      alive := (s.dies[i]).alive && up.getLsbD i.val && (dieClusters (BitVec.ofNat 3 i.val)).any s.inService
      secondPort := !((s.dies[i]).alive && up.getLsbD i.val && (dieClusters (BitVec.ofNat 3 i.val)).any s.inService) } := by
    simp [State.passDies]
  rw [ha, State.dieUp, ← hc]
  simp only [Bool.not_eq_true', Bool.and_eq_true, and_assoc, ← Bool.not_eq_true, and_self]

theorem State.diesOr_spec (s : State) (next : BitVec 4) :
    (s.diesOr next).dies = s.dies ∧ ((∃ i : Fin 8, (s.dies[i]).alive = true) → (s.diesOr next).boot = { s.boot with stage := next }) ∧
      ((¬∃ i : Fin 8, (s.dies[i]).alive = true) → (s.diesOr next).boot = { s.boot with stage := 15 }) := by
  have he : s.dies.toList.any Die.alive = true ↔ ∃ i : Fin 8, (s.dies[i]).alive = true := by
    simp [Fin.exists_iff, Vector.any_eq_true]
  unfold State.diesOr State.recover
  split
  · next h => exact ⟨rfl, fun _ => rfl, fun hn => absurd (he.1 h) hn⟩
  · next h => exact ⟨rfl, fun hn => absurd (he.2 hn) h, fun _ => rfl⟩

/-- Steps 3 and 4 leave the dies that pass, and go on with the next step when one does. -/
theorem State.testDies_spec (s : State) (up : BitVec 8) (next : BitVec 4) :
    let t := ((s.passDies up).placeTables).diesOr next
    (∀ i : Fin 8, ((t.dies[i]).alive = true ↔ s.dieUp up i) ∧ ((t.dies[i]).secondPort = true ↔ ¬s.dieUp up i)) ∧
      ((∃ i, s.dieUp up i) → t.boot = { s.boot with stage := next }) ∧ ((¬∃ i, s.dieUp up i) → t.boot = { s.boot with stage := 15 }) := by
  intro t
  obtain ⟨hd, hn, hr⟩ := ((s.passDies up).placeTables).diesOr_spec next
  have hu (i : Fin 8) : (((s.passDies up).placeTables.dies[i]).alive = true) = s.dieUp up i := propext (s.passDies_die up i).1
  simp only [hu] at hn hr
  refine ⟨fun i => ?_, hn, hr⟩
  rw [show t.dies = (s.passDies up).dies from hd]
  exact s.passDies_die up i

/-! ### The ROLLBACK thermometer -/

theorem popcount_eq_card (a n : Nat) : popcount a n = ((Finset.range n).filter fun i => a.testBit i = true).card := by
  induction n with
  | zero => rfl
  | succ n ih =>
    rw [popcount, ih, Finset.range_add_one, Finset.filter_insert]
    cases a.testBit n <;> simp [Nat.add_comm]

/-- Setting a clear bit counts one more. -/
theorem popcount_setBit {w : Word} {i : Nat} (hi : i < 64) (hw : w.getLsbD i = false) :
    popcount (w ||| (1#64 <<< i)).toNat 64 = popcount w.toNat 64 + 1 := by
  have hs : (Finset.range 64).filter (fun j => (w ||| (1#64 <<< i)).toNat.testBit j = true) =
      insert i ((Finset.range 64).filter fun j => w.toNat.testBit j = true) := by
    ext j
    simp only [← BitVec.getLsbD.eq_1, Finset.mem_filter, Finset.mem_insert, Finset.mem_range]
    by_cases hj : j = i
    · simp [hj, hi]
    · have : ¬(i ≤ j ∧ j - i = 0) := by omega
      simp [hj]
      omega
  rw [popcount_eq_card, popcount_eq_card, hs, Finset.card_insert_of_notMem]
  simp [← BitVec.getLsbD.eq_1, hw]

/-- A word without a clear bit has all 64 set. -/
theorem popcount_full {w : Word} (h : ∀ i < 64, w.getLsbD i = true) : popcount w.toNat 64 = 64 := by
  rw [popcount_eq_card, Finset.filter_true_of_mem, Finset.card_range]
  exact fun i hi => h i (Finset.mem_range.1 hi)

theorem or_and_left_self (w m : Word) : (w ||| m) &&& w = w := by
  ext j hj
  rw [BitVec.getElem_and, BitVec.getElem_or]
  cases w[j] <;> simp

theorem and_eq_of_and_or {r w m : Word} (h : r &&& (w ||| m) = w ||| m) : r &&& w = w :=
  calc r &&& w = r &&& (w ||| m) &&& w := by rw [BitVec.and_assoc, or_and_left_self]
    _ = w := by rw [h, or_and_left_self]

/-- Raising keeps the set bits, and sets as many as are wanted, as far as there are bits and fuel. -/
theorem raiseBits_spec (w : Word) (n fuel : Nat) :
    raiseBits w n fuel &&& w = w ∧ min (min 64 n) (popcount w.toNat 64 + fuel) ≤ popcount (raiseBits w n fuel).toNat 64 := by
  induction fuel generalizing w with
  | zero => exact ⟨BitVec.and_self, by simp [raiseBits]⟩
  | succ fuel ih =>
    rw [raiseBits]
    split
    · exact ⟨BitVec.and_self, by omega⟩
    · split
      · next h =>
        have hf := popcount_full (w := w) fun i hi => by simpa using List.find?_eq_none.1 h i (List.mem_range.2 hi)
        exact ⟨BitVec.and_self, by omega⟩
      · next i h =>
        obtain ⟨hw, hc⟩ := ih (w ||| (1#64 <<< i))
        have hp := popcount_setBit (List.mem_range.1 (List.mem_of_find?_eq_some h)) (by simpa using List.find?_some h)
        exact ⟨and_eq_of_and_or hw, by omega⟩

/-! ### Step 5 -/

theorem State.provision_spec (s : State) (es : List (Nat × BitVec 16)) :
    ∃ p, s.provision es = { s with plans := p } := by
  unfold State.provision
  extract_lets t
  split <;> exact ⟨_, rfl⟩

theorem State.becomeReady_spec (s : State) :
    let t := s.becomeReady
    t.boot.stage = 7 ∧ t.boot.copyB = s.boot.copyB ∧ t.boot.fail = s.boot.fail ∧ t.outbox = s.outbox ∧
        t.rollback &&& s.rollback = s.rollback ∧
      min 64 s.boot.floor.toNat ≤ popcount t.rollback.toNat 64 := by
  obtain ⟨hand, hcount⟩ := raiseBits_spec s.rollback s.boot.floor.toNat 64
  exact ⟨rfl, rfl, rfl, rfl, hand, le_trans (by omega) hcount⟩

/-- With every fibre trained, step 5 ends READY, or with the leader asked for the plan. -/
theorem State.bootFibres_spec (s : State) (o : BootOutcome) (hf : o.fibres = BitVec.allOnes 64) :
    s.bootFibres o = if s.modSet = false ∨ s.leader = s.modNo then (s.provision o.plan0).becomeReady
      else { s.provision o.plan0 with boot := { s.boot with wantsPlan := true } }.emit (.domainMsg s.leader .planRequest) := by
  have hbad : (List.range 64).filter (fun k => !o.fibres.getLsbD k) = [] := by
    rw [hf]
    decide
  obtain ⟨p, hp⟩ := s.provision_spec o.plan0
  unfold State.bootFibres
  rw [hbad, hp]
  by_cases hm : s.modSet = false
  · simp [hm]
  · simp [hm, State.bootUnits]

/-! ### The steps of bring-up, by what STAGE shows -/

section
variable {s : State} (o : BootOutcome) (ho : s.supplyOk = true)
include ho

theorem execPowerGood_rom (h : s.boot.stage = 0) : execPowerGood o s = .next (s.bootRom o) := by
  simp only [execPowerGood, ho, h]
  rfl

theorem execPowerGood_keep (h : s.boot.stage = 1) : execPowerGood o s = .next (s.bootKeep o) := by
  simp only [execPowerGood, ho, h]
  rfl

theorem execPowerGood_hearthFails (h : s.boot.stage = 2) (hh : o.hearth = false) :
    execPowerGood o s = .next { s with boot := { s.boot with stage := 15 } } := by
  rw [execPowerGood, if_neg (by rw [ho]; decide), h, hh]
  rfl

theorem execPowerGood_hearthPasses (h : s.boot.stage = 2) (hh : o.hearth = true) (hf : o.failed = []) :
    execPowerGood o s = .next { s.remeasure with boot := { s.boot with stage := 3 } } := by
  rw [execPowerGood, if_neg (by rw [ho]; decide), h, hh, hf]
  rfl

theorem execPowerGood_dies (h : s.boot.stage = 3 ∨ s.boot.stage = 4) (hf : o.failed = []) :
    execPowerGood o s = .next (((s.passDies o.dies).placeTables).diesOr (s.boot.stage + 1)) := by
  rcases h with h | h <;> simp only [execPowerGood, ho, h, hf] <;> rfl

theorem execPowerGood_fibres (h : s.boot.stage = 5) (hw : s.boot.wantsPlan = false) : execPowerGood o s = .next (s.bootFibres o) := by
  simp only [execPowerGood, ho, h, hw]
  rfl

end

/-- The entries of plan 0, as provisioned. -/
theorem State.provision_plans (s : State) (es : List (Nat × BitVec 16)) :
    let plan := es.foldl (fun (m : FMap (BitVec 16)) e =>
      if e.2 &&& 0x80FF = 0 ∨ 16384 ≤ e.1 then m else Maps.put m e.1 (e.2 &&& 0x80FF)) []
    let with0 : State := { s with plans := Maps.put s.plans 0 plan }
    (s.provision es).plans = Maps.put s.plans 0 (if s.modSet = true ∧ with0.planOk 0 = true then plan else []) := by
  intro plan with0
  have h0 : s.withPlan0 es = with0 := by
    simp only [State.withPlan0, Bool.or_eq_true, decide_eq_true_eq]
    rfl
  rw [State.provision, h0]
  clear_value plan
  by_cases hp : s.modSet = true ∧ with0.planOk 0 = true
  · rw [if_pos hp, if_pos ((Bool.and_eq_true_iff).2 hp)]
  · rw [if_neg hp, if_neg (mt (Bool.and_eq_true_iff).1 hp)]
    rfl

end Sys2Proof.Machine
end

section
/-!
PROOF. Supply, the Bellows and the idle states (R15, R16, R187, R363, R378).
-/
namespace Sys2Proof.Machine

/-! ### The MODULE and LEADER registers (R385) -/

theorem extractLow_eq_ofNat (w : Word) : w.extractLsb' 0 8 = BitVec.ofNat 8 w.toNat :=
  BitVec.eq_of_toNat_eq (by simp [BitVec.extractLsb'_toNat])
theorem getLsbD_eight (w : Word) : w.getLsbD 8 = decide (w.toNat / 256 % 2 = 1) :=
  Nat.testBit_eq_decide_div_mod_eq

/-! ### Supply -/

theorem State.keepRuns_iff (s : State) : s.keepRuns = true ↔ 2 ≤ s.boot.stage.toNat ∧ s.boot.stage ≠ 15 := by
  simp [State.keepRuns, State.recovery]

theorem execSupplyFault_early {s : State} (hs : s.supplyOk = true) (hk : s.keepRuns ≠ true) :
    execSupplyFault s = .next { s with supplyOk := false } := by
  rw [execSupplyFault, hs, if_neg (by decide), if_neg hk]

theorem execSupplyFault_reported {s : State} (hs : s.supplyOk = true) (hk : s.keepRuns = true) :
    execSupplyFault s = .next (State.emit { s with
      supplyOk := false, dies := s.dies.map fun (d : Die) => if d.alive then
          { d with idle := 3, grant := (0, 1), budget := 0 } else d } .supplyReport) := by
  rw [execSupplyFault, hs, if_neg (by decide), if_pos hk]
  rfl

theorem execSupplyRestored_over {s : State} (hs : s.supplyOk = false) : execSupplyRestored s = .next { s with
    supplyOk := true, dies := s.dies.map fun (d : Die) => if d.alive then { d with idle := 0 } else d } := by
  rw [execSupplyRestored, hs, if_neg (by decide)]

/-! ### The Bellows: grants as fractions -/

/-- A grant in watts. -/
def wattsOf (x : Nat × Nat) : ℚ := (x.1 : ℚ) / x.2

theorem wattsOf_capWatts {x : Nat × Nat} (cap : Nat) (h : 0 < x.2) : wattsOf (capWatts x cap) = min (cap : ℚ) (wattsOf x) := by
  have hd : (0 : ℚ) < x.2 := Nat.cast_pos.2 h
  unfold capWatts
  split
  · next hle =>
    rw [min_eq_right]
    exact (div_le_iff₀ hd).2 (by exact_mod_cast hle)
  · next hgt =>
    rw [min_eq_left]
    · simp [wattsOf]
    · exact (le_div_iff₀ hd).2 (by exact_mod_cast Nat.le_of_not_le hgt)

theorem capWatts_pos {x : Nat × Nat} (cap : Nat) (h : 0 < x.2) : 0 < (capWatts x cap).2 := by
  unfold capWatts
  split
  · exact h
  · exact Nat.one_pos

/-- The matrix budget is the floor of R187, from 0 to 312. -/
theorem budgetOf_eq_floor {w : Nat × Nat} (h : 0 < w.2) :
    ((budgetOf w : ℕ) : ℤ) = min 312 (max 0 ⌊312 * (wattsOf w - 150) / 500⌋) := by
  have hd : (0 : ℚ) < w.2 := Nat.cast_pos.2 h
  have he : 312 * (wattsOf w - 150) / 500 = ((312 * ((w.1 : ℤ) - 150 * w.2) : ℤ) : ℚ) / ((500 * w.2 : ℕ) : ℚ) := by
    rw [wattsOf]
    push_cast
    field_simp
  rw [he, Rat.floor_intCast_div_natCast, budgetOf]
  push_cast
  congr 1
  rcases Nat.le_total (150 * w.2) w.1 with hle | hle
  · rw [max_eq_right (Int.ediv_nonneg (by omega) (by omega))]
    congr 1
    omega
  · rw [Nat.sub_eq_zero_of_le hle, max_eq_left]
    · simp
    · exact (Int.ediv_le_ediv (by omega) (by omega)).trans_eq (Int.zero_ediv _)

/-- What remains after the floors, shared by demand. -/
def sharedWatts (total rest floor d : Nat) : Nat × Nat := if total = 0 then (floor, 1) else (floor * total + rest * d, total)

theorem sharedWatts_pos (total rest floor d : Nat) : 0 < (sharedWatts total rest floor d).2 := by
  unfold sharedWatts
  split
  · exact Nat.one_pos
  · next h => exact Nat.pos_of_ne_zero h

theorem wattsOf_sharedWatts (total rest floor d cap : Nat) :
    wattsOf (capWatts (sharedWatts total rest floor d) cap) =
      if total = 0 then min (cap : ℚ) floor else min (cap : ℚ) (floor + rest * d / total) := by
  rw [wattsOf_capWatts cap (sharedWatts_pos ..)]
  unfold sharedWatts
  split
  · simp [wattsOf]
  · next h =>
    have ht : (total : ℚ) ≠ 0 := Nat.cast_ne_zero.2 h
    congr 1
    simp only [wattsOf]
    push_cast
    field_simp

/-- The dies that the Bellows grants current, in order. -/
def State.grantedDies (s : State) : List (Fin 8) :=
  (List.finRange 8).filter fun i => (s.dies[i]).alive && decide ((s.dies[i]).idle.toNat < 2)

theorem execBellowsPeriod_spec (want : List Nat) (hbm : Nat) (s : State) :
    let rest := 7070 - 150 * s.grantedDies.length
    let total := (s.grantedDies.map fun i => want.getD i.val 0).sum + hbm
    ∃ t, execBellowsPeriod want hbm s = .next t ∧ t.hbmGrant = capWatts (sharedWatts total rest 600 hbm) 2600 ∧ t.strands = s.strands ∧
      t.cores = s.cores ∧ t.anvils = Maps.map s.anvils (fun _ a => { a with spent := 0 }) ∧
      ∀ i : Fin 8, t.dies[i] = { s.dies[i] with
        grant := if (s.dies[i]).granted then capWatts (sharedWatts total rest 150 (want.getD i.val 0)) 650 else (0, 1)
        budget := if (s.dies[i]).granted then budgetOf (capWatts (sharedWatts total rest 150 (want.getD i.val 0)) 650) else 0 } := by
  intro rest total
  unfold execBellowsPeriod
  extract_lets on active rest' want' total' share
  have hon (i : Fin 8) : on i.val = (s.dies[i]).granted := by simp [on]
  have ha : active = s.grantedDies.map Fin.val := by
    simp only [active, ← List.map_coe_finRange_eq_range, List.filter_map]
    exact congrArg _ (List.filter_congr fun i _ => hon i)
  have hr : rest' = rest := by simp only [rest', rest, ha, List.length_map]
  have ht : total' = total := by simp only [total', total, ha, List.map_map]; rfl
  have hs (floor d : Nat) : share floor d = sharedWatts total rest floor d := by rw [← hr, ← ht]; rfl
  refine ⟨_, rfl, congrArg (capWatts · 2600) (hs 600 hbm), rfl, rfl, rfl, fun i => ?_⟩
  simp only [Fin.getElem_fin, Vector.getElem_ofFn, hs, want']
  rw [hon i]
  cases (s.dies[i]).granted <;> simp

theorem State.anvil_spent (s t : State) (h : t.anvils = Maps.map s.anvils (fun _ a => { a with spent := 0 })) (a : BitVec 11) :
    t.anvil a = { s.anvil a with spent := 0 } := by
  simp only [State.anvil, h, Maps.getD, Maps.get_map]
  cases Maps.get s.anvils a.toNat <;> rfl

/-! ### Idle states -/

theorem State.setDie_self (s : State) (d : BitVec 3) : s.setDie d (s.die d) = s := by
  simp [State.setDie, State.die]

/-- An exit of a die: it is active, and the module has left S4. -/
theorem State.rouse_of_ok {s : State} (d : BitVec 3) (h : s.supplyOk = true) :
    s.rouse d = { s with modState := 0 }.setDie d { s.die d with idle := 0 } := by
  have hm : s.rouseModule = { s with modState := 0 } := by
    unfold State.rouseModule
    split
    · next h0 => rw [← h0]
    · rfl
  rw [State.rouse, hm]
  dsimp only
  split
  · next hi =>
    have h0 : (s.die d).idle = 0 := by
      rw [h, Bool.not_true, Bool.or_false, decide_eq_true_eq] at hi
      exact hi
    exact (State.setDie_self { s with modState := 0 } d).symm.trans (by rw [← h0]; rfl)
  · rfl

theorem execIdleStateExit_die {s : State} (d : BitVec 3) (h : s.supplyOk = true) :
    execIdleStateExit (.die d) s = .next ({ s with modState := 0 }.setDie d { s.die d with idle := 0 }) :=
  congrArg Host.Outcome.next ((if_pos h).trans (State.rouse_of_ok d h))

theorem execIdleStateEntry_core {s : State} {k : BitVec 13} (hq : s.coreQuiet k = true) (hk : k.toNat ∉ s.idleCores) :
    execIdleStateEntry (.core k) s = .next { s with idleCores := s.idleCores ++ [k.toNat] } := by
  have : (s.coreQuiet k && !s.idleCores.contains k.toNat) = true := by simp [hq, hk]
  simp only [execIdleStateEntry, this, if_true]

theorem execIdleStateEntry_s2 {s : State} {d : BitVec 3} (ha : (s.die d).alive = true) (hi : (s.die d).idle = 0) (hq : s.dieQuiet d = true)
    (ht : 10 ≤ (s.dieTol[d.toNat]'(d.isLt)).toNat) :
    execIdleStateEntry (.die d) s = .next (s.setDie d ((s.die d).rest 2)) := by
  simp [execIdleStateEntry, ha, hi, hq, ht]

theorem execIdleStateEntry_s3 {s : State} {d : BitVec 3} (ha : (s.die d).alive = true) (hi : (s.die d).idle = 2) (hq : s.dieEmpty d = true)
    (ht : 300 ≤ (s.dieTol[d.toNat]'(d.isLt)).toNat) :
    execIdleStateEntry (.die d) s = .next ((s.settleDie d).setDie d (((s.settleDie d).die d).rest 3)) := by
  simp [execIdleStateEntry, ha, hi, hq, ht]

theorem execIdleStateEntry_module {s : State} (hd : ∀ i : Fin 8, (s.dies[i]).alive = false ∨ (s.dies[i]).idle = 3)
    (ht : 20000 ≤ s.modTol.toNat) (hq : ∀ p ∈ s.qps, p.2.msgs = []) :
    execIdleStateEntry .module s = .next { s with modState := 4 } := by
  have h1 : (s.dies.toList.all fun d => !d.alive || d.idle == 3) = true := by
    simpa [Vector.all_eq_true, Fin.forall_iff] using hd
  have h2 : (s.qps.all fun p => p.2.msgs.isEmpty) = true := by simpa using hq
  simp only [execIdleStateEntry, h1, h2, ht, decide_true, Bool.and_true, if_true]

/-! ### What a die does before S3 -/

/-- No store has gained or lost a copy. -/
structure SameCopies (s t : State) : Prop where
  copies : ∀ c, (t.cluster c).copies = (s.cluster c).copies

theorem SameCopies.of_clusters {s t : State} (h : t.clusters = s.clusters) : SameCopies s t :=
  ⟨fun c => by rw [State.cluster, State.cluster, h]⟩
theorem SameCopies.trans {s t u : State} (h : SameCopies s t) (h' : SameCopies t u) : SameCopies s u :=
  ⟨fun c => (h'.copies c).trans (h.copies c)⟩
theorem SameCopies.foldl {α : Type} {f : State → α → State} (h : ∀ t x, SameCopies t (f t x)) (l : List α) (s : State) :
    SameCopies s (l.foldl f s) := by
  induction l generalizing s with
  | nil => exact ⟨fun _ => rfl⟩
  | cons x l ih => exact (h s x).trans (ih _)

theorem State.setCluster_sameCopies (s : State) (c : BitVec 9) (v : Cluster) (h : v.copies = (s.cluster c).copies) :
    SameCopies s (s.setCluster c v) := by
  refine ⟨fun e => ?_⟩
  by_cases he : e = c
  · rw [he, State.cluster_setCluster_same, h]
  · rw [State.cluster_setCluster_other _ _ _ _ he]

theorem State.setLineMeta_sameCopies (s : State) (blk n : Nat) (v : BitVec 16) : SameCopies s (s.setLineMeta blk n v) := .of_clusters rfl

theorem Cluster.cachePw_copies (c : Cluster) (blk : Nat) (v : BitVec 16) : (c.cachePw blk v).copies = c.copies := rfl

theorem State.writeState_sameCopies (s : State) (blk : Nat) (b : Block) (l : Bool) : SameCopies s (s.writeState blk b l) := by
  unfold State.writeState
  extract_lets s0 s1 m s2 s3 cl s4
  have h1 : SameCopies s s1 := 
    (SameCopies.of_clusters rfl : SameCopies s s0).trans ((s0.setLineMeta_sameCopies blk 0 (b.pw l)).trans
        (State.setLineMeta_sameCopies ..))
  clear_value s1
  have h2 : SameCopies s1 s2 := .foldl (fun t _ => t.setLineMeta_sameCopies ..) _ _
  clear_value s2
  have h3 : SameCopies s2 s3 := ((s2.setLineMeta_sameCopies blk 34 (b.mode.zeroExtend 16)).trans
    (State.setLineMeta_sameCopies ..)).trans (State.setLineMeta_sameCopies ..)
  clear_value s3
  have h4 : SameCopies s3 s4 := 
    (s3.setLineMeta_sameCopies blk 37 (b.qrem ++ b.qarmed)).trans (State.setCluster_sameCopies _ cl _
      ((Cluster.cachePw_copies (s3.cluster cl) ..).trans ((s3.setLineMeta_sameCopies blk 37 (b.qrem ++ b.qarmed)).copies cl).symm))
  clear_value s4
  exact (((h1.trans h2).trans h3).trans h4).trans (.of_clusters rfl)

theorem State.writeBack_sameCopies (s : State) (blk : Nat) (b : Block) (l : Bool) : SameCopies s (s.writeBack blk b l) := by
  unfold State.writeBack
  extract_lets s1
  have h1 : SameCopies s s1 := .of_clusters (by simp only [s1]; split <;> rfl)
  exact h1.trans (s1.writeState_sameCopies ..)

theorem State.applyLog_reported (s : State) (cl : BitVec 9) (blk : Nat) : Reported s (s.applyLog cl blk) :=
  (State.setCluster_reported ..).after (s.writeBack_reported ..)
theorem State.cleanBlock_reported (s : State) (cl : BitVec 9) (blk : Nat) (x : Resident) : Reported s (s.cleanBlock cl blk x) :=
  (State.setCluster_reported ..).after (s.writeBack_reported ..)

theorem State.applyLog_sameCopies (s : State) (cl : BitVec 9) (blk : Nat) : SameCopies s (s.applyLog cl blk) :=
  (s.writeBack_sameCopies ..).trans (State.setCluster_sameCopies _ cl _ rfl)
theorem State.cleanBlock_sameCopies (s : State) (cl : BitVec 9) (blk : Nat) (x : Resident) : SameCopies s (s.cleanBlock cl blk x) :=
  (s.writeBack_sameCopies ..).trans (State.setCluster_sameCopies _ cl _ rfl)

/-- The logs of a cluster applied and its blocks written back. -/
def State.settleBlocks (s : State) (p : Nat × Cluster) : State :=
  p.2.res.foldl (fun u q => u.cleanBlock (BitVec.ofNat 9 p.1) q.1 q.2) (p.2.logs.foldl (fun u q => u.applyLog (BitVec.ofNat 9 p.1) q.1) s)

theorem State.settleBlocks_reported (s : State) (p : Nat × Cluster) : Reported s (s.settleBlocks p) := by
  have logs : Reported s (p.2.logs.foldl (fun u q => u.applyLog (BitVec.ofNat 9 p.1) q.1) s) := by
    refine .foldl (fun u q => ?_) _ _
    exact u.applyLog_reported ..
  refine logs.trans (.foldl (fun u q => ?_) _ _)
  exact u.cleanBlock_reported ..

theorem State.settleBlocks_sameCopies (s : State) (p : Nat × Cluster) : SameCopies s (s.settleBlocks p) := by
  have logs : SameCopies s (p.2.logs.foldl (fun u q => u.applyLog (BitVec.ofNat 9 p.1) q.1) s) := by
    refine .foldl (fun u q => ?_) _ _
    exact u.applyLog_sameCopies ..
  refine logs.trans (.foldl (fun u q => ?_) _ _)
  exact u.cleanBlock_sameCopies ..

/-- What a die does with one cluster before S3. -/
def State.settleCluster (d : BitVec 3) (s : State) (p : Nat × Cluster) : State :=
  if p.1 / 64 != d.toNat then s
  else (s.settleBlocks p).setCluster (BitVec.ofNat 9 p.1) { (s.settleBlocks p).cluster (BitVec.ofNat 9 p.1) with copies := [] }

theorem State.settleDie_eq (s : State) (d : BitVec 3) : s.settleDie d = s.clusters.foldl (State.settleCluster d) s := rfl

theorem State.settleCluster_reported (d : BitVec 3) (s : State) (p : Nat × Cluster) : Reported s (s.settleCluster d p) := by
  unfold State.settleCluster
  split
  · exact .refl s
  · exact (s.settleBlocks_reported p).trans (State.setCluster_reported ..)

theorem State.settleDie_reported (s : State) (d : BitVec 3) : Reported s (s.settleDie d) :=
  Reported.foldl (State.settleCluster_reported d) _ s

/-- A store without copies stays so, and that of the cluster itself becomes so. -/
theorem State.settleCluster_copies {d : BitVec 3} {c : BitVec 9} (s : State) (p : Nat × Cluster) (hc : clusterDie c = d)
    (h : (s.cluster c).copies = [] ∨ p.1 = c.toNat) : ((s.settleCluster d p).cluster c).copies = [] := by
  have die : c.toNat / 64 = d.toNat := by
    rw [← hc]
    simp [clusterDie, BitVec.extractLsb'_toNat, Nat.shiftRight_eq_div_pow]
    omega
  unfold State.settleCluster
  split
  · next hn => exact h.resolve_right fun e => by simp [e, die] at hn
  · by_cases he : c = BitVec.ofNat 9 p.1
    · rw [← he, State.cluster_setCluster_same]
    · rw [State.cluster_setCluster_other _ _ _ _ he, (s.settleBlocks_sameCopies p).copies c]
      exact h.resolve_right fun e => he (by rw [e, BitVec.ofNat_toNat, BitVec.setWidth_eq])

theorem State.settleClusters_copies {d : BitVec 3} {c : BitVec 9} (l : FMap Cluster) (s : State) (hc : clusterDie c = d)
    (h : (s.cluster c).copies = [] ∨ ∃ p ∈ l, p.1 = c.toNat) : ((l.foldl (State.settleCluster d) s).cluster c).copies = [] := by
  induction l generalizing s with
  | nil => exact h.resolve_right (by simp)
  | cons p l ih =>
    refine ih (s.settleCluster d p) ?_
    rcases h with h | ⟨q, hq, e⟩
    · exact .inl (s.settleCluster_copies p hc (.inl h))
    · rcases List.mem_cons.1 hq with rfl | hq
      · exact .inl (s.settleCluster_copies q hc (.inr e))
      · exact .inr ⟨q, hq, e⟩

theorem State.settleDie_copies (s : State) {d : BitVec 3} {c : BitVec 9} (hc : clusterDie c = d) :
    ((s.settleDie d).cluster c).copies = [] := by
  rw [State.settleDie_eq]
  refine State.settleClusters_copies _ s hc ?_
  by_cases h : ∃ p ∈ s.clusters, p.1 = c.toNat
  · exact .inr h
  · have hn : Maps.get s.clusters c.toNat = none := Maps.get_eq_none fun p hp e => h ⟨p, hp, e⟩
    exact .inl (by rw [State.cluster, Maps.getD, hn]; rfl)

end Sys2Proof.Machine
end

section
/-!
PROOF. Error reports: the record of each (R370, R371), and what an uncorrected error strikes (R367).
-/
namespace Sys2Proof.Machine

/-! ### Strands that end with the node that holds them -/

theorem State.dropStrand_strands {s : State} {r : Nat} {st : Strand} (h : s.strand r = some st) :
    (s.dropStrand r).strands = Maps.del s.strands r := by
  unfold State.dropStrand
  rw [h]
  rfl

/-- Discarding another strand leaves this one, and the table in its form. -/
theorem State.discardStrand_other (s : State) {q r : Nat} (hq : q ≠ r) : (s.discardStrand q).strand r = s.strand r := by
  unfold State.discardStrand
  split
  · rfl
  · next st h =>
    split
    · exact State.strand_setStrand_other _ _ _ _ hq.symm
    · rw [State.strand, State.dropStrand_strands h]
      exact Maps.get_del_other _ _ _ hq.symm

theorem State.discardStrand_wf {s : State} (q : Nat) (hw : Maps.wf s.strands = true) : Maps.wf (s.discardStrand q).strands = true := by
  unfold State.discardStrand
  split
  · exact hw
  · next st h =>
    split
    · exact Maps.wf_put _ _ _ hw
    · rw [State.dropStrand_strands h]
      exact Maps.wf_del _ _ hw

/-- A strand without a dispatched command is gone at once. -/
theorem State.discardStrand_self {s : State} {r : Nat} (hw : Maps.wf s.strands = true)
    (hc : ∀ st, s.strand r = some st → st.commanded = false) :
    (s.discardStrand r).strand r = none := by
  unfold State.discardStrand
  split
  · next h => exact h
  · next st h =>
    rw [hc st h, if_neg (by decide), State.strand, State.dropStrand_strands h]
    exact Maps.get_del_same _ _ hw

theorem State.discardAll_drops {l : List Nat} {s : State} {r : Nat} (hw : Maps.wf s.strands = true)
    (hc : ∀ st, s.strand r = some st → st.commanded = false) (h : r ∈ l ∨ s.strand r = none) :
    (l.foldl (fun t r => t.discardStrand r) s).strand r = none := by
  induction l generalizing s with
  | nil => exact h.resolve_left List.not_mem_nil
  | cons q l ih =>
    have hw' := State.discardStrand_wf q hw
    by_cases hq : q = r
    · rw [List.foldl_cons]
      have hn : (s.discardStrand q).strand r = none := by rw [hq]; exact State.discardStrand_self hw hc
      exact ih hw' (by rw [hn]; simp) (.inr hn)
    · have ho := s.discardStrand_other hq
      refine ih hw' (by rw [ho]; exact hc) ?_
      rw [ho]
      exact h.imp_left fun hr => (List.mem_cons.1 hr).resolve_left (Ne.symm hq)

theorem State.updStrand_none {s : State} (q : Nat) (f : Strand → Strand) {r : Nat} (h : s.strand r = none) :
    (s.updStrand q f).strand r = none := by
  unfold State.updStrand
  split
  · exact h
  · next st hq => exact (State.strand_setStrand_other _ _ _ _ fun e => by rw [e, hq] at h; simp at h).trans h

theorem State.toDispatcher_none {s : State} (q : Nat) (c : BitVec 9) {r : Nat} (h : s.strand r = none) :
    (s.toDispatcher q c).strand r = none := by
  unfold State.toDispatcher
  split
  · exact h
  · next st hq =>
    have hr (v : Strand) : (s.setStrand q v).strand r = none :=
      (State.strand_setStrand_other _ _ _ _ fun e => by rw [e, hq] at h; simp at h).trans h
    split
    · exact hr _
    · split <;> exact hr _

/-- The answer to a run or spawn brings up no strand. -/
theorem State.started_none {s : State} (x : Starting) {r : Nat} (h : s.strand r = none) : (s.started x).strand r = none := by
  unfold State.started
  split
  · rw [State.strand, (State.reply_reported ..).strands]
    exact h
  · have hu (q : Nat) (f : Strand → Strand) : (({ s with starting := none } : State).updStrand q f).strand r = none :=
      State.updStrand_none q f h
    dsimp only
    split
    · exact hu _ _
    · split
      · exact hu _ _
      · exact State.toDispatcher_none _ _ (hu _ _)

/-- When instances are removed their strands are gone, but those with a dispatched command. -/
theorem State.removeInstances_drops {s : State} {ns : List (BitVec 32)} {r : Nat} {st : Strand} {nd : Node} (hw : Maps.wf s.strands = true)
    (hr : s.strand r = some st) (hn : s.node st.node = some nd) (hi : nd.inst ∈ ns) (hc : st.commanded = false) :
    (s.removeInstances ns).strand r = none := by
  unfold State.removeInstances
  extract_lets nodes recs s0 s1 s2 s3 s4 s5
  have hs : s1.strands = s.strands := (State.tellHomes_reported _ nodes).strands
  have hnode : st.node ∈ nodes := by
    refine List.mem_map.2 ⟨(st.node.toNat, nd), List.mem_filter.2 ⟨Maps.mem_of_get hn, by simpa using hi⟩, ?_⟩
    simp
  have hrec : r ∈ recs := List.mem_map.2 ⟨(r, st), List.mem_filter.2 ⟨Maps.mem_of_get hr, by simpa using hnode⟩, rfl⟩
  have hr1 : s1.strand r = some st := by rw [State.strand, hs]; exact hr
  have h2 : s2.strand r = none := State.discardAll_drops (by rw [hs]; exact hw) (by rw [hr1]; simpa using hc) (.inl hrec)
  have h5 : s5.strand r = none := by
    simp only [s5]
    split
    · exact h2
    · split
      · exact State.started_none _ h2
      · exact h2
  exact h5

theorem State.mem_spawnTree (s : State) (fuel : Nat) (ns : List (BitVec 32)) {n : BitVec 32} (h : n ∈ ns) : n ∈ s.spawnTree fuel ns := by
  induction fuel generalizing ns with
  | zero => exact h
  | succ fuel ih => exact ih _ (List.mem_append_left _ h)

theorem State.endOwner_drops {s : State} {r : Nat} {st : Strand} {nd : Node} {i : Instance} (cause : BitVec 8) (v : Word)
    (hw : Maps.wf s.strands = true) (hr : s.strand r = some st) (hn : s.node st.node = some nd) (hi : s.inst nd.inst = some i)
    (hc : st.commanded = false) : (s.endOwner r cause v).strand r = none := by
  have hd := State.removeInstances_drops hw hr hn (s.mem_spawnTree s.instances.length [nd.inst] (List.mem_singleton_self _)) hc
  unfold State.endOwner
  rw [hr]
  dsimp only
  rw [hn]
  unfold State.endInstance
  dsimp only
  rw [hi]
  dsimp only
  split
  · rw [State.strand, (State.ended_reported ..).strands]
    exact hd
  · exact hd

/-! ### Error reports -/

theorem toNat_append_add {n m : Nat} (x : BitVec n) (y : BitVec m) : (x ++ y).toNat = 2 ^ m * x.toNat + y.toNat := by
  rw [BitVec.toNat_append, Nat.shiftLeft_eq, Nat.mul_comm, Nat.two_pow_add_eq_or_of_lt y.isLt]

theorem UnitId.word_eq (u : UnitId) (syndrome : BitVec 32) : UnitId.word u syndrome = BitVec.ofNat 64
    (2 ^ 32 * syndrome.toNat + 2 ^ 17 * u.index.toNat + 2 ^ 11 * u.cluster.toNat + 2 ^ 8 * u.die.toNat + u.unit.toNat) := by
  have h : (syndrome ++ 0#9 ++ u.index ++ u.cluster ++ u.die ++ u.unit).toNat =
      2 ^ 32 * syndrome.toNat + 2 ^ 17 * u.index.toNat + 2 ^ 11 * u.cluster.toNat + 2 ^ 8 * u.die.toNat + u.unit.toNat := by
    simp only [toNat_append_add, BitVec.toNat_ofNat]
    omega
  exact BitVec.eq_of_toNat_eq (by
    rw [BitVec.toNat_ofNat, ← h]
    exact (Nat.mod_eq_of_lt (UnitId.word u syndrome).isLt).symm)

theorem State.cycleOf_eq (s : State) (u : UnitId) : s.cycleOf u =
    if u.unit = 8 ∨ u.unit = 9 then (if u.die.toNat % 2 = 1 then s.hearth[1] else s.hearth[0]) else (s.die u.die).cycle := by
  have hh : UnitId.onHearth u = true ↔ u.unit = 8 ∨ u.unit = 9 := by simp [UnitId.onHearth]
  have hd : u.die.getLsbD 0 = true ↔ u.die.toNat % 2 = 1 := by
    simp [BitVec.getLsbD, Nat.testBit_zero]
  simp only [State.cycleOf, State.hearthClock, hh, hd]

/-- What happened, as the record of an error says it: 0 of a corrected error, 2 of one that poisons, else 1. -/
def State.errorKind (s : State) (e : ErrorReport) : BitVec 8 := if e.corrected then 0 else if s.poisons e.target then 2 else 1
/-- The error is entered in the log. -/
def State.errorNoted (s : State) (e : ErrorReport) : State := s.noteError (UnitId.at_ e.unit e.addr) e.syndrome e.addr (s.errorKind e)
/-- The Keep has been told of it too. -/
def State.errorTold (s : State) (e : ErrorReport) : State := (s.errorNoted e).tellKeep 3 (s.errorNoted e).errHead.toNat

theorem execErrorReport_corrected {e : ErrorReport} {s : State} (h : e.corrected = true) : execErrorReport e s = .next (s.errorNoted e) :=
    if_pos h
theorem execErrorReport_uncorrected {e : ErrorReport} {s : State} (h : e.corrected = false) :
    execErrorReport e s = .next ((s.errorTold e).strike e.target (UnitId.word e.unit e.syndrome)) := if_neg (by rw [h]; decide)

/-- The record of an error report, with what happened. -/
def State.errorRecord (s : State) (e : ErrorReport) (kind : BitVec 8) : BitVec 256 :=
  s.cycleOf e.unit ++ 0#48 ++ 0#8 ++ kind ++ e.addr ++ UnitId.word e.unit e.syndrome

theorem State.errorNoted_errLog (s : State) (e : ErrorReport) :
    Maps.get (s.errorNoted e).errLog (s.errHead.toNat % 1024) = some (s.errorRecord e (s.errorKind e)) :=
  Maps.get_put_same ..

theorem State.errorTold_steady (s : State) (e : ErrorReport) : Steady (s.errorNoted e) (s.errorTold e) := State.tellKeep_steady ..

/-- Telling the Keep wakes strands that wait for it, and lengthens its queue. -/
theorem State.tellKeep_spec (s : State) (kind : BitVec 8) (ref : Nat) :
    ∃ ss ks, s.tellKeep kind ref = { s with strands := ss, keepEvents := ks } := by
  unfold State.tellKeep
  dsimp only
  split
  · exact ⟨_, _, rfl⟩
  · exact ⟨_, _, rfl⟩

theorem State.errorTold_spec (s : State) (e : ErrorReport) :
    ∃ ss ks, s.errorTold e = { s.errorNoted e with strands := ss, keepEvents := ks } := State.tellKeep_spec ..

theorem State.errorTold_clusters (s : State) (e : ErrorReport) : (s.errorTold e).clusters = s.clusters := by
  obtain ⟨ss, ks, h⟩ := s.errorTold_spec e
  rw [h]
  rfl

theorem State.errorTold_stateAt (s : State) (e : ErrorReport) : (s.errorTold e).stateAt = s.stateAt := by
  obtain ⟨ss, ks, h⟩ := s.errorTold_spec e
  rw [h]
  rfl

/-- The record stands when what the error strikes has changed, as long as the log has not. -/
theorem State.struck_spec {s : State} {e : ErrorReport} {t : State} (h : Steady (s.errorTold e) t) : t.errHead = s.errHead + 1 ∧
    Maps.get t.errLog (s.errHead.toNat % 1024) = some (s.errorRecord e (s.errorKind e)) := by
  have ht := (s.errorTold_steady e).trans h
  rw [ht.errHead, ht.errLog]
  exact ⟨rfl, s.errorNoted_errLog e⟩

/-- A strand that the Keep's IDLE wakes stays of its node, and has no dispatched command. -/
theorem State.tellKeep_strand {s : State} (kind : BitVec 8) (ref : Nat) {r : Nat} {st : Strand} (hw : Maps.wf s.strands = true)
    (hr : s.strand r = some st) (hc : st.commanded = false) :
    Maps.wf (s.tellKeep kind ref).strands = true ∧
      ∃ st', (s.tellKeep kind ref).strand r = some st' ∧ st'.node = st.node ∧ st'.commanded = false := by
  unfold State.tellKeep
  dsimp only
  split
  · next q st0 f rd h =>
    refine ⟨Maps.wf_put _ _ _ hw, ?_⟩
    by_cases hq : q = r
    · obtain ⟨p, hp, he⟩ := List.exists_of_findSome?_eq_some h
      have hst : st0 = st := by
        have hg := Maps.get_of_mem hw hp
        split at he
        · obtain ⟨rfl, rfl, rfl, rfl⟩ := by simpa using he
          rw [hq] at hg
          exact Option.some.inj (hg.symm.trans hr)
        · simp at he
      rw [hq, hst]
      exact ⟨_, State.strand_setStrand_same .., rfl, rfl⟩
    · exact ⟨st, (State.strand_setStrand_other _ _ _ _ (Ne.symm hq)).trans hr, rfl, hc⟩
  · exact ⟨hw, st, hr, rfl, hc⟩

theorem State.errorTold_strike_strand {s : State} {e : ErrorReport} {r : Nat} {st : Strand} {nd : Node} {i : Instance} (w : Word)
    (hw : Maps.wf s.strands = true) (hr : s.strand r = some st) (hn : s.node st.node = some nd) (hi : s.inst nd.inst = some i)
    (hc : st.commanded = false) : ((s.errorTold e).endOwner r 19 w).strand r = none := by
  obtain ⟨hw', st', hr', hnode, hc'⟩ := State.tellKeep_strand (s := s.errorNoted e) 3 (s.errorNoted e).errHead.toNat hw hr hc
  obtain ⟨ss, ks, h⟩ := s.errorTold_spec e
  have hnodes : (s.errorTold e).nodes = s.nodes := by rw [h]; rfl
  have hinsts : (s.errorTold e).instances = s.instances := by rw [h]; rfl
  refine State.endOwner_drops (nd := nd) (i := i) 19 w hw' hr' ?_ ?_ hc'
  · rw [hnode, State.node]
    exact (congrArg (Maps.get · _) hnodes).trans hn
  · rw [State.inst]
    exact (congrArg (Maps.get · _) hinsts).trans hi

theorem Strand.commanded_eq_false {st : Strand} (h : ∀ c pins p, st.wait ≠ .command c true pins p) : st.commanded = false := by
  unfold Strand.commanded
  split
  · next c pins p hw => exact absurd hw (h c pins p)
  · rfl

/-! ### Error reports, by what they strike -/

section
variable {s : State} {e : ErrorReport}

/-- A corrected error is logged, and that is all. -/
theorem execErrorReport_logged (hc : e.corrected = true) : ∃ t, execErrorReport e s = .next t ∧ t.errHead = s.errHead + 1 ∧
    t.strands = s.strands ∧ t.hbm = s.hbm ∧ t.clusters = s.clusters ∧
    Maps.get t.errLog (s.errHead.toNat % 1024) = some (s.errorRecord e 0) := by
  refine ⟨_, execErrorReport_corrected hc, rfl, rfl, rfl, rfl, ?_⟩
  rw [State.errorNoted_errLog, State.errorKind, if_pos hc]

/-- The kind of an uncorrected error says whether it poisons. -/
theorem State.errorKind_uncorrected (hc : e.corrected = false) : s.errorKind e = if s.poisons e.target then 2 else 1 := by
  rw [State.errorKind, hc, if_neg Bool.false_ne_true]

section
variable (hc : e.corrected = false)
include hc

theorem execErrorReport_strand {r : Nat} {st : Strand} {nd : Node} {i : Instance} (ht : e.target = .strand r) (hr : s.strand r = some st)
    (hn : s.node st.node = some nd) (hi : s.inst nd.inst = some i) (hw : Maps.wf s.strands = true) (hf : st.commanded = false) :
    ∃ t, execErrorReport e s = .next t ∧ t.errHead = s.errHead + 1 ∧ t.strand r = none ∧
      Maps.get t.errLog (s.errHead.toNat % 1024) = some (s.errorRecord e 1) := by
  have hk : s.errorKind e = 1 := by rw [State.errorKind_uncorrected hc, ht]; rfl
  have hs : (s.errorTold e).strike e.target (UnitId.word e.unit e.syndrome) = (s.errorTold e).endOwner r 19
      (UnitId.word e.unit e.syndrome) := by
    rw [ht]
    rfl
  obtain ⟨hh, hl⟩ := State.struck_spec (s.errorTold e |>.endOwner_steady r 19 (UnitId.word e.unit e.syndrome))
  refine ⟨_, execErrorReport_uncorrected hc, ?_⟩
  rw [hs]
  exact ⟨hh, State.errorTold_strike_strand _ hw hr hn hi hf, by rw [hl, hk]⟩

theorem execErrorReport_copy {cl : BitVec 9} {vbn : BitVec 37} {gen : BitVec 12}
    (ht : e.target = .copy cl vbn gen) : ∃ t, execErrorReport e s = .next t ∧ t.errHead = s.errHead + 1 ∧
      (t.cluster cl).copies = Maps.del (s.cluster cl).copies (vbn.toNat * 4096 + gen.toNat) ∧ ∀ c, c ≠ cl → t.cluster c = s.cluster c := by
  have hcl (c : BitVec 9) : (s.errorTold e).cluster c = s.cluster c := by rw [State.cluster, State.cluster, s.errorTold_clusters e]
  have hs : (s.errorTold e).strike e.target (UnitId.word e.unit e.syndrome) = (s.errorTold e).setCluster cl
      { (s.errorTold e).cluster cl with copies := Maps.del ((s.errorTold e).cluster cl).copies (vbn.toNat * 4096 + gen.toNat) } := by
    rw [ht]
    rfl
  refine ⟨_, execErrorReport_uncorrected hc, ?_⟩
  rw [hs]
  refine ⟨(State.struck_spec (State.setCluster_reported ..).steady).1, ?_, fun c h => ?_⟩
  · rw [State.cluster_setCluster_same, hcl]
  · rw [State.cluster_setCluster_other _ _ _ _ h, hcl]

/-- The data lost was of a generation that stands no longer: nothing is poisoned. -/
theorem execErrorReport_oldBlock {cl : BitVec 9} {blk : Nat} {gen : BitVec 12} (ht : e.target = .block cl blk gen false)
    (hg : (s.stateAt cl blk).gen ≠ gen) : ∃ t, execErrorReport e s = .next t ∧ t.errHead = s.errHead + 1 ∧ t.clusters = s.clusters ∧
      Maps.get t.errLog (s.errHead.toNat % 1024) = some (s.errorRecord e 1) := by
  have hk : s.errorKind e = 1 := by
    rw [State.errorKind_uncorrected hc, ht]
    simp [State.poisons, hg]
  have hs : (s.errorTold e).strike e.target (UnitId.word e.unit e.syndrome) = s.errorTold e := by
    rw [ht]
    simp only [State.strike, s.errorTold_stateAt e, if_neg Bool.false_ne_true, if_pos (bne_iff_ne.2 hg)]
  obtain ⟨hh, hl⟩ := State.struck_spec (.refl (s.errorTold e))
  refine ⟨_, execErrorReport_uncorrected hc, ?_⟩
  rw [hs]
  exact ⟨hh, s.errorTold_clusters e, by rw [hl, hk]⟩

theorem execErrorReport_block {cl : BitVec 9} {blk : Nat} {gen : BitVec 12} (ht : e.target = .block cl blk gen false)
    (hg : (s.stateAt cl blk).gen = gen) (hp : (s.stateAt cl blk).poisoned = false) : ∃ t, execErrorReport e s = .next t ∧
      t.errHead = s.errHead + 1 ∧ Maps.get t.errLog (s.errHead.toNat % 1024) = some (s.errorRecord e 2) := by
  have hk : s.errorKind e = 2 := by
    rw [State.errorKind_uncorrected hc, ht]
    simp [State.poisons, hg, hp]
  have hs : (s.errorTold e).strike e.target (UnitId.word e.unit e.syndrome) =
      (s.errorTold e).poisonBlock cl blk (s.stateAt cl blk) false [] := by
    rw [ht]
    simp only [State.strike, s.errorTold_stateAt e, if_neg Bool.false_ne_true, hg, bne_self_eq_false]
  obtain ⟨hh, hl⟩ := State.struck_spec (s.errorTold e |>.poisonBlock_steady cl blk (s.stateAt cl blk) false [])
  refine ⟨_, execErrorReport_uncorrected hc, ?_⟩
  rw [hs]
  exact ⟨hh, by rw [hl, hk]⟩

end
end

end Sys2Proof.Machine
end

section
/-!
PROOF. Self-tests: the start, the outcome in the log, and the retirement of a unit (R371 to R375).
-/
namespace Sys2Proof.Machine

/-! ### Self-tests: the start -/

theorem execSelfTestStart_answered {s : State} {u : UnitId} {k : Nat} (hr : s.recordOf u = some k)
    (hk : k < Maps.getD s.tested (UnitId.key u) 0) :
    execSelfTestStart u s = .next s := by
  simp only [execSelfTestStart, hr, hk, decide_true, Bool.or_true, Bool.true_or, if_true]

/-- The test of a unit, as its start enters it. -/
def State.newTest (s : State) (u : UnitId) : Test :=
  { unit := u, record := Maps.getD s.tested (UnitId.key u) 0, second := false, moved := s.movedFor u }

theorem execSelfTestStart_begun {s : State} {u : UnitId} {k : Nat} (hr : s.recordOf u = some k) (h1 : 1 ≤ u.unit.toNat)
    (h10 : u.unit.toNat ≤ 10)
    (ht : ∀ t ∈ s.tests, UnitId.same t.unit u = false) (hk : Maps.getD s.tested (UnitId.key u) 0 ≤ k) :
    execSelfTestStart u s = .next (State.moveAside { s with tests := s.tests ++ [s.newTest u] } u) := by
  have hu : u.unit ≠ 0 := fun h => by rw [h] at h1; simp at h1
  have hany : (s.tests.any fun t => UnitId.same t.unit u) = false := by simpa using ht
  have hstop : (decide (u.unit = 0) || decide (10 < u.unit.toNat) || decide (k < Maps.getD s.tested (UnitId.key u) 0) ||
      s.tests.any fun t => UnitId.same t.unit u) = false := by
    rw [decide_eq_false hu, decide_eq_false (by omega), decide_eq_false (by omega), hany]
    rfl
  simp only [execSelfTestStart, hr, hstop]
  rfl

theorem State.logNoPath_fibresUp (s : State) (m : BitVec 8) : (s.logNoPath m).fibresUp = s.fibresUp := by
  unfold State.logNoPath
  split <;> rfl

theorem State.fibreOut_fibresUp (s : State) (k : Nat) : (s.fibreOut k).fibresUp = s.fibresUp &&& ~~~(1#64 <<< k) :=
  foldl_keeps State.fibresUp (fun t (f : Frame) => t.logNoPath_fibresUp f.dst) _ _

theorem State.moveAside_fibre {s : State} {u : UnitId} (h : u.unit = 9) : s.moveAside u = s.fibreOut (UnitId.fibre u) := by
  simp only [State.moveAside, h]
  rfl

theorem State.moveAside_cluster {s : State} {u : UnitId} (h : u.unit = 4 ∨ u.unit = 10) : s.moveAside u = s.quenchCluster (UnitId.cl u) :=
    by
  rcases h with h | h <;> simp only [State.moveAside, h] <;> rfl

theorem State.storeRec_instances (s : State) (r : Nat) : (s.storeRec r).instances = s.instances := by
  unfold State.storeRec
  split
  · rfl
  · split <;> rfl

theorem State.storeFaulted_instances (s : State) (r : Nat) : (s.storeFaulted r).instances = s.instances := by
  unfold State.storeFaulted
  split
  · rfl
  · dsimp only
    split <;> rfl

theorem State.withdraw_instances (s : State) (r : Nat) : (s.withdraw r).instances = s.instances := by
  unfold State.withdraw
  split <;> rfl

theorem State.stop_instances (s : State) (r : Nat) : (s.stop r).instances = s.instances := by
  unfold State.stop
  split
  · rfl
  split
  · rfl
  · rfl
  · rfl
  · split
    · rfl
    · exact s.storeRec_instances r
  · split
    · rfl
    · exact s.withdraw_instances r
  · exact s.storeRec_instances r
  · rfl
  · exact s.storeRec_instances r
  · exact s.storeRec_instances r
  · exact s.storeRec_instances r
  · rfl
  · rfl
  · exact s.storeRec_instances r
  · exact s.storeFaulted_instances r
  · rfl

/-- A quench marks the one it names, and no other. -/
theorem State.quenchInst_instances {s : State} {n : BitVec 32} {i : Instance} (waits : List (BitVec 32)) (h : s.inst n = some i) :
    (s.quenchInst n waits).instances = Maps.put s.instances n.toNat { i with quenched := true } := by
  unfold State.quenchInst
  rw [h]
  exact foldl_keeps State.instances State.stop_instances _ _

theorem State.quenchInst_none {s : State} {n : BitVec 32} (waits : List (BitVec 32)) (h : s.inst n = none) : s.quenchInst n waits = s := by
  unfold State.quenchInst
  rw [h]

/-- What was quenched before, or is one of those quenched now, stands and is quenched. -/
theorem State.quenchAll_inst {l : List (BitVec 32)} {s : State} {m : BitVec 32} {i : Instance} (hi : s.inst m = some i)
    (h : i.quenched = true ∨ m ∈ l) : ((l.foldl (fun t n => t.quenchInst n []) s).inst m).map Instance.quenched = some true := by
  induction l generalizing s i with
  | nil => simp [hi, h.resolve_right List.not_mem_nil]
  | cons n l ih =>
    rw [List.foldl_cons]
    by_cases hn : n = m
    · subst hn
      have hq : (s.quenchInst n []).inst n = some { i with quenched := true } := by
        rw [State.inst, State.quenchInst_instances [] hi]
        exact Maps.get_put_same ..
      exact ih hq (.inl rfl)
    · have hq : (s.quenchInst n []).inst m = some i := by
        cases hs : s.inst n with
        | none => rw [State.quenchInst_none [] hs, hi]
        | some j =>
          rw [State.inst, State.quenchInst_instances [] hs]
          exact (Maps.get_put_other _ _ _ _ fun e => hn (BitVec.eq_of_toNat_eq e.symm)).trans hi
      exact ih hq (h.imp_right fun hm => (List.mem_cons.1 hm).resolve_left (Ne.symm hn))

theorem State.mem_instsIn {s : State} {cl : BitVec 9} {r : Nat} {st : Strand} {nd : Node} (hr : s.strand r = some st)
    (hc : st.clusterOf = cl)
    (hn : s.node st.node = some nd) : nd.inst ∈ s.instsIn cl := by
  refine List.mem_eraseDups.2 (List.mem_filterMap.2 ⟨(r, st), List.mem_filter.2 ⟨Maps.mem_of_get hr, ?_⟩, ?_⟩)
  · simpa using hc
  · simp [hn]

theorem State.quenchCluster_inst {s : State} {cl : BitVec 9} {r : Nat} {st : Strand} {nd : Node} {i : Instance} (hr : s.strand r = some st)
    (hc : st.clusterOf = cl) (hn : s.node st.node = some nd) (hi : s.inst nd.inst = some i) :
    ((s.quenchCluster cl).inst nd.inst).map Instance.quenched = some true := by
  refine State.quenchAll_inst hi ?_
  cases hq : i.quenched
  · exact .inr (List.mem_filter.2 ⟨State.mem_instsIn hr hc hn, by simp [hi, hq]⟩)
  · exact .inl rfl

/-! ### Self-tests: the end -/

/-- The outcome entered in a record. -/
def outcomeIn (rec : BitVec 256) (outcome : BitVec 8) : BitVec 256 := rec.extractLsb' 144 112 ++ outcome ++ rec.extractLsb' 0 136

/-- The outcome entered in the record of a slot, if it names the unit. -/
def markRecord (u : UnitId) (outcome : BitVec 8) (l : FMap (BitVec 256)) (slot : Nat) : FMap (BitVec 256) :=
  match Maps.get l slot with
  | none => l
  | some r => if UnitId.names u r then Maps.put l slot (outcomeIn r outcome) else l

theorem markRecord_other (u : UnitId) (outcome : BitVec 8) (l : FMap (BitVec 256)) {slot n : Nat} (h : slot ≠ n) :
    Maps.get (markRecord u outcome l n) slot = Maps.get l slot := by
  unfold markRecord
  split
  · rfl
  · split
    · exact Maps.get_put_other _ _ _ _ h
    · rfl

theorem markRecord_self (u : UnitId) (outcome : BitVec 8) {l : FMap (BitVec 256)} {slot : Nat} {rec : BitVec 256}
    (h : Maps.get l slot = some rec) :
    Maps.get (markRecord u outcome l slot) slot = some (if UnitId.names u rec then outcomeIn rec outcome else rec) := by
  unfold markRecord
  rw [h]
  dsimp only
  split
  · exact Maps.get_put_same ..
  · exact h

theorem markRecords_get (u : UnitId) (outcome : BitVec 8) {slots : List Nat} (hd : slots.Nodup) {l : FMap (BitVec 256)} {slot : Nat}
    {rec : BitVec 256} (h : Maps.get l slot = some rec) :
    Maps.get (slots.foldl (markRecord u outcome) l) slot = some
        (if UnitId.names u rec ∧ slot ∈ slots then outcomeIn rec outcome else rec) := by
  induction slots using List.reverseRecOn with
  | nil => simpa using h
  | append_singleton slots n ih =>
    obtain ⟨hd', -, hn⟩ := List.nodup_append.1 hd
    have ih := ih hd'
    rw [List.foldl_concat]
    by_cases he : slot = n
    · subst he
      have hs : slot ∉ slots := fun hm => hn slot hm slot (List.mem_singleton_self _) rfl
      rw [markRecord_self u outcome (rec := rec) (by simpa [hs] using ih)]
      simp
    · rw [markRecord_other u outcome _ he, ih]
      simp [he]

/-- The slots of the error log that hold the records from number `k` on. -/
def State.slotsFrom (s : State) (k : Nat) : List Nat := (List.range (min 1024 (s.errHead.toNat - k))).map fun i => (k + i) % 1024

theorem State.slotsFrom_nodup (s : State) (k : Nat) : (s.slotsFrom k).Nodup := by
  refine List.Nodup.map_on (fun i hi j hj h => ?_) List.nodup_range
  rw [List.mem_range] at hi hj
  omega

theorem State.mem_slotsFrom (s : State) (k slot : Nat) : slot ∈ s.slotsFrom k ↔ ∃ j, k ≤ j ∧ j < s.errHead.toNat ∧ j % 1024 = slot := by
  simp only [State.slotsFrom, List.mem_map, List.mem_range]
  constructor
  · rintro ⟨i, hi, rfl⟩
    exact ⟨k + i, by omega, by omega, rfl⟩
  · rintro ⟨j, hk, hj, rfl⟩
    exact ⟨(j - k) % 1024, by omega, by omega⟩

theorem State.setOutcome_eq (s : State) (u : UnitId) (k : Nat) (outcome : BitVec 8) :
    s.setOutcome u k outcome = { s with errLog := (s.slotsFrom k).foldl (markRecord u outcome) s.errLog } := by
  rw [State.setOutcome, State.slotsFrom, List.foldl_map]
  generalize List.range _ = is
  induction is generalizing s with
  | nil => rfl
  | cons i is ih =>
    rw [List.foldl_cons, List.foldl_cons, ← ih { s with errLog := markRecord u outcome s.errLog ((k + i) % 1024) }]
    congr 1
    unfold markRecord
    cases h : Maps.get s.errLog ((k + i) % 1024) with
    | none => rfl
    | some r =>
      dsimp only
      split <;> rfl

/-- The records of the unit from number `k` on have the outcome, and no other record has changed. -/
theorem State.setOutcome_get (s : State) (u : UnitId) (k : Nat) (outcome : BitVec 8) {slot : Nat} {rec : BitVec 256}
    (h : Maps.get s.errLog slot = some rec) :
    let entered := UnitId.names u rec = true ∧ ∃ j, k ≤ j ∧ j < s.errHead.toNat ∧ j % 1024 = slot
    (entered → Maps.get (s.setOutcome u k outcome).errLog slot = some (outcomeIn rec outcome)) ∧
      (¬entered → Maps.get (s.setOutcome u k outcome).errLog slot = some rec) := by
  intro entered
  have hm : (UnitId.names u rec = true ∧ slot ∈ s.slotsFrom k) ↔ entered := and_congr_right' (s.mem_slotsFrom k slot)
  have hget := markRecords_get u outcome (s.slotsFrom_nodup k) h
  rw [State.setOutcome_eq]
  exact ⟨fun he => hget.trans (by rw [if_pos (hm.2 he)]), fun he => hget.trans (by rw [if_neg (mt hm.1 he)])⟩

theorem State.closeTest_eq (s : State) (u : UnitId) (k : Nat) (outcome : BitVec 8) :
    s.closeTest u k outcome = { s with
      errLog := (s.setOutcome u k outcome).errLog, tested := Maps.put s.tested (UnitId.key u) s.errHead.toNat } := by
  rw [State.closeTest, State.setOutcome_eq]

/-! ### Self-tests: a unit returns, or is retired -/

/-- The unit is under test no longer. -/
def State.untested (s : State) (u : UnitId) : State := { s with tests := s.tests.filter fun x => !UnitId.same x.unit u }

/-- Three reports more than a day apart, or fewer than three, do not last. -/
theorem lasting_eq_false {times : List Word}
    (h : ∀ c b a l, times.reverse = c :: b :: a :: l → 172800000000000 < (c - a).toNat) : lasting times = false := by
  unfold lasting
  split
  · next c b a l ht => exact decide_eq_false (Nat.not_le_of_lt (h c b a l ht))
  · rfl

theorem execSelfTestComplete_passed {s : State} {u : UnitId} {x : Test} (hx : s.tests.find? (fun t => UnitId.same t.unit u) = some x)
    (h9 : u.unit ≠ 9) (h2 : x.second = false) (hl : lasting (Maps.getD s.errTimes (UnitId.key u) []) = false) :
    execSelfTestComplete u true s = .next ((s.untested u).closeTest u x.record 0) := by
  simp only [execSelfTestComplete, hx, h9, h2, hl]
  rfl

/-- A unit that fails its test is retired and its test closed. -/
def State.unitRetired (s : State) (u : UnitId) (x : Test) : State :=
  ((s.untested u).retireUnit u).1.closeTest u x.record ((s.untested u).retireUnit u).2

theorem execSelfTestComplete_failed {s : State} {u : UnitId} {x : Test} (hx : s.tests.find? (fun t => UnitId.same t.unit u) = some x)
    (h9 : u.unit ≠ 9) :
    execSelfTestComplete u false s = .next (if u.unit = 8 then s.unitRetired u x else (s.unitRetired u x).checkDie u.die) := by
  simp only [execSelfTestComplete, hx, h9, decide_false, Bool.or_false, decide_eq_true_eq]
  rfl

theorem State.closeTest_die (s : State) (u : UnitId) (k : Nat) (outcome : BitVec 8) (d : BitVec 3) :
    (s.closeTest u k outcome).die d = s.die d := by
  rw [State.closeTest_eq]
  rfl

/-- The check of a die brings none back, and leaves the tests and the retired clusters. -/
theorem State.checkDie_spec (s : State) (d : BitVec 3) : (s.checkDie d).tests = s.tests ∧ (s.checkDie d).badClusters = s.badClusters ∧
    ∀ e, (s.die e).alive = false → ((s.checkDie d).die e).alive = false := by
  unfold State.checkDie
  split
  · exact ⟨(s.loseDie_lost d).tests, (s.loseDie_lost d).badClusters, (s.loseDie_lost d).others⟩
  · exact ⟨rfl, rfl, fun _ h => h⟩

/-- A die with a cluster in service is not lost. -/
theorem State.checkDie_of_inService {s : State} {c : BitVec 9} (h : s.inService c = true) : s.checkDie (clusterDie c) = s := by
  refine if_neg fun hc => ?_
  obtain ⟨-, hall⟩ := (Bool.and_eq_true_iff).1 hc
  simpa [h] using List.all_eq_true.1 hall c ((mem_dieClusters c _).2 rfl)

theorem clusterDie_cl (u : UnitId) : clusterDie (UnitId.cl u) = u.die := BitVec.extractLsb'_append_eq_left

theorem State.unitRetired_inService {s : State} {u : UnitId} {x : Test} {c : BitVec 9} (hd : ((s.untested u).retireUnit u).1.dies = s.dies)
    (hb : ((s.untested u).retireUnit u).1.badClusters = s.badClusters) (h : s.inService c = true) :
        (s.unitRetired u x).inService c = true := by
  rw [State.unitRetired, State.closeTest_eq]
  simp only [State.inService, State.die, hd, hb]
  exact h

/-- A retired unit has no errors counted to it. -/
def State.timesCleared (s : State) (u : UnitId) : State := { s with errTimes := Maps.del s.errTimes (UnitId.key u) }

/-- Of a unit other than a fibre, with `n` spares, one is left when fewer are used. -/
theorem State.hasSpare_eq {s : State} {u : UnitId} {k n : Nat} (h9 : u.unit ≠ 9) (h : UnitId.spares u = (k, some n)) :
    s.hasSpare u = decide (Maps.getD s.spareUse k 0 < n) := by
  simp only [State.hasSpare, h]
  rw [show (u.unit != 9) = true from bne_iff_ne.2 h9, Bool.true_or, Bool.and_true]

/-- A core, a wavelength or a pseudo-channel with a spare left takes it. -/
theorem State.retireUnit_spare {s : State} {u : UnitId} {k n : Nat} (hu : u.unit = 1 ∨ u.unit = 7 ∨ u.unit = 8)
    (hk : UnitId.spares u = (k, some n)) (hn : Maps.getD s.spareUse k 0 < n) :
    (s.retireUnit u).1 = { s.timesCleared u with spareUse := Maps.put s.spareUse k (Maps.getD s.spareUse k 0 + 1) } := by
  have h9 : u.unit ≠ 9 := by rcases hu with h | h | h <;> rw [h] <;> decide
  have hs : (s.timesCleared u).hasSpare u = true := (State.hasSpare_eq h9 hk).trans (decide_eq_true hn)
  unfold State.retireUnit
  extract_lets s1 x n used d k
  have h1 : s1.hasSpare u = true := hs
  rw [if_pos h1, if_neg h9, if_neg]
  · simp only [used, x, n, hk]
    rfl
  · rcases hu with h | h | h <;> rw [h] <;> decide

/-- A cluster with a spare site left takes it. -/
theorem State.retireUnit_site {s : State} {u : UnitId} {k n : Nat} (hu : u.unit = 4)
    (hk : UnitId.spares u = (k, some n)) (hn : Maps.getD s.spareUse k 0 < n) :
    (s.retireUnit u).1 =
      State.replaceSite { s.timesCleared u with spareUse := Maps.put s.spareUse k (Maps.getD s.spareUse k 0 + 1) } (UnitId.cl u) := by
  have h9 : u.unit ≠ 9 := by rw [hu]; decide
  have hs : (s.timesCleared u).hasSpare u = true := (State.hasSpare_eq h9 hk).trans (decide_eq_true hn)
  unfold State.retireUnit
  extract_lets s1 x n used d k
  have h1 : s1.hasSpare u = true := hs
  rw [if_pos h1, if_neg h9, if_pos (by rw [hu]; decide)]
  simp only [used, x, n, hk]
  rfl

/-- What becomes of a unit without a spare. -/
theorem State.retireUnit_noSpare {s : State} {u : UnitId} {k n : Nat} (h9 : u.unit ≠ 9) (hk : UnitId.spares u = (k, some n))
    (hn : n ≤ Maps.getD s.spareUse k 0) :
    (s.retireUnit u).1 =
      if u.unit = 8 then (s.timesCleared u).fibreOut (UnitId.fibre u)
      else if u.unit = 7 then
        let d := s.driver (u.die ++ u.index.extractLsb' 0 2)
        if (s.die d).alive then (s.timesCleared u).loseDie d else s.timesCleared u
      else if u.unit.toNat ≤ 4 || u.unit = 10 then (s.timesCleared u).leaveCluster (UnitId.cl u)
      else s.timesCleared u := by
  have hs : (s.timesCleared u).hasSpare u = false := (State.hasSpare_eq h9 hk).trans (decide_eq_false (Nat.not_lt_of_le hn))
  unfold State.retireUnit
  extract_lets s1 x n used k d
  have h1 : s1.hasSpare u = false := hs
  rw [h1, if_neg Bool.false_ne_true]
  split
  · rfl
  split
  · rfl
  split <;> rfl

theorem UnitId.spares_core {u : UnitId} (h : u.unit = 1) : UnitId.spares u = (1 + 16 * (UnitId.cl u).toNat, some 1) := by
  simp only [UnitId.spares, h]
  rfl
theorem UnitId.spares_site {u : UnitId} (h : u.unit = 4) : UnitId.spares u = (10 + 16 * u.die.toNat, some 2) := by
  simp only [UnitId.spares, h]
  rfl
theorem UnitId.spares_pseudoChannel {u : UnitId} (h : u.unit = 7) :
    UnitId.spares u = (7 + 16 * (u.die.toNat + 8 * u.index.toNat), some 1) := by
  simp only [UnitId.spares, h]
  rfl
theorem UnitId.spares_wavelength {u : UnitId} (h : u.unit = 8) : UnitId.spares u = (8 + 16 * UnitId.fibre u, some 1) := by
  simp only [UnitId.spares, h]
  rfl

/-- A unit that is under test no longer has no test. -/
theorem State.untested_tests (s : State) (u : UnitId) : ∀ y ∈ (s.untested u).tests, UnitId.same y.unit u = false := fun y hy => by
  simpa using (List.mem_filter.1 hy).2

section
variable {s : State} {u : UnitId} {x : Test} (hx : s.tests.find? (fun t => UnitId.same t.unit u) = some x)
include hx

/-- A pseudo-channel without a spare takes the die that drives its stack. -/
theorem execSelfTestComplete_pseudoChannel (hu : u.unit = 7)
    (hn : 1 ≤ Maps.getD s.spareUse (7 + 16 * (u.die.toNat + 8 * u.index.toNat)) 0) : ∃ t, execSelfTestComplete u false s = .next t ∧
      (t.die (if (s.die u.die).secondPort then u.die ^^^ 4 else u.die)).alive = false := by
  have h9 : u.unit ≠ 9 := by rw [hu]; decide
  have h8 : u.unit ≠ 8 := by rw [hu]; decide
  have hd : (s.untested u).driver (u.die ++ u.index.extractLsb' 0 2) = if (s.die u.die).secondPort then u.die ^^^ 4 else u.die := by
    simp only [State.driver, BitVec.extractLsb'_append_eq_left]
    rfl
  have hr := State.retireUnit_noSpare (s := s.untested u) h9 (UnitId.spares_pseudoChannel hu) hn
  rw [if_neg h8, if_pos hu] at hr
  simp only [hd] at hr
  refine ⟨_, (execSelfTestComplete_failed hx h9).trans (by rw [if_neg h8]), (State.checkDie_spec _ _).2.2 _ ?_⟩
  rw [State.unitRetired, State.closeTest_die, hr]
  generalize (if (s.die u.die).secondPort then u.die ^^^ 4 else u.die) = d
  split
  · exact (((s.untested u).timesCleared u).loseDie_lost d).dead
  · next ha => exact Bool.eq_false_iff.2 ha

/-- A core is replaced by the spare of its cluster, which else goes out of service. -/
theorem execSelfTestComplete_core (hu : u.unit = 1) (hs : s.inService (UnitId.cl u) = true) :
    ∃ t, execSelfTestComplete u false s = .next t ∧ (∀ y ∈ t.tests, UnitId.same y.unit u = false) ∧
      (Maps.getD s.spareUse (1 + 16 * (UnitId.cl u).toNat) 0 = 0 →
        t.spareUse = Maps.put s.spareUse (1 + 16 * (UnitId.cl u).toNat) 1 ∧ t.badClusters = s.badClusters) ∧
      (1 ≤ Maps.getD s.spareUse (1 + 16 * (UnitId.cl u).toNat) 0 → (UnitId.cl u).toNat ∈ t.badClusters) := by
  have h9 : u.unit ≠ 9 := by rw [hu]; decide
  have h8 : u.unit ≠ 8 := by rw [hu]; decide
  obtain ⟨hct, hcb, -⟩ := (s.unitRetired u x).checkDie_spec u.die
  refine ⟨_, (execSelfTestComplete_failed hx h9).trans (by rw [if_neg h8]), ?_⟩
  by_cases hn : Maps.getD s.spareUse (1 + 16 * (UnitId.cl u).toNat) 0 = 0
  · have hr := State.retireUnit_spare (s := s.untested u) (.inl hu) (UnitId.spares_core hu) (Nat.lt_one_iff.2 hn)
    have hi : (s.unitRetired u x).inService (UnitId.cl u) = true := State.unitRetired_inService (by rw [hr]; rfl) (by rw [hr]; rfl) hs
    rw [← clusterDie_cl u, State.checkDie_of_inService hi, State.unitRetired, State.closeTest_eq, hr]
    refine ⟨s.untested_tests u, fun _ => ⟨?_, rfl⟩, fun h => absurd hn (by omega)⟩
    exact congrArg (fun n => Maps.put s.spareUse _ (n + 1)) hn
  · have hr := State.retireUnit_noSpare (s := s.untested u) h9 (UnitId.spares_core hu) (Nat.one_le_iff_ne_zero.2 hn)
    rw [if_neg h8, if_neg (by rw [hu]; decide), if_pos (by rw [hu]; decide)] at hr
    have hst := ((s.untested u).timesCleared u).leaveCluster_steady (UnitId.cl u)
    rw [hct, hcb, State.unitRetired, State.closeTest_eq, hr]
    refine ⟨?_, fun h => absurd h hn, fun _ => ?_⟩
    · rw [hst.tests]
      exact s.untested_tests u
    · rw [hst.badClusters]
      exact List.mem_append_right _ (List.mem_singleton_self _)

/-- A cluster is replaced by a spare site, none of whose own spares is used yet. -/
theorem execSelfTestComplete_site (hu : u.unit = 4) (hn : Maps.getD s.spareUse (10 + 16 * u.die.toNat) 0 < 2)
    (hw : Maps.wf s.spareUse = true) (hs : s.inService (UnitId.cl u) = true) :
    ∃ t, execSelfTestComplete u false s = .next t ∧ t.badClusters = s.badClusters ∧
      Maps.getD t.spareUse (10 + 16 * u.die.toNat) 0 = Maps.getD s.spareUse (10 + 16 * u.die.toNat) 0 + 1 ∧
      ∀ j ∈ [1, 2], Maps.getD t.spareUse (j + 16 * (UnitId.cl u).toNat) 0 = 0 := by
  have h9 : u.unit ≠ 9 := by rw [hu]; decide
  have h8 : u.unit ≠ 8 := by rw [hu]; decide
  have hr := State.retireUnit_site (s := s.untested u) hu (UnitId.spares_site hu) hn
  have hi : (s.unitRetired u x).inService (UnitId.cl u) = true := State.unitRetired_inService (by rw [hr]; rfl) (by rw [hr]; rfl) hs
  obtain ⟨hk, h1, h2⟩ := Maps.getD_put_del_del (k := 10 + 16 * u.die.toNat) (a := 1 + 16 * (UnitId.cl u).toNat)
    (b := 2 + 16 * (UnitId.cl u).toNat) hw (Maps.getD s.spareUse (10 + 16 * u.die.toNat) 0 + 1) (by omega) (by omega) (by omega)
  refine ⟨_, (execSelfTestComplete_failed hx h9).trans (by rw [if_neg h8]), ?_⟩
  rw [← clusterDie_cl u, State.checkDie_of_inService hi, State.unitRetired, State.closeTest_eq, hr, clusterDie_cl u]
  refine ⟨rfl, ?_, ?_⟩
  · exact hk
  · exact List.forall_mem_cons.2 ⟨h1, List.forall_mem_singleton.2 h2⟩

/-- A wavelength is replaced by the spare of its fibre, which else goes out of service. -/
theorem execSelfTestComplete_wavelength (hu : u.unit = 8) : ∃ t, execSelfTestComplete u false s = .next t ∧
    (Maps.getD s.spareUse (8 + 16 * UnitId.fibre u) 0 = 0 →
      t.fibresUp = s.fibresUp ∧ Maps.getD t.spareUse (8 + 16 * UnitId.fibre u) 0 = 1) ∧
    (1 ≤ Maps.getD s.spareUse (8 + 16 * UnitId.fibre u) 0 → t.fibresUp = s.fibresUp &&& ~~~(1#64 <<< UnitId.fibre u)) := by
  have h9 : u.unit ≠ 9 := by rw [hu]; decide
  refine ⟨_, (execSelfTestComplete_failed hx h9).trans (by rw [if_pos hu]), fun h0 => ?_, fun h1 => ?_⟩
  · have hr := State.retireUnit_spare (s := s.untested u) (.inr (.inr hu)) (UnitId.spares_wavelength hu) (Nat.lt_one_iff.2 h0)
    rw [State.unitRetired, State.closeTest_eq, hr]
    refine ⟨rfl, ?_⟩
    rw [Maps.getD]
    dsimp only
    rw [Maps.get_put_same]
    exact congrArg (· + 1) h0
  · have hr := State.retireUnit_noSpare (s := s.untested u) h9 (UnitId.spares_wavelength hu) h1
    rw [if_pos hu] at hr
    rw [State.unitRetired, State.closeTest_eq, hr]
    exact State.fibreOut_fibresUp ..

/-- A unit that passes returns, and its records say so. -/
theorem execSelfTestComplete_returned (h9 : u.unit ≠ 9) (h2 : x.second = false)
    (hl : ∀ c b a l, (Maps.getD s.errTimes (UnitId.key u) []).reverse = c :: b :: a :: l → 172800000000000 < (c - a).toNat) :
    execSelfTestComplete u true s = .next { s with
      tests := s.tests.filter (fun t => !UnitId.same t.unit u), errLog := ((s.untested u).setOutcome u x.record 0).errLog
      tested := Maps.put s.tested (UnitId.key u) s.errHead.toNat } := by
  rw [execSelfTestComplete_passed hx h9 h2 (lasting_eq_false hl), State.closeTest_eq]
  rfl

end

end Sys2Proof.Machine
end

section
/-!
PROOF. Scrubs of the HBM and refresh alerts (R377, R379).
-/
namespace Sys2Proof.Machine

/-! ### Scrubs and refresh alerts -/

theorem execHbmScrub_inS3 {s : State} {stack : BitVec 5} (h : (s.die (s.driver stack)).idle = 3) (line : BitVec 30) (bad : Bool) :
    execHbmScrub stack line bad s = .next s := if_pos h

theorem execHbmScrub_good {s : State} {stack : BitVec 5} (h : (s.die (s.driver stack)).idle ≠ 3) (line : BitVec 30) :
    execHbmScrub stack line false s = .next (s.activate (stack.toNat * 2 ^ 24 + line.toNat / 64)) := if_neg h

theorem execHbmScrub_bad {s : State} {stack : BitVec 5} (h : (s.die (s.driver stack)).idle ≠ 3) (line : BitVec 30) :
    ∃ t, execHbmScrub stack line true s = .next t ∧ t.errHead = s.errHead + 1 := by
  unfold execHbmScrub
  extract_lets blk n _ s1 cl b hit s2 resident held whole
  rw [if_neg h, if_neg (by decide)]
  refine ⟨_, rfl, ?_⟩
  have h2 : s2.errHead = s.errHead + 1 := rfl
  clear_value s2
  split
  · exact ((s2.mergeFailed_reported whole b none).steady.trans (State.poisonBlock_steady ..)).errHead.trans h2
  · exact h2

/-- A row of the stack at its threshold. -/
theorem State.mem_hotRows (s : State) (stack : BitVec 5) (k : Nat) : k ∈ s.hotRows stack ↔
    ∃ n, (k, n) ∈ s.rowActs ∧ k / 2 ^ 24 = stack.toNat ∧ Config.rowThreshold stack.toNat ≤ n := by
  simp [State.hotRows, and_assoc]

theorem execRfmAlert_cold {s : State} {stack : BitVec 5}
    (h : ∀ p ∈ s.rowActs, ¬(p.1 / 2 ^ 24 = stack.toNat ∧ Config.rowThreshold stack.toNat ≤ p.2)) (n : Nat) :
    execRfmAlert stack n s = .next s := by
  refine if_pos (List.isEmpty_iff.2 (List.eq_nil_iff_forall_not_mem.2 fun k hk => ?_))
  obtain ⟨m, hm, hot⟩ := (s.mem_hotRows stack k).1 hk
  exact h _ hm hot

/-- Where each row stands once, a refresh ends the counts of the hot rows and no others. -/
theorem State.mem_filter_hotRows {s : State} (hw : Maps.wf s.rowActs = true) (stack : BitVec 5) (p : Nat × Nat) :
    (p ∈ Maps.filter s.rowActs fun k _ => !(s.hotRows stack).contains k) ↔
      p ∈ s.rowActs ∧ ¬(p.1 / 2 ^ 24 = stack.toNat ∧ Config.rowThreshold stack.toNat ≤ p.2) := by
  have hot (hp : p ∈ s.rowActs) : p.1 ∈ s.hotRows stack ↔ p.1 / 2 ^ 24 = stack.toNat ∧ Config.rowThreshold stack.toNat ≤ p.2 := by
    rw [State.mem_hotRows]
    refine ⟨fun ⟨n, hn, hh⟩ => ?_, fun hh => ⟨p.2, hp, hh⟩⟩
    have : p.2 = n := Option.some.inj ((Maps.get_of_mem hw hp).symm.trans (Maps.get_of_mem hw hn))
    rwa [this]
  simp only [Maps.filter, List.mem_filter, Bool.not_eq_true', List.contains_eq_mem, decide_eq_false_iff_not]
  exact and_congr_right fun hp => not_congr (hot hp)

theorem execRfmAlert_hot {s : State} {stack : BitVec 5} (hw : Maps.wf s.rowActs = true)
    (h : ∃ p ∈ s.rowActs, p.1 / 2 ^ 24 = stack.toNat ∧ Config.rowThreshold stack.toNat ≤ p.2) (n : Nat) :
    ∃ t, execRfmAlert stack n s = .next t ∧
      t.die (s.driver stack) = { s.die (s.driver stack) with perf8 := (s.die (s.driver stack)).perf8 + BitVec.ofNat 64 n } ∧
      (∀ p, p ∈ t.rowActs ↔ p ∈ s.rowActs ∧ ¬(p.1 / 2 ^ 24 = stack.toNat ∧ Config.rowThreshold stack.toNat ≤ p.2)) ∧
      t.strands = s.strands ∧ t.hbm = s.hbm := by
  obtain ⟨p, hp, hot⟩ := h
  have hk : p.1 ∈ s.hotRows stack := (s.mem_hotRows stack p.1).2 ⟨p.2, hp, hot⟩
  unfold execRfmAlert
  extract_lets d hot' s1
  rw [if_neg (by simpa [hot', List.isEmpty_iff] using List.ne_nil_of_mem hk)]
  exact ⟨_, rfl, State.die_setDie_same .., State.mem_filter_hotRows hw stack, rfl, rfl⟩

end Sys2Proof.Machine
end

section
/-!
PROOF. Service and bring-up: the obligation, from the lemmas above.
-/
namespace Sys2Proof.Machine

/-- Settles O55, clause by clause in its own order: each is one of the lemmas above about the event it speaks of. -/
theorem serviceAndBringUp : Obligations.ServiceAndBringUp := by
  intro s
  refine ⟨?bringUp, ?coldReset, ?earlyFault, ?supplyFault, ?supplyRestored, ?bellows, ?idleStates, ?errors, ?testStart, ?testPassed,
    ?pseudoChannel, ?core, ?site, ?wavelength, ?rows, ?dieFailure⟩
  case bringUp =>
    intro o ho why hash floor copy up
    have hwhy (t : State) : why t.rollback = t.componentFail := by
      funext copy n
      simp only [why, State.componentFail]
      cases copy[n]? with
      | none => rfl
      | some c => simp
    refine ⟨fun h => ?_, fun h => ?_, fun h => ?_, fun h hf => ?_, fun h hw hf => ?_⟩
    · have hr : why (s.rollback ||| Config.rollback) = s.readFuses.componentFail := hwhy s.readFuses
      have hs := s.bootRom_sameFuses o
      refine ⟨_, execPowerGood_rom o ho h, ?_⟩
      intro module roll
      rw [hr]
      refine ⟨hs.modNo.trans (extractLow_eq_ofNat _), hs.modSet.trans (getLsbD_eight _), hs.leader.trans (extractLow_eq_ofNat _), hs.domain,
        hs.rollback, fun hA => State.bootRom_copyA hA, fun hA hB =>
            (State.bootRom_copyB hA hB).symm, fun hA hB => State.bootRom_recovery hA hB⟩
    · refine ⟨_, execPowerGood_keep o ho h, ?_⟩
      rw [hwhy s]
      exact ⟨State.bootKeep_of_ok, State.bootKeep_recovery, State.bootKeep_copyA⟩
    · exact ⟨execPowerGood_hearthFails o ho h, execPowerGood_hearthPasses o ho h⟩
    · exact ⟨_, execPowerGood_dies o ho h hf, s.testDies_spec o.dies _⟩
    · have hb := s.bootFibres_spec o hf
      obtain ⟨p, hp⟩ := s.provision_spec o.plan0
      have hplans := s.provision_plans o.plan0
      refine ⟨_, execPowerGood_fibres o ho h hw, ?_⟩
      rw [hb]
      by_cases hm : s.modSet = false ∨ s.leader = s.modNo
      · rw [if_pos hm]
        refine ⟨hplans, ?_, ?_, ?_⟩
        · rw [hp]
          rfl
        · intro _
          have hr := (s.provision o.plan0).becomeReady_spec
          rw [hp] at hr ⊢
          exact hr
        · intro h1 h2
          exact absurd hm (by simp [h1, h2])
      · rw [if_neg hm]
        refine ⟨hplans, ?_, fun h => absurd h hm, fun _ _ => ⟨rfl, ?_⟩⟩
        · rw [hp]
          rfl
        · rw [hp]
          exact ⟨rfl, rfl⟩
  case coldReset =>
    show execColdReset s = _
    simp only [← extractLow_eq_ofNat, ← getLsbD_eight]
    rfl
  case earlyFault =>
    intro hs hk
    refine execSupplyFault_early hs fun h => ?_
    obtain ⟨h2, h15⟩ := s.keepRuns_iff.1 h
    exact hk.elim (fun h => absurd h2 (Nat.not_le_of_lt h)) h15
  case supplyFault => exact fun hs h2 h15 => execSupplyFault_reported hs (s.keepRuns_iff.2 ⟨h2, h15⟩)
  case supplyRestored => exact execSupplyRestored_over
  case bellows =>
    intro want hbm on active rest total watts val
    obtain ⟨t, ht, hg, hs, hc, ha, hd⟩ := execBellowsPeriod_spec want hbm s
    have hw (floor d cap : Nat) : wattsOf (capWatts (sharedWatts total rest floor d) cap) = watts floor d cap := wattsOf_sharedWatts ..
    refine ⟨t, ht, ?_, hs, hc, fun i => ?_, s.anvil_spent t ha⟩
    · rw [← hw, hg]
      rfl
    · rw [hd i]
      by_cases hi : on i = true
      · rw [if_pos hi, ← hw]
        have hi' : (s.dies[i]).granted = true := hi
        dsimp only
        rw [if_pos hi', if_pos hi']
        exact ⟨rfl, budgetOf_eq_floor (capWatts_pos _ (sharedWatts_pos ..))⟩
      · rw [if_neg hi]
        have hi' : (s.dies[i]).granted ≠ true := hi
        dsimp only
        rw [if_neg hi', if_neg hi']
        exact ⟨rfl, rfl⟩
  case idleStates =>
    intro k d x tol
    refine ⟨execIdleStateEntry_core, rfl, execIdleStateEntry_s2, fun ha hi hq ht => ?_, execIdleStateExit_die d,
      execIdleStateEntry_module, rfl⟩
    have hr := s.settleDie_reported d
    have hx : (s.settleDie d).die d = s.die d := by rw [State.die, hr.dies, State.die]
    refine ⟨_, execIdleStateEntry_s3 ha hi hq ht, ?_, hr.strands, fun c hc => s.settleDie_copies hc⟩
    rw [State.die_setDie_same, hx]
    rfl
  case errors =>
    intro e hearth cycle word record
    have hrec (kind : BitVec 8) : record kind = s.errorRecord e kind := by
      simp only [record, State.errorRecord, s.cycleOf_eq, UnitId.word_eq]
      rfl
    simp only [hrec]
    refine ⟨execErrorReport_logged, ?_, ?_, ?_⟩
    · exact fun r st nd i hc ht hr hn hi hw hf => execErrorReport_strand hc ht hr hn hi hw (Strand.commanded_eq_false hf)
    · exact fun cl vbn gen hc ht => execErrorReport_copy hc ht
    · exact fun cl blk gen hc ht => ⟨execErrorReport_oldBlock hc ht, execErrorReport_block hc ht⟩
  case testStart =>
    intro u k hr h1 h10 ht
    refine ⟨execSelfTestStart_answered hr, fun hk => ⟨_, execSelfTestStart_begun hr h1 h10 ht hk, ?_, fun h9 => ?_, ?_⟩⟩
    · rw [(State.moveAside_steady _ u).tests]
      simp only [State.newTest, State.movedFor, Bool.or_eq_true, decide_eq_true_eq]
      rfl
    · rw [State.moveAside_fibre h9]
      exact State.fibreOut_fibresUp ..
    · intro hu r st nd i hst hc hn hi
      rw [State.moveAside_cluster hu]
      exact State.quenchCluster_inst hst hc hn hi
  case testPassed =>
    intro u x hx h9 h2 hl
    exact ⟨_, execSelfTestComplete_returned hx h9 h2 hl, fun slot rec h => (s.untested u).setOutcome_get u x.record 0 h⟩
  case pseudoChannel => exact fun u x hx hu hn => execSelfTestComplete_pseudoChannel hx hu hn
  case core => exact fun u x hx hu hs => execSelfTestComplete_core hx hu hs
  case site => exact fun u x hx hu hn hw hs => execSelfTestComplete_site hx hu hn hw hs
  case wavelength => exact fun u x hx hu => execSelfTestComplete_wavelength hx hu
  case rows =>
    intro stack line n d blk hot
    exact ⟨fun h bad => execHbmScrub_inS3 h line bad, fun h => ⟨execHbmScrub_good h line, execHbmScrub_bad h line⟩,
      fun h => execRfmAlert_cold h n, fun h hw => execRfmAlert_hot hw h n⟩
  case dieFailure =>
    intro d ha
    have hl := s.loseDie_lost d
    exact ⟨_, congrArg Host.Outcome.next (if_pos ha), hl.dead, hl.secondPort, hl.ready, hl.tlb⟩

end Sys2Proof.Machine
end

section
/-!
PROOF. The host's sessions (R35, R36, R39, R389): what an OPEN, a CONFIRM, a datagram, an acknowledgement and a retransmission do.
-/
namespace Sys2Proof.Machine

/-! ### What the shared operations change -/

theorem State.whenReady_of_ready {s : State} (h : s.boot.stage = 7) (port : Bool) (go : State) : s.whenReady port go = go := by
  simp [State.whenReady, State.ready, h]

theorem State.rouseModule_eq (s : State) : s.rouseModule = { s with modState := 0 } := by
  unfold State.rouseModule
  split
  · next h => rw [← h]
  · rfl

theorem State.keepNext_of_free {s : State} (hs : s.starting = none) (hw : s.keepWait = none) : s.keepNext = s.keepq := by
  simp [State.keepNext, hs, hw]

/-- The segments of a message leave the module; the state changes in nothing else. -/
theorem State.sendSegments_spec (fuel : Nat) (s : State) (n : BitVec 32) (se : Session) (typ : BitVec 8) (body : List Byte) :
    ∃ out, (s.sendSegments fuel n se typ body).1 = { s with outbox := out } := by
  induction fuel generalizing s se body with
  | zero => exact ⟨_, rfl⟩
  | succ fuel ih =>
    rw [State.sendSegments]
    split
    · exact ⟨_, rfl⟩
    · obtain ⟨out, h⟩ := ih (s.emit (se.datagram n se.txNext typ (!decide (body.length ≤ 8192)) (body.take 8192))) _ (body.drop 8192)
      exact ⟨out, h⟩

/-- A message sent changes what has left the module and the sessions. -/
theorem State.sendMsg_spec (s : State) (n : BitVec 32) (typ : BitVec 8) (body : List Byte) :
    ∃ out l, s.sendMsg n typ body = { s with outbox := out, sessions := l } := by
  unfold State.sendMsg
  split
  · exact ⟨_, _, rfl⟩
  · next se _ =>
    obtain ⟨out, h⟩ := s.sendSegments_spec body.length n se typ body
    dsimp only
    rw [h]
    exact ⟨_, _, rfl⟩

/-- So does a repeated OPENED. -/
theorem State.repeatOpened_spec (s : State) (n : BitVec 32) (se : Session) :
    ∃ out l, s.repeatOpened n se = { s with outbox := out, sessions := l } := by
  unfold State.repeatOpened
  split
  · exact s.sendMsg_spec ..
  · generalize List.filter _ se.unacked = l
    induction l generalizing s with
    | nil => exact ⟨_, _, rfl⟩
    | cons q r ih =>
      obtain ⟨out, l, h⟩ := ih (s.emit (se.datagram n q.1 q.2.1 q.2.2.1 q.2.2.2.1))
      exact ⟨out, l, h⟩

/-! ### Opening (R35, R389) -/

/-- An OPEN whole in one datagram joins the Keep's order, unless a session stands that it has opened. -/
theorem State.takeOpen_spec {s : State} {port : Bool} {d : Datagram} (hm : d.m = false)
    (hq : .openReq port d.seq d.body ∉ s.keepq) :
    (s.takeOpen port d).hbm = s.hbm ∧ (s.takeOpen port d).keepq =
      if (s.sessions.any fun p => p.2.port == port && p.2.openSeq == d.seq && p.2.openBody == d.body) then s.keepq
      else s.keepq ++ [.openReq port d.seq d.body] := by
  unfold State.takeOpen
  rw [if_neg (by simp [hm, hq])]
  split
  · next n se hf =>
    obtain ⟨out, l, h⟩ := s.repeatOpened_spec (BitVec.ofNat 32 n) se
    rw [h, if_pos (List.any_eq_true.2 ⟨_, List.mem_of_find?_eq_some hf, List.find?_some hf⟩)]
    exact ⟨rfl, rfl⟩
  · next hf =>
    obtain ⟨ss, ks, h⟩ := State.tellKeep_spec { s with keepq := s.keepq ++ [.openReq port d.seq d.body] } 2#8 d.seq.toNat
    rw [h, if_neg fun ha => ?_]
    · exact ⟨rfl, rfl⟩
    · obtain ⟨p, hp, he⟩ := List.any_eq_true.1 ha
      exact List.find?_eq_none.1 hf p hp he

theorem execUhpSegment_open {s : State} (hr : s.boot.stage = 7) {port : Bool} {d : Datagram} (hv : d.ver = 1) (hn : d.session = 0)
    (ht : d.typ = 1) : execUhpSegment port d s = .next (State.takeOpen { s with modState := 0 } port d) := by
  rw [← State.rouseModule_eq]
  simp [execUhpSegment, State.whenReady_of_ready hr, hv, hn, ht]

/-- An OPEN at the head of the Keep's order, with a number and room for it, is answered OPENED. -/
theorem execOpenSession_opened {s : State} {port : Bool} {seq number : BitVec 32} {body : List Byte} {q : List KeepReq}
    (hs : s.starting = none) (hw : s.keepWait = none) (hq : s.keepq = .openReq port seq body :: q) (h0 : number ≠ 0)
    (hu : number.toNat ∉ s.sessUsed) (hl : s.sessions.length < 16) (hb : body.length = 1601) (hk : recField body 32 1 ≤ 3) :
    execOpenSession port seq body number s =
      let unsigned := openedBody number s.tick body
      let opened := unsigned ++ Config.identitySignature (openingHash body unsigned)
      .next ((({ s with keepq := q, sessUsed := s.sessUsed ++ [number.toNat] } : State).setSession number
        (openingSession port seq body opened (openingKeys s.tick body unsigned))).sendMsg number 2 opened) := by
  unfold execOpenSession
  simp only [State.keepNext_of_free hs hw, hq]
  rw [if_neg (by simp), if_neg (by omega), if_neg (not_or.2 ⟨h0, by simp [hu]⟩)]
  rfl

/-! ### Confirming (R35, R389) -/

theorem State.confirming_head {s : State} {n seq : BitVec 32} {bad : Bool} {body : List Byte} {q : List KeepReq} {se : Session}
    (hs : s.starting = none) (hw : s.keepWait = none) (hq : s.keepq = .uhp n seq 3 bad body :: q)
    (hn : Maps.get s.sessions n.toNat = some se) (hp : se.phase = .opening) : s.confirming n seq = some (bad, se, q) := by
  simp [State.confirming, State.keepNext_of_free hs hw, hq, State.session, hn, hp]

/-- A slot may enrol when it is slot 0, no key is stored and the fuse is whole. -/
theorem State.enrolling_iff (s : State) (slot : BitVec 2) :
    s.enrolling slot = true ↔ slot = 0 ∧ s.enrolLock = false ∧ ∀ k < 4, s.slotEmpty k = true := by
  simp [State.enrolling, and_assoc]

section
variable {s : State} {n seq : BitVec 32} {bad : Bool} {se : Session} {q : List KeepReq} (hc : s.confirming n seq = some (bad, se, q))
include hc

theorem execConfirm_enrolling (he : s.enrolling se.slot = true) (sig : Bool) : execConfirm n seq sig s =
    .next ((({ s with keepq := q } : State).setSession n { se with phase := .enrolling }).reply n seq 0 []) := by
  simp [execConfirm, hc, he]

/-- A key in the session's own slot rules enrolment out. -/
theorem execConfirm_opened (hb : bad = false) (he : s.slotEmpty se.slot.toNat = false) : execConfirm n seq true s =
    .next ((({ s with keepq := q } : State).setSession n { se with phase := .opened }).reply n seq 0 []) := by
  have hne : s.enrolling se.slot ≠ true := fun h => by
    have := ((s.enrolling_iff se.slot).1 h).2.2 se.slot.toNat se.slot.isLt
    simp [he] at this
  simp [execConfirm, hc, hb, he, hne]

theorem execConfirm_refused (he : s.enrolling se.slot ≠ true) :
    execConfirm n seq false s = .next (({ s with keepq := q } : State).closeSession n) := by
  simp [execConfirm, hc, he]

end

theorem State.confirmCame_iff (s : State) (n : BitVec 32) :
    s.confirmCame n = true ↔ ∃ seq bad body, .uhp n seq 3 bad body ∈ s.keepq := by
  simp only [State.confirmCame, List.any_eq_true]
  constructor
  · rintro ⟨k, hk, h⟩
    split at h
    · next m seq typ bad body =>
      obtain ⟨rfl, rfl⟩ := by simpa using h
      exact ⟨seq, bad, body, hk⟩
    · simp at h
  · rintro ⟨seq, bad, body, h⟩
    exact ⟨_, h, by simp⟩

theorem execConfirmTimeout_opening {s : State} {n : BitVec 32} {se : Session} (hn : Maps.get s.sessions n.toNat = some se)
    (hp : se.phase = .opening) : execConfirmTimeout n s = .next (if s.confirmCame n = false then s.closeSession n else s) := by
  simp only [execConfirmTimeout, State.session, hn, hp, true_and]
  split <;> rfl

/-! ### Datagrams (R36, R39) -/

/-- A datagram under the keys of its session reaches it; while the session is not open, acknowledgements and CONFIRM alone. -/
theorem State.takeDatagram_verified {s : State} {n : BitVec 32} {se : Session} {d : Datagram} (hn : Maps.get s.sessions n.toNat = some se)
    (hu : d.under = some n) (hp : se.phase ≠ .opening ∨ d.typ = 0x8F) : s.takeDatagram n d = State.datagram { s with modState := 0 } n se d := by
  rw [← State.rouseModule_eq]
  simp only [State.takeDatagram, State.session, hn, hu, ne_eq, not_true_eq_false, if_false]
  rw [if_neg (by rcases hp with h | h <;> simp [h])]

theorem State.takeDatagram_badTag {s : State} {n : BitVec 32} {se : Session} {d : Datagram} (hn : Maps.get s.sessions n.toNat = some se)
    (hu : d.under ≠ some n) : s.takeDatagram n d = s.badTag := by
  simp [State.takeDatagram, State.session, hn, hu]

/-- A tag that fails changes the error log alone. -/
theorem State.badTag_spec (s : State) : ∃ l, s.badTag = { s with errHead := s.errHead + 1, errLog := l } := ⟨_, rfl⟩

theorem execUhpSegment_session {s : State} (hr : s.boot.stage = 7) {port : Bool} {d : Datagram} (hv : d.ver = 1) (hn : d.session ≠ 0)
    (ht : d.typ ≠ 3#8) : execUhpSegment port d s = .next (s.takeDatagram d.session d) := by
  rw [execUhpSegment, State.whenReady_of_ready hr, if_neg (by simp [hv]), if_pos hn, if_neg ht]

theorem execAck_session {s : State} (hr : s.boot.stage = 7) {port : Bool} {d : Datagram} (hv : d.ver = 1) (hn : d.session ≠ 0)
    (ht : d.typ = 0x8F) : execAck port d s = .next (s.takeDatagram d.session d) := by
  rw [execAck, State.whenReady_of_ready hr, if_neg (by simpa [hv, ht] using hn)]

/-- The datagrams that a cumulative acknowledgement does not cover stay. -/
theorem Session.acked_eq (se : Session) (a : BitVec 32) :
    se.acked a = { se with unacked := se.unacked.filter fun q => decide (2 ^ 31 ≤ (a - q.1).toNat) } := by
  simp only [Session.acked, ← decide_not, Nat.not_lt]
  rfl

theorem State.datagram_ack {s : State} {n : BitVec 32} {se : Session} {d : Datagram} (ht : d.typ = 0x8F) (ha : d.a = true) :
    s.datagram n se d = s.setSession n (se.acked d.ack) := by
  simp [State.datagram, ht, ha]

/-- A session that has taken a message whole in one datagram, in its turn. -/
def Session.delivered (se : Session) : Session := { se with rxNext := se.rxNext + 1, part := [], partBad := false }

/-- A message whole in one datagram goes to the Keep. -/
def State.handed (s : State) (n : BitVec 32) (d : Datagram) : State :=
  ({ s with keepq := s.keepq ++ [.uhp n d.seq d.typ false d.body] } : State).tellKeep 2 d.seq.toNat

/-- What that changes, besides the Keep's order. -/
theorem State.handed_spec (s : State) (n : BitVec 32) (d : Datagram) : ∃ ss ks, s.handed n d =
    { s with keepq := s.keepq ++ [.uhp n d.seq d.typ false d.body], strands := ss, keepEvents := ks } := State.tellKeep_spec ..

theorem State.takeSegment_whole {s : State} {n : BitVec 32} {se : Session} {d : Datagram} (hm : d.m = false) (hp : se.partOn = false)
    (hl : d.body.length ≤ 8192) : s.takeSegment n se d = (s.handed n d, se.delivered) := by
  have hmax : ¬maxBody < d.body.length := by unfold maxBody; omega
  simp [State.takeSegment, State.handed, Session.delivered, hm, hp, Nat.not_lt.2 hl, hmax]

theorem State.drainHeld_nil {s : State} {fuel : Nat} {n : BitVec 32} {se : Session} (h : se.rxHeld = []) :
    s.drainHeld fuel n se = (s, se) := by
  cases fuel with
  | zero => rfl
  | succ fuel => simp only [State.drainHeld, h, Maps.get]

theorem State.drainHeld_due {s : State} {fuel : Nat} {n : BitVec 32} {se : Session} {d : Datagram}
    (h : Maps.get se.rxHeld se.rxNext.toNat = some d) : s.drainHeld (fuel + 1) n se =
      let x := s.takeSegment n { se with rxHeld := Maps.del se.rxHeld se.rxNext.toNat } d
      x.1.drainHeld fuel n x.2 := by
  simp only [State.drainHeld, h]

/-- A datagram in its turn that is a whole message, where none is held, is delivered at once. -/
theorem State.drainHeld_inTurn {s : State} {fuel : Nat} {n : BitVec 32} {se : Session} {d : Datagram} (hs : d.seq = se.rxNext)
    (hm : d.m = false) (hp : se.partOn = false) (hh : se.rxHeld = []) (hl : d.body.length ≤ 8192) :
    s.drainHeld (fuel + 1) n { se with rxHeld := Maps.put se.rxHeld d.seq.toNat d } =
      (s.handed n d, se.delivered) := by
  have hdel : ({ se with rxHeld := Maps.del (Maps.put se.rxHeld d.seq.toNat d) se.rxNext.toNat } : Session) = se := by
    simp only [hh, hs, Maps.put, Maps.del, if_true]
    rw [← hh]
  rw [State.drainHeld_due (d := d) (by rw [hs]; exact Maps.get_put_same ..)]
  dsimp only
  rw [hdel, State.takeSegment_whole hm hp hl]
  exact State.drainHeld_nil hh

/-- It is acknowledged at once too. -/
theorem State.datagram_inTurn {s : State} {n : BitVec 32} {se : Session} {d : Datagram} (ha : d.a = false) (ht : d.typ ≠ 0x8F#8)
    (hs : d.seq = se.rxNext) (hm : d.m = false) (hp : se.partOn = false) (hh : se.rxHeld = []) (hl : d.body.length ≤ 8192) :
    s.datagram n se d = (((s.setSession n se).handed n d).setSession n se.delivered).emit
      (se.delivered.datagram n se.txNext 0x8F false []) := by
  unfold State.datagram
  rw [ha, if_neg Bool.false_ne_true]
  have hturn : (d.seq - se.rxNext).toNat < 64 := by simp [hs]
  extract_lets _ _ x
  have hx : x = ((s.setSession n se).handed n d, se.delivered) := State.drainHeld_inTurn (fuel := 63) hs hm hp hh hl
  rw [if_neg ht, if_pos hturn, hx]
  rfl

theorem Session.delivered_acks (se : Session) (n seq : BitVec 32) : se.delivered.datagram n seq 0x8F false [] =
    .uhp se.port n seq 0x8F false se.rxNext [] (some (se.partKey, se.nonce seq)) := by
  have hack : se.rxNext + 1 - 1 = se.rxNext := BitVec.add_sub_cancel ..
  rw [← hack]
  rfl

theorem State.datagram_delivers {s : State} {n : BitVec 32} {se : Session} {d : Datagram} (ha : d.a = false) (ht : d.typ ≠ 0x8F#8)
    (hs : d.seq = se.rxNext) (hm : d.m = false) (hp : se.partOn = false) (hh : se.rxHeld = []) (hl : d.body.length ≤ 8192) :
    let t := s.datagram n se d
    t.keepq = s.keepq ++ [.uhp n d.seq d.typ false d.body] ∧
      t.outbox = s.outbox ++ [.uhp se.port n se.txNext 0x8F false d.seq [] (some (se.partKey, se.nonce se.txNext))] ∧
      Maps.get t.sessions n.toNat = some se.delivered ∧ t.hbm = s.hbm := by
  obtain ⟨ss, ks, h⟩ := (s.setSession n se).handed_spec n d
  dsimp only
  rw [State.datagram_inTurn ha ht hs hm hp hh hl, Session.delivered_acks, h, hs]
  exact ⟨rfl, rfl, Maps.get_put_same .., rfl⟩

/-! ### Retransmission (R36, R39) -/

/-- The datagrams that stand unacknowledged, that of `seq` sent once more. -/
def Session.resent (se : Session) (seq : BitVec 32) : List (BitVec 32 × BitVec 8 × Bool × List Byte × Nat) :=
  match se.unacked.find? fun q => q.1 == seq with
  | none => se.unacked
  | some (q, typ, more, body, sent) => se.unacked.map fun x => if x.1 == seq then (q, typ, more, body, sent + 1) else x

section
variable {s : State} {n seq : BitVec 32} {se : Session} {typ : BitVec 8} {more : Bool} {body : List Byte} {sent : Nat}
  (hn : Maps.get s.sessions n.toNat = some se) (hq : se.unacked.find? (fun q => q.1 == seq) = some (seq, typ, more, body, sent))
include hq

theorem Session.mem_resent : (seq, typ, more, body, sent + 1) ∈ se.resent seq := by
  simp only [Session.resent, hq]
  exact List.mem_map.2 ⟨_, List.mem_of_find?_eq_some hq, if_pos (BEq.refl _)⟩

theorem Session.resent_length : (se.resent seq).length = se.unacked.length := by
  simp only [Session.resent, hq, List.length_map]

include hn

theorem execUhpRetransmit_closes (hs : 16 < sent) : execUhpRetransmit n seq s = .next (s.closeSession n) := by
  simp only [execUhpRetransmit, State.session, hn, hq, if_pos hs]

theorem execUhpRetransmit_repeats (hs : sent ≤ 16) : execUhpRetransmit n seq s =
    .next ((s.setSession n { se with unacked := se.resent seq }).emit (se.datagram n seq typ more body)) := by
  simp only [execUhpRetransmit, State.session, hn, hq, if_neg (Nat.not_lt.2 hs), Session.resent]

end

end Sys2Proof.Machine
end

section
/-!
PROOF. What a port posts for the host's messages (R46, R255, R273): its operations stand on their way to their homes.
-/
namespace Sys2Proof.Machine

/-! ### Sending one operation -/

/-- A host's operation on its way stays so. -/
theorem Onward.onWay_host {s t : State} (h : Onward s t) {k : Nat} {o : Op} {n : BitVec 24} {id : Nat} (hk : k < s.fresh)
    (ha : o.asker = .host n id) (ho : s.onWay k o) : t.onWay k o := by
  have hb : t.opBody o = s.opBody o := by simp [State.opBody, ha, Asker.clusterOf]
  cases hp : o.place with
  | off m =>
    simp only [State.onWay, hp, hb, h.modNo] at ho ⊢
    exact ho.imp fun _ hg => h.frames _ hg
  | dom _ _ | pad _ _ =>
    simp only [State.onWay, hp] at ho ⊢
    rw [h.net k hk, ho]

/-- From `s` to `t` operations have been sent: where each handle has its place, HBM, the strands and the queue pairs stand. -/
structure Posted (s t : State) : Prop extends Onward s t where
  placeOf : t.placeOf = s.placeOf
  hbm : t.hbm = s.hbm
  strands : t.strands = s.strands
  qps : t.qps = s.qps

theorem Posted.refl (s : State) : Posted s s := ⟨.refl s, rfl, rfl, rfl, rfl⟩
theorem Posted.trans {s t u : State} (h : Posted s t) (h' : Posted t u) : Posted s u :=
  ⟨h.toOnward.trans h'.toOnward, h'.placeOf.trans h.placeOf, h'.hbm.trans h.hbm, h'.strands.trans h.strands, h'.qps.trans h.qps⟩

/-- A frame that goes out or is held changes the Lantern, what has left the module, and the event log. -/
theorem State.inject_frame (s : State) (f : Frame) : ∃ out l k np el eh, s.inject f =
    { s with outbox := out, lantern := l, kept := k, noPath := np, evtLog := el, evtHead := eh } := by
  unfold State.inject
  split
  · exact ⟨_, _, _, _, _, _, rfl⟩
  · split
    · exact ⟨_, _, _, _, _, _, rfl⟩
    · unfold State.logNoPath
      dsimp only
      split <;> exact ⟨_, _, _, _, _, _, rfl⟩

theorem State.forward_frame (s : State) (o : Op) : ∃ fr nt out l k np el eh, s.forward o =
    { s with fresh := fr, net := nt, outbox := out, lantern := l, kept := k, noPath := np, evtLog := el, evtHead := eh } := by
  unfold State.forward
  split
  · next m _ =>
    obtain ⟨out, l, k, np, el, eh, h⟩ :=
      State.inject_frame { s with fresh := s.fresh + 1 } { src := s.modNo, dst := m, num := s.fresh, body := s.opBody o }
    exact ⟨_, _, _, _, _, _, _, _, h⟩
  · exact ⟨_, _, _, _, _, _, _, _, rfl⟩

/-- Sending an operation changes what its unit holds and has numbered besides. -/
theorem State.sendOp_frame (s : State) (kind : OpKind) (h : Word) (p : Place) (u : Nat) (a : Asker) (t : Nat) (b : BitVec 2) (ord : Nat)
    (node : BitVec 32) : ∃ us sq fr nt out l k np el eh, s.sendOp kind h p u a t b ord node =
      { s with units := us, seqs := sq, fresh := fr, net := nt, outbox := out, lantern := l, kept := k, noPath := np, evtLog := el,
               evtHead := eh } := by
  unfold State.sendOp
  extract_lets _ o _ s'
  obtain ⟨fr, nt, out, l, k, np, el, eh, hf⟩ := s'.forward_frame o
  exact ⟨_, _, fr, nt, out, l, k, np, el, eh, hf⟩

theorem State.sendOp_posted (s : State) (kind : OpKind) (h : Word) (p : Place) (u : Nat) (a : Asker) (t : Nat) (b : BitVec 2) (ord : Nat)
    (node : BitVec 32) : Posted s (s.sendOp kind h p u a t b ord node) := by
  obtain ⟨-, hon, -⟩ := s.sendOp_spec kind h p u a t b ord node
  obtain ⟨us, sq, fr, nt, out, l, k, np, el, eh, hf⟩ := s.sendOp_frame kind h p u a t b ord node
  rw [hf] at hon ⊢
  exact ⟨hon, rfl, rfl, rfl, rfl⟩

theorem State.roomFor_iff (s : State) (u home n : Nat) : s.roomFor u home n = true ↔ s.unackedAt u home + n ≤ 1024 := decide_eq_true_iff

theorem State.unackedAt_sendOp (s : State) (kind : OpKind) (h : Word) (p : Place) (u : Nat) (a : Asker) (t : Nat) (b : BitVec 2) (ord : Nat)
    (node : BitVec 32) (home : Nat) : (s.sendOp kind h p u a t b ord node).unackedAt u home ≤ s.unackedAt u home + 1 := by
  obtain ⟨-, -, -, -, hu, -⟩ := s.sendOp_spec kind h p u a t b ord node
  simp only [State.unackedAt, hu, Maps.getD, Maps.get_put_same, Option.getD_some, List.filter_append, List.length_append]
  exact Nat.add_le_add_left (List.length_filter_le ..) _

/-- Each operation takes up room for one. -/
theorem State.roomFor_sendOp {s : State} {kind : OpKind} {h : Word} {p : Place} {u : Nat} {a : Asker} {t : Nat} {b : BitVec 2} {ord : Nat}
    {node : BitVec 32} {home n : Nat} (hr : s.roomFor u home (n + 1) = true) :
    (s.sendOp kind h p u a t b ord node).roomFor u home n = true := by
  rw [State.roomFor_iff] at hr ⊢
  have := s.unackedAt_sendOp kind h p u a t b ord node home
  omega

/-! ### Sending the operations of a message -/

/-- The operation for one unit of a WRITE, or for one block of a READ. -/
def hostKind (reads : Bool) (x : Word × List Byte) : OpKind :=
  if reads then .read false else .write (Handle.off x.1) 8 (Payload.ofBytes x.2) false

/-- The handle has a place, with room for `n` more operations of the port at its home. -/
def State.portRoom (s : State) (port : Bool) (n : Nat) (h : Word) : Prop :=
  ∃ pl, s.placeOf h 0 = some pl ∧ s.roomFor (unitPort port) (homeOf pl) n = true

theorem State.portRoom.placed {s : State} {port : Bool} {n : Nat} {h : Word} (hr : s.portRoom port n h) : s.placeOf h 0 ≠ none := by
  obtain ⟨pl, hp, -⟩ := hr
  exact fun hx => Option.some_ne_none pl (hp.symm.trans hx)

/-- The operation of message `id` of pair `n` for a unit or block is on its way. -/
def State.hostPosted (s : State) (port : Bool) (n : BitVec 24) (id : Nat) (reads : Bool) (x : Word × List Byte) : Prop :=
  ∃ k u pl, k < s.fresh ∧ s.placeOf x.1 0 = some pl ∧
    s.onWay k (State.opOf u (hostKind reads x) x.1 pl (unitPort port) (.host n id) 0 0 n.toNat 0)

theorem Posted.hostPosted {s t : State} (h : Posted s t) {port : Bool} {n : BitVec 24} {id : Nat} {reads : Bool} {x : Word × List Byte}
    (hx : s.hostPosted port n id reads x) : t.hostPosted port n id reads x := by
  obtain ⟨k, u, pl, hk, hp, ho⟩ := hx
  exact ⟨k, u, pl, Nat.lt_of_lt_of_le hk h.fresh, by rw [h.placeOf, hp], h.onWay_host hk rfl ho⟩

theorem State.postSome_cons {s : State} {port : Bool} {n : BitVec 24} {id : Nat} {reads : Bool} {x : Word × List Byte}
    {pl : Place} (hp : s.placeOf x.1 0#4 = some pl) (hr : s.roomFor (unitPort port) (homeOf pl) 1 = true) (r : List (Word × List Byte)) :
    s.postSome port n id reads (x :: r) =
      (s.sendOp (hostKind reads x) x.1 pl (unitPort port) (.host n id) 0 0 n.toNat 0).postSome port n id reads r := by
  rw [State.postSome, hp]
  exact if_pos hr

/-- With a place and room for each, all are sent in order. -/
theorem State.postSome_all {port : Bool} {n : BitVec 24} {id : Nat} {reads : Bool} (l : List (Word × List Byte)) {s : State}
    (hl : ∀ x ∈ l, s.portRoom port l.length x.1) : ∃ t, s.postSome port n id reads l = (t, [], 0) ∧ Posted s t ∧
      ∀ x ∈ l, t.hostPosted port n id reads x := by
  induction l generalizing s with
  | nil => exact ⟨s, rfl, .refl s, List.forall_mem_nil _⟩
  | cons x r ih =>
    obtain ⟨pl, hp, hroom⟩ := hl x (List.mem_cons_self ..)
    let s' := s.sendOp (hostKind reads x) x.1 pl (unitPort port) (.host n id) 0 0 n.toNat 0
    have hs : Posted s s' := s.sendOp_posted ..
    obtain ⟨how, -, hfresh, -⟩ := s.sendOp_spec (hostKind reads x) x.1 pl (unitPort port) (.host n id) 0 0 n.toNat 0
    obtain ⟨t, ht, hst, hall⟩ := ih (s := s') fun y hy => by
      obtain ⟨pl', hp', hroom'⟩ := hl y (List.mem_cons_of_mem _ hy)
      exact ⟨pl', by rw [hs.placeOf, hp'], State.roomFor_sendOp hroom'⟩
    refine ⟨t, ?_, hs.trans hst, List.forall_mem_cons.2 ⟨hst.hostPosted ⟨s.fresh, s, pl, ?_, ?_, how⟩, hall⟩⟩
    · rw [← ht]
      refine State.postSome_cons hp ((State.roomFor_iff ..).2 ?_) r
      rw [State.roomFor_iff, List.length_cons] at hroom
      omega
    · exact hfresh ▸ Nat.lt_succ_self _
    · rw [hs.placeOf, hp]

end Sys2Proof.Machine
end

section
/-!
PROOF. The queue pairs of the host (R46, R47): what a packet does to its pair, and how the oldest message of a pair is answered.
-/
namespace Sys2Proof.Machine

theorem Maps.put_put_same {α : Type} (m : FMap α) (k : Nat) (v w : α) : Maps.put (Maps.put m k v) k w = Maps.put m k w := by
  induction m with
  | nil => simp [Maps.put]
  | cons p r ih =>
    rcases Nat.lt_trichotomy k p.1 with h | h | h
    · simp [Maps.put, h]
    · simp [Maps.put, h]
    · simp [Maps.put, Nat.not_lt.2 (Nat.le_of_lt h), (Nat.ne_of_gt h).symm, ih]

theorem Maps.put_singleton {α : Type} (k : Nat) (v w : α) : Maps.put [(k, v)] k w = [(k, w)] := by simp [Maps.put]

theorem State.setPair_setPair (s : State) (n : BitVec 24) (q q' : QPair) : (s.setPair n q).setPair n q' = s.setPair n q' := by
  simp only [State.setPair, Maps.put_put_same]

/-- What leaves the module meanwhile is another matter. -/
theorem State.setPair_emit_setPair (s : State) (n : BitVec 24) (q q' : QPair) (o : Out) :
    ((s.setPair n q).emit o).setPair n q' = (s.emit o).setPair n q' := (s.emit o).setPair_setPair n q q'

theorem State.get_setPair (s : State) (n : BitVec 24) (q : QPair) : Maps.get (s.setPair n q).qps n.toNat = some q :=
  Maps.get_put_same ..

/-! ### What a port does for a pair -/

/-- The bytes that a READ of `len` bytes from byte `off` of its first block is answered with, from the blocks it has. -/
def readBytes (off len : Nat) (got : FMap Payload) : List Byte := ((got.flatMap fun x => Payload.toBytes x.2).drop off).take len

theorem readBytes_nil (off len : Nat) : readBytes off len [] = [] := by simp [readBytes]

section
variable {s : State} {n : BitVec 24} {q : QPair} {m : HostMsg}

theorem State.servePair_of_get (hq : Maps.get s.qps n.toNat = some q) (he : q.err = false) :
    s.servePair n = ((s.postMsgs q.port n q.msgs).1.answerReads n q (s.postMsgs q.port n q.msgs).2).hostSeal n := by
  simp [State.servePair, hq, he]

/-- The one message of a pair, all of whose operations have gone out. -/
theorem State.postMsgs_sent {port : Bool} {t : State} (h : s.postSome port n m.id m.read.isSome m.todo = (t, [], 0)) :
    s.postMsgs port n [m] = (t, [{ m with todo := [] }]) := by
  simp [State.postMsgs, h]

/-- A message whose operations have not all taken effect keeps its pair waiting. -/
theorem State.answerReads_waits (hm : m.left ≠ 0) : s.answerReads n q [m] = s.setPair n { q with msgs := [m] } := by
  unfold State.answerReads
  split
  · rfl
  · rw [if_pos (by simp [hm])]

theorem State.answerReads_answers {off len : Nat} {got : FMap Payload} (he : q.err = false) (hl : m.left = 0) (hb : m.bad = false)
    (hr : m.read = some (off, len, got)) : s.answerReads n q [m] =
      (s.emit (.roceData n m.first (readBytes off len got))).setPair n { q with msgs := [] } := by
  simp [State.answerReads, readBytes, hr, hl, he, hb]

/-- Nothing is sealed for a message whose units are still on their way, nor where no message stands. -/
theorem State.hostSeal_waits (hq : Maps.get s.qps n.toNat = some q) (hm : ∀ m ∈ q.msgs, m.left ≠ 0) : s.hostSeal n = s := by
  simp only [State.hostSeal, hq]
  split
  · rfl
  · next m r h =>
    split
    · rfl
    · rw [if_pos (by simp [hm m (h ▸ List.mem_cons_self ..)])]

variable (hq : Maps.get s.qps n.toNat = some q) (he : q.err = false)
include hq he

/-- For a pair without messages a port has nothing to do. -/
theorem State.servePair_idle (hm : q.msgs = []) : s.servePair n = s.setPair n q := by
  have hidle : ({ q with msgs := [] } : QPair) = q := by rw [← hm]
  rw [State.servePair_of_get hq he, hm]
  simp only [State.postMsgs, State.answerReads, hidle]
  exact State.hostSeal_waits (State.get_setPair ..) (by simp [hm])

/-- A message whose operations all go out waits for their outcomes. -/
theorem State.servePair_posts {t : State} (hm : q.msgs = [m]) (hl : m.left ≠ 0)
    (h : s.postSome q.port n m.id m.read.isSome m.todo = (t, [], 0)) :
    s.servePair n = t.setPair n { q with msgs := [{ m with todo := [] }] } := by
  rw [State.servePair_of_get hq he, hm, State.postMsgs_sent h, State.answerReads_waits (m := { m with todo := [] }) hl]
  exact State.hostSeal_waits (State.get_setPair ..) (by simp [hl])

/-- A READ that has all its blocks is answered with their bytes. -/
theorem State.servePair_answers {off len : Nat} {got : FMap Payload} (hm : q.msgs = [m]) (ht : m.todo = []) (hl : m.left = 0)
    (hb : m.bad = false) (hr : m.read = some (off, len, got)) : s.servePair n =
      (s.emit (.roceData n m.first (readBytes off len got))).setPair n { q with msgs := [] } := by
  have hsent : s.postSome q.port n m.id m.read.isSome m.todo = (s, [], 0) := by rw [ht]; rfl
  rw [State.servePair_of_get hq he, hm, State.postMsgs_sent hsent,
    State.answerReads_answers (m := { m with todo := [] }) he hl hb hr]
  exact State.hostSeal_waits (State.get_setPair ..) (List.forall_mem_nil _)

end

/-! ### A packet at its pair (R46) -/

theorem State.pairOf_some {s : State} {p : Packet} {q : QPair} (h : s.pairOf p = some q) :
    Maps.get s.qps p.qpn.toNat = some q ∧ q.port = p.port := by
  unfold State.pairOf at h
  split at h
  · simp at h
  · next g hg =>
    split at h
    · next hp => exact ⟨by rw [hg, h], by simp at hp h; rw [← h, hp]⟩
    · simp at h

theorem execRoceUnknownQp_none {s : State} {p : Packet} (hs : s.boot.stage = 7) (hp : s.pairOf p = none) :
    execRoceUnknownQp p s = .next s := by
  simp [execRoceUnknownQp, State.roce, State.ready, hs, hp]

section
variable {s : State} {p : Packet} {q : QPair} (hs : s.boot.stage = 7) (hp : s.pairOf p = some q) (he : q.err = false)
include hs hp he

/-- A packet in its turn. -/
theorem State.roce_inTurn (hn : p.psn = q.psn) (go : QPair → State) : s.roce p go = go q := by
  simp [State.roce, State.ready, hs, hp, he, hn]

/-- A packet of a message that was taken in before. -/
theorem State.roce_repeated (hn : 2 ^ 23 ≤ (p.psn - q.psn).toNat) (go : QPair → State) : s.roce p go =
    if q.msgs.any fun m => decide ((p.psn - m.first).toNat < 2 ^ 23) then s else s.emit (.roceAck p.qpn p.psn) := by
  have hne : p.psn ≠ q.psn := fun h => by simp [h] at hn
  simp only [State.roce, State.ready, hs, hp, he, hne, BEq.rfl, Bool.not_true, Bool.false_eq_true, if_false]
  exact if_pos hn

theorem State.roce_ahead (h0 : 0 < (p.psn - q.psn).toNat) (hn : (p.psn - q.psn).toNat < 2 ^ 23) (go : QPair → State) :
    s.roce p go = s.emit (.roceNak p.qpn q.psn 0x60) := by
  have hne : p.psn ≠ q.psn := fun h => by simp [h] at h0
  simp only [State.roce, State.ready, hs, hp, he, hne, BEq.rfl, Bool.not_true, Bool.false_eq_true, if_false]
  exact if_neg (Nat.not_le.2 hn)

end

/-! ### A message taken in -/

/-- The pair once message `m` of `len` bytes is taken in, as the only one that waits. -/
def QPair.taken (q : QPair) (psn : BitVec 24) (len : Nat) (m : HostMsg) : QPair := { q with psn := psn + q.packets len, msgs := [m] }

/-- The state in which its port begins to serve it. -/
def State.taking (s : State) (p : Packet) (q : QPair) (len : Nat) (m : HostMsg) : State :=
  ({ s with modState := 0, fresh := s.fresh + 1 } : State).setPair p.qpn (q.taken p.psn len m)

theorem State.takeMsg_eq {s : State} {p : Packet} {q : QPair} {len : Nat} {m : HostMsg} (hq : q.msgs = []) :
    s.takeMsg p q len m = (s.taking p q len m).servePair p.qpn := by
  simp only [State.takeMsg, State.rouseModule_eq, hq, List.nil_append]
  rfl

/-- A message whose units or blocks have places with room sends them all. -/
theorem State.takeMsg_posts {s : State} {p : Packet} {q : QPair} {len : Nat} {m : HostMsg} (he : q.err = false) (hport : q.port = p.port)
    (hq : q.msgs = []) (hl : m.left ≠ 0) (hroom : ∀ x ∈ m.todo, s.portRoom p.port m.todo.length x.1) :
    let t := s.takeMsg p q len m
    Maps.get t.qps p.qpn.toNat = some (q.taken p.psn len { m with todo := [] }) ∧ t.strands = s.strands ∧ t.hbm = s.hbm ∧
      ∀ x ∈ m.todo, ∃ k o, t.onWay k o ∧ o.h = x.1 ∧ o.kind = hostKind m.read.isSome x ∧ s.placeOf o.h 0 = some o.place ∧
        o.unit = unitPort p.port ∧ o.asker = .host p.qpn m.id ∧ o.ordinal = BitVec.ofNat 32 p.qpn.toNat := by
  intro t
  obtain ⟨u, hu, hpost, hall⟩ := State.postSome_all (s := s.taking p q len m) (n := p.qpn) (id := m.id) (reads := m.read.isSome) m.todo hroom
  have ht : t = u.setPair p.qpn (q.taken p.psn len { m with todo := [] }) := by
    simp only [t, State.takeMsg_eq hq]
    exact State.servePair_posts (q := q.taken p.psn len m) (State.get_setPair ..) he rfl hl (hport ▸ hu)
  rw [ht]
  refine ⟨State.get_setPair .., hpost.strands, hpost.hbm, fun x hx => ?_⟩
  obtain ⟨k, v, pl, -, hplace, how⟩ := hall x hx
  exact ⟨k, _, how, rfl, rfl, by rwa [hpost.placeOf] at hplace, rfl, rfl, rfl⟩

/-- A READ of nothing is answered at once. -/
theorem State.takeMsg_answers {s : State} {p : Packet} {q : QPair} {len : Nat} {m : HostMsg} {off : Nat} (he : q.err = false)
    (hq : q.msgs = []) (hl : m.left = 0) (ht : m.todo = []) (hb : m.bad = false) (hr : m.read = some (off, len, [])) :
    s.takeMsg p q len m = ((s.taking p q len m).emit (.roceData p.qpn m.first [])).setPair p.qpn { q with psn := p.psn + q.packets len } := by
  have hmsgs : ({ q.taken p.psn len m with msgs := [] } : QPair) = { q with psn := p.psn + q.packets len } := by
    simp only [QPair.taken, ← hq]
  rw [State.takeMsg_eq hq, ← hmsgs, ← readBytes_nil off len]
  exact State.servePair_answers (q := q.taken p.psn len m) (State.get_setPair ..) he rfl ht hl hb hr

end Sys2Proof.Machine
end

section
/-!
PROOF. The host's WRITEs and READs in their turn, and their outcomes (R46, R47, R255).
-/
namespace Sys2Proof.Machine

/-! ### Handles -/

theorem Handle.block_eq (h : Word) : Handle.block h = h &&& ~~~0xFFF#64 := by
  refine BitVec.eq_of_getLsbD_eq fun i hi => ?_
  have hmask : (0xFFF#64).getLsbD i = decide (i < 12) := by
    rw [show 0xFFF#64 = BitVec.ofNat 64 (2 ^ 12 - 1) from rfl, BitVec.getLsbD_ofNat, Nat.testBit_two_pow_sub_one]
    simp [hi]
  rw [BitVec.getLsbD_and, BitVec.getLsbD_not, hmask]
  refine (BitVec.getLsbD_append ..).trans ?_
  by_cases h12 : i < 12
  · simp [h12]
  · simp [h12, hi, show i - 12 < 52 by omega, show 12 + (i - 12) = i by omega]

theorem Handle.off_toNat (h : Word) : (Handle.off h).toNat = h.toNat % 4096 := by
  simp [Handle.off]

theorem Handle.vbn_toNat (h : Word) : (Handle.vbn h).toNat = h.toNat / 2 ^ 12 % 2 ^ 37 := by
  simp [Handle.vbn, Nat.shiftRight_eq_div_pow]

theorem sealHandle_of_pos {va : Word} {len : Nat} (h : len ≠ 0) : sealHandle va len = padd49 va (BitVec.ofNat 64 (len - 1)) := if_neg h

/-- The first byte of block `i` of a READ. -/
def readBlock (va : Word) (i : Nat) : Word := padd49 (va &&& ~~~0xFFF#64) (BitVec.ofNat 64 (4096 * i))

theorem hostBlocks_eq (va : Word) (len : Nat) :
    hostBlocks va len = (List.range (touched va len false).2).map fun i => (readBlock va i, []) := by
  simp only [hostBlocks, readBlock, Handle.block_eq]

/-! ### Writing and reading (R46, R47) -/

section
variable {s : State} {p : Packet} {q : QPair} (hs : s.boot.stage = 7) (hp : s.pairOf p = some q) (he : q.err = false) (hn : p.psn = q.psn)
include hs hp he hn

theorem execRoceUnsupportedOp_naks : execRoceUnsupportedOp p s = .next (s.nak p.qpn p.psn q 0x61) := by
  rw [execRoceUnsupportedOp, State.roce_inTurn hs hp he hn]
  rfl

theorem execRoceRead_naks {len : Nat} (hr : s.regionOk p len false false = true)
    (hx : ∃ i < (touched p.va len false).2, s.placeOf (readBlock p.va i) 0 = none) :
    execRoceRead p len s = .next (s.nak p.qpn p.psn q 0x62) := by
  obtain ⟨i, hi, hx⟩ := hx
  have hany : ((hostBlocks p.va len).any fun u => (s.placeOf u.1 0#4).isNone) = true := by
    rw [hostBlocks_eq]
    exact List.any_eq_true.2 ⟨_, List.mem_map_of_mem (List.mem_range.2 hi), Option.isNone_iff_eq_none.2 hx⟩
  rw [execRoceRead, State.roce_inTurn hs hp he hn]
  dsimp only
  rw [if_neg (by simp [hr]), if_pos hany]
  rfl

/-- The message of a READ in its turn. -/
def State.readMsg (s : State) (p : Packet) (q : QPair) (len : Nat) : HostMsg :=
  { id := s.fresh, first := p.psn, psn := p.psn + q.packets len - 1, left := (touched p.va len false).2, applied := 0, bad := false
    badSeal := false, sealDue := none, todo := hostBlocks p.va len, read := some (p.va.toNat % 4096, len, []) }

theorem execRoceRead_takes {len : Nat} (hr : s.regionOk p len false false = true)
    (hx : ∀ i < (touched p.va len false).2, s.placeOf (readBlock p.va i) 0 ≠ none) :
    execRoceRead p len s = .next (s.takeMsg p q len (s.readMsg p q len)) := by
  have hlen : (hostBlocks p.va len).length = (touched p.va len false).2 := by simp [hostBlocks]
  rw [execRoceRead, State.roce_inTurn hs hp he hn]
  dsimp only
  rw [if_neg (by simp [hr]), if_neg ?_, hlen, Handle.off_toNat]
  · rfl
  · simpa [hostBlocks_eq, Option.isNone_iff_eq_none] using hx

/-- A READ of no block is answered at once. -/
theorem execRoceRead_answers {len : Nat} (hr : s.regionOk p len false false = true) (hq : q.msgs = [])
    (h0 : (touched p.va len false).2 = 0) : ∃ t, execRoceRead p len s = .next t ∧ t.outbox = s.outbox ++ [.roceData p.qpn p.psn []] ∧
      Maps.get t.qps p.qpn.toNat = some { q with psn := p.psn + q.packets len } ∧ t.net = s.net ∧ t.hbm = s.hbm := by
  have htodo : hostBlocks p.va len = [] := by simp [hostBlocks, h0]
  have htake := State.takeMsg_answers (s := s) (p := p) (m := s.readMsg p q len) he hq h0 htodo rfl rfl
  refine ⟨_, execRoceRead_takes hs hp he hn hr (by simp [h0]), ?_⟩
  rw [htake]
  exact ⟨rfl, State.get_setPair .., rfl, rfl⟩

/-- With a place and room for each, a READ posts the reads of all its blocks. -/
theorem execRoceRead_posts {len : Nat} (hr : s.regionOk p len false false = true) (hq : q.msgs = [])
    (h0 : 0 < (touched p.va len false).2)
    (hroom : ∀ i < (touched p.va len false).2, s.portRoom p.port (touched p.va len false).2 (readBlock p.va i)) :
    ∃ t, execRoceRead p len s = .next t ∧
      Maps.get t.qps p.qpn.toNat = some (q.taken p.psn len { s.readMsg p q len with todo := [] }) ∧ t.strands = s.strands ∧ t.hbm = s.hbm ∧
      ∀ i < (touched p.va len false).2, ∃ k o, t.onWay k o ∧ o.h = readBlock p.va i ∧ o.kind = .read false ∧
        s.placeOf o.h 0 = some o.place ∧ o.unit = unitPort p.port ∧ o.asker = .host p.qpn s.fresh ∧
        o.ordinal = BitVec.ofNat 32 p.qpn.toNat := by
  have hport := (State.pairOf_some hp).2
  have htodo : (s.readMsg p q len).todo = (List.range (touched p.va len false).2).map fun i => (readBlock p.va i, []) :=
    hostBlocks_eq ..
  obtain ⟨hget, hstrands, hhbm, hall⟩ := State.takeMsg_posts (s := s) (len := len) (m := s.readMsg p q len) he hport hq
    (Nat.ne_of_gt h0) (by simpa [htodo] using hroom)
  exact ⟨_, execRoceRead_takes hs hp he hn hr fun i hi => (hroom i hi).placed, hget, hstrands, hhbm,
    fun i hi => hall (readBlock p.va i, []) (htodo ▸ List.mem_map_of_mem (List.mem_range.2 hi))⟩

/-- The message of a WRITE in its turn, with its seal if it has one. -/
def State.writeMsg (s : State) (p : Packet) (q : QPair) (data : List Byte) (due : Option (Word × Bool)) : HostMsg :=
  { id := s.fresh, first := p.psn, psn := p.psn + q.packets data.length - 1, left := data.length / 8, applied := 0, bad := false
    badSeal := false, sealDue := due, todo := hostUnits p.va data }

theorem State.hostWrite_takes {data : List Byte} {due : Option (Word × Bool)} (ha : p.va.toNat % 8 = 0) (hd : data.length % 8 = 0)
    (hr : s.regionOk p data.length due.isSome true = true)
    (hx : ∀ i < data.length / 8, s.placeOf (padd49 p.va (BitVec.ofNat 64 (8 * i))) 0 ≠ none) :
    s.hostWrite p data due = s.takeMsg p q data.length (s.writeMsg p q data due) := by
  have hlen : (hostUnits p.va data).length = data.length / 8 := by simp [hostUnits]
  have hoff : (Handle.off p.va).toNat % 8 = 0 := by rw [Handle.off_toNat]; omega
  rw [State.hostWrite, State.roce_inTurn hs hp he hn]
  dsimp only
  rw [if_neg (by simp [hoff, hd]), if_neg (by simp [hr]), if_neg ?_, hlen]
  · rfl
  · simpa [hostUnits, Option.isNone_iff_eq_none] using hx

/-- With a place and room for each, a WRITE posts all its units. -/
theorem State.hostWrite_posts {data : List Byte} {due : Option (Word × Bool)} (ha : p.va.toNat % 8 = 0) (hd : data.length % 8 = 0)
    (hne : data ≠ []) (hr : s.regionOk p data.length due.isSome true = true) (hq : q.msgs = [])
    (hroom : ∀ i < data.length / 8, s.portRoom p.port (data.length / 8) (padd49 p.va (BitVec.ofNat 64 (8 * i)))) :
    let t := s.hostWrite p data due
    Maps.get t.qps p.qpn.toNat = some (q.taken p.psn data.length { s.writeMsg p q data due with todo := [] }) ∧
      t.strands = s.strands ∧ t.hbm = s.hbm ∧ ∀ i < data.length / 8, ∃ k o, t.onWay k o ∧ o.h = padd49 p.va (BitVec.ofNat 64 (8 * i)) ∧
        o.kind = .write (Handle.off o.h) 8 (Payload.ofBytes ((data.drop (8 * i)).take 8)) false ∧ s.placeOf o.h 0 = some o.place ∧
        o.unit = unitPort p.port ∧ o.asker = .host p.qpn s.fresh ∧ o.ordinal = BitVec.ofNat 32 p.qpn.toNat := by
  intro t
  have hport := (State.pairOf_some hp).2
  have hpos : data.length / 8 ≠ 0 := by have := List.length_pos_iff.2 hne; omega
  have ht : t = s.takeMsg p q data.length (s.writeMsg p q data due) := 
    State.hostWrite_takes hs hp he hn ha hd hr fun i hi => (hroom i hi).placed
  obtain ⟨hget, hstrands, hhbm, hall⟩ := State.takeMsg_posts (s := s) (len := data.length) (m := s.writeMsg p q data due) he hport hq hpos
    (by simpa [State.writeMsg, hostUnits] using hroom)
  rw [ht]
  refine ⟨hget, hstrands, hhbm, fun i hi => ?_⟩
  obtain ⟨k, o, how, hh, hkind, hrest⟩ := hall _ (List.mem_map_of_mem (List.mem_range.2 hi))
  exact ⟨k, o, how, hh, hkind.trans (by rw [hh]; rfl), hrest⟩

end

/-- An immediate of 0 or 1 says which seal is due at the end of the data. -/
theorem execRoceWriteImm_eq {s : State} {p : Packet} {data : List Byte} {imm : BitVec 32} (hi : imm.toNat < 2) (hd : data ≠ []) :
    execRoceWriteImm p data imm s =
      .next (s.hostWrite p data (some (padd49 p.va (BitVec.ofNat 64 (data.length - 1)), imm.getLsbD 0))) := by
  have hlow : imm.extractLsb' 1 31 = 0 := by
    refine BitVec.eq_of_toNat_eq ?_
    simp [Nat.shiftRight_eq_div_pow, Nat.div_eq_of_lt hi]
  rw [execRoceWriteImm, hlow, sealHandle_of_pos (mt List.length_eq_zero_iff.1 hd)]
  rfl

/-! ### Outcomes (R47, R255) -/

/-- The only message of a pair, all of which has taken effect, is acknowledged. -/
theorem execRoceWriteAck_acks {s : State} {n : BitVec 24} {q : QPair} {m : HostMsg} (hq : Maps.get s.qps n.toNat = some q)
    (he : q.err = false) (hm : q.msgs = [m]) (hr : m.read = none) (hl : m.left = 0) (hd : m.sealDue = none) (hb : m.bad = false)
    (hbs : m.badSeal = false) :
    execRoceWriteAck n s = .next ((s.setPair n { q with msgs := [] }).emit (.roceAck n m.psn)) := by
  have hserve : ((s.setPair n { q with msgs := [] }).emit (.roceAck n m.psn)).servePair n =
      (s.setPair n { q with msgs := [] }).emit (.roceAck n m.psn) :=
    (State.servePair_idle (s := (s.setPair n { q with msgs := [] }).emit _) (q := { q with msgs := [] }) (State.get_setPair ..) he rfl).trans
      (s.setPair_emit_setPair ..)
  simp only [execRoceWriteAck, hq, hm]
  rw [if_neg (by simp [hl, hd]), if_neg (by simp [he]), if_neg (by simp [hr]), if_neg (by simp [hb]), if_neg (by simp [hbs]), hserve]

/-- The blocks that a READ has once block `vbn` has come too. -/
theorem HostMsg.answered_data {m : HostMsg} {o : Op} {d : Payload} {off len : Nat} {got : FMap Payload} (hl : m.left = 1)
    (hr : m.read = some (off, len, got)) (pw bits : BitVec 16) : m.answered o (.data d pw bits) =
      { m with left := 0, read := some (off, len, Maps.put got (Handle.vbn o.h).toNat d) } := by
  simp only [HostMsg.answered, hr, hl, Nat.sub_self]

/-- The last block of a READ, the only message of the only pair, lets it be answered. -/
theorem State.hostAnswered_answers {s : State} {n : BitVec 24} {q : QPair} {m : HostMsg} {o : Op} {d : Payload} {off len : Nat}
    {got : FMap Payload} (hq : s.qps = [(n.toNat, q)]) (he : q.err = false) (hm : q.msgs = [m]) (ht : m.todo = []) (hb : m.bad = false)
    (hl : m.left = 1) (hr : m.read = some (off, len, got)) (pw bits : BitVec 16) :
    let all := Maps.put got (Handle.vbn o.h).toNat d
    s.hostAnswered n m.id o (.data d pw bits) =
      (s.emit (.roceData n m.first (readBytes off len all))).setPair n { q with msgs := [] } := by
  intro all
  let m' : HostMsg := { m with left := 0, read := some (off, len, all) }
  let s' := s.setPair n { q with msgs := [m'] }
  have hs' : s.hostAnswered n m.id o (.data d pw bits) = s'.servePairs := by
    have hget : Maps.get s.qps n.toNat = some q := by simp [hq, Maps.get]
    simp only [State.hostAnswered, hget, hm, List.map_cons, List.map_nil, if_true, HostMsg.answered_data hl hr]
    rfl
  have hqps : s'.qps = [(n.toNat, { q with msgs := [m'] })] := by
    simp only [s', State.setPair, hq, Maps.put_singleton]
  rw [hs', State.servePairs, hqps, List.foldl_cons, List.foldl_nil, BitVec.ofNat_toNat, BitVec.setWidth_eq,
    State.servePair_answers (q := { q with msgs := [m'] }) (m := m') (State.get_setPair ..) he rfl ht rfl hb rfl]
  exact s.setPair_emit_setPair ..

theorem execOperationAck_host {s : State} {k : Nat} {o : Op} {x : Reply} {n : BitVec 24} {id : Nat}
    (hk : Maps.get s.net k = some (.reply o x)) (ha : o.asker = .host n id) (hu : ∃ z ∈ Maps.getD s.units o.unit [], z.seq = o.seq) :
    execOperationAck k s = .next (((s.take k).unack o.unit o.seq).hostAnswered n id o x) := by
  obtain ⟨z, hz, he⟩ := hu
  have hack : (s.take k).acknowledged o x = ((s.take k).unack o.unit o.seq).hostAnswered n id o x := by
    rw [State.acknowledged, ha]
  have hposted : (!o.asker.posted) ≠ true := by rw [ha]; exact Bool.false_ne_true
  have hheld : ((Maps.getD s.units o.unit []).any fun q => q.seq == o.seq) = true := List.any_eq_true.2 ⟨z, hz, beq_iff_eq.2 he⟩
  rw [execOperationAck, hk]
  dsimp only
  rw [if_neg hposted, if_pos hheld, hack]

end Sys2Proof.Machine
end

section
/-!
PROOF. Sessions and RDMA: the obligation, from the lemmas above.
-/
namespace Sys2Proof.Machine

/-- Settles O49, clause by clause in its own order: each is one of the lemmas above about the event it speaks of. -/
theorem hostSessionsAndRdma : Obligations.HostSessionsAndRdma := by
  intro s hs
  refine ⟨?openArrives, ?opened, fun n se hn => ?session, fun p data len => ⟨execRoceUnknownQp_none hs, fun q hp he => ?pair⟩⟩
  case openArrives =>
    intro port d hv h0 ht hm hq
    obtain ⟨hhbm, hkeepq⟩ := State.takeOpen_spec (s := { s with modState := 0 }) hm hq
    exact ⟨_, execUhpSegment_open hs hv h0 ht, hhbm, hkeepq⟩
  case opened =>
    intro port seq number body q hst hw hq h0 hu hl hb hk
    exact execOpenSession_opened hst hw hq h0 hu hl hb hk
  case session =>
    intro gone empty enrol under came
    have hcame : s.confirmCame n = true ↔ came := s.confirmCame_iff n
    have henrol : s.enrolling se.slot = true ↔ enrol := s.enrolling_iff se.slot
    refine ⟨fun hp => ⟨?notCame, ?came, ?confirm⟩, ?ack, ?resend, ?segment⟩
    case notCame =>
      intro h
      exact (execConfirmTimeout_opening hn hp).trans (by rw [if_pos (Bool.eq_false_iff.2 (mt hcame.1 h))]; rfl)
    case came =>
      intro h
      exact (execConfirmTimeout_opening hn hp).trans (by rw [if_neg (by simp [hcame.2 h])])
    case confirm =>
      intro seq body q hst hw hq as_
      have hc := State.confirming_head hst hw hq hn hp
      exact ⟨fun he => execConfirm_enrolling hc (henrol.2 he), fun he => execConfirm_opened hc rfl he,
        fun he => execConfirm_refused hc (mt henrol.1 he)⟩
    case ack =>
      intro port d h0 hv hd ht ha hu
      subst hd
      refine (execAck_session hs hv h0 ht).trans ?_
      rw [State.takeDatagram_verified hn hu (.inr ht), State.datagram_ack ht ha, Session.acked_eq]
      rfl
    case resend =>
      intro seq typ more body sent hq
      exact ⟨execUhpRetransmit_closes hn hq, fun h => ⟨_, execUhpRetransmit_repeats hn hq h, Session.resent_length hq, Session.mem_resent hq⟩⟩
    case segment =>
      intro port d hv h0 hd ht
      subst hd
      have hx := execUhpSegment_session (port := port) hs hv h0 ht
      refine ⟨fun hu => ?_, fun hu hp ha ht' hseq hm hpart hheld hl => ?_⟩
      · obtain ⟨l, hbad⟩ := s.badTag_spec
        rw [State.takeDatagram_badTag hn hu, hbad] at hx
        exact ⟨_, hx, rfl, rfl, rfl, rfl, rfl⟩
      · rw [State.takeDatagram_verified hn hu (.inl hp)] at hx
        exact ⟨_, hx, State.datagram_delivers ha ht' hseq hm hpart hheld hl⟩
  case pair =>
    obtain ⟨hget, hport⟩ := State.pairOf_some hp
    refine ⟨fun hn => ?repeated, fun h0 hn => ?ahead, fun hn => ?inTurn⟩
    case repeated => exact congrArg _ (State.roce_repeated hs hp he hn _)
    case ahead => exact congrArg _ (State.roce_ahead hs hp he h0 hn _)
    case inTurn =>
      intro room count
      refine ⟨execRoceUnsupportedOp_naks hs hp he hn, fun hr hq => ?read, ?write, fun m hm hr _ hl hd hb hbs => ?acked, ?answered⟩
      case read =>
        exact ⟨execRoceRead_answers hs hp he hn hr hq, execRoceRead_posts hs hp he hn hr hq, execRoceRead_naks hs hp he hn hr⟩
      case write =>
        intro imm x ha hd hne hq hroom hr hi end_ m
        let due := if x then some (end_, imm.getLsbD 0) else none
        have hexec : exec (if x then .roceWriteImm p data imm else .roceWrite p data) s = .next (s.hostWrite p data due) := by
          cases x with
          | true => exact execRoceWriteImm_eq hi hne
          | false => rfl
        have hdue : due.isSome = x := by cases x <;> rfl
        exact ⟨_, hexec, State.hostWrite_posts hs hp he hn ha hd hne (hdue ▸ hr) hq hroom⟩
      case acked => exact execRoceWriteAck_acks hget he hm hr hl hd hb hbs
      case answered =>
        intro k o d pw bits m off n got hk ho hu hqps hm ht hb hl hr all
        have hx := execOperationAck_host hk ho hu
        rw [State.hostAnswered_answers (s := (s.take k).unack o.unit o.seq) hqps he hm ht hb hl hr, Handle.vbn_toNat] at hx
        refine ⟨_, hx, ?_, rfl, rfl, rfl⟩
        show Maps.put s.qps p.qpn.toNat { q with msgs := [] } = _
        rw [hqps, Maps.put_singleton]

end Sys2Proof.Machine
end

section
/-!
PROOF. What rousing a die or a core and unlisting a record leave of the dies, clusters, cores and Anvils (R58, R363).
-/
namespace Sys2Proof.Machine

/-! ### Leaving an idle state (R363) -/

/-- Rousing a die writes its idle state and the module's, and nothing else. -/
theorem State.rouse_idles (s : State) (d : BitVec 3) :
    ∃ m i, s.rouse d = { s with modState := m }.setDie d { s.die d with idle := i } := by
  unfold State.rouse
  rw [State.rouseModule_eq]
  dsimp only
  split
  · exact ⟨0, (s.die d).idle, (State.setDie_self { s with modState := 0 } d).symm⟩
  · exact ⟨0, 0, rfl⟩

@[simp] theorem State.strands_rouse (s : State) (d : BitVec 3) : (s.rouse d).strands = s.strands := by
  obtain ⟨m, i, h⟩ := s.rouse_idles d; rw [h]; rfl
@[simp] theorem State.nodes_rouse (s : State) (d : BitVec 3) : (s.rouse d).nodes = s.nodes := by
  obtain ⟨m, i, h⟩ := s.rouse_idles d; rw [h]; rfl
@[simp] theorem State.clusters_rouse (s : State) (d : BitVec 3) : (s.rouse d).clusters = s.clusters := by
  obtain ⟨m, i, h⟩ := s.rouse_idles d; rw [h]; rfl
@[simp] theorem State.cores_rouse (s : State) (d : BitVec 3) : (s.rouse d).cores = s.cores := by
  obtain ⟨m, i, h⟩ := s.rouse_idles d; rw [h]; rfl
@[simp] theorem State.anvils_rouse (s : State) (d : BitVec 3) : (s.rouse d).anvils = s.anvils := by
  obtain ⟨m, i, h⟩ := s.rouse_idles d; rw [h]; rfl
@[simp] theorem State.hbm_rouse (s : State) (d : BitVec 3) : (s.rouse d).hbm = s.hbm := by
  obtain ⟨m, i, h⟩ := s.rouse_idles d; rw [h]; rfl
@[simp] theorem State.die_rouse_ready (s : State) (d e : BitVec 3) : ((s.rouse d).die e).ready = (s.die e).ready := by
  obtain ⟨m, i, h⟩ := s.rouse_idles d
  rw [h]
  by_cases he : e = d
  · rw [he, State.die_setDie_same]
  · rw [State.die_setDie_other _ _ he]; rfl
theorem State.rouse_steady (s : State) (d : BitVec 3) : Steady s (s.rouse d) := by
  obtain ⟨m, i, h⟩ := s.rouse_idles d
  have hm : Steady s { s with modState := m } := ⟨rfl, rfl, rfl, rfl, fun _ => .refl _⟩
  exact h ▸ hm.trans (State.setDie_steady _ d { s.die d with idle := i } ⟨rfl, rfl, fun _ hk => hk⟩)

@[simp] theorem State.strand_rouse (s : State) (d : BitVec 3) (r : Nat) : (s.rouse d).strand r = s.strand r :=
  congrArg (Maps.get · r) (s.strands_rouse d)
@[simp] theorem State.node_rouse (s : State) (d : BitVec 3) (n : BitVec 32) : (s.rouse d).node n = s.node n :=
  congrArg (Maps.get · n.toNat) (s.nodes_rouse d)
@[simp] theorem State.cluster_rouse (s : State) (d : BitVec 3) (c : BitVec 9) : (s.rouse d).cluster c = s.cluster c :=
  congrArg (Maps.getD · c.toNat Cluster.reset) (s.clusters_rouse d)
@[simp] theorem State.anvil_rouse (s : State) (d : BitVec 3) (a : BitVec 11) : (s.rouse d).anvil a = s.anvil a :=
  congrArg (Maps.getD · a.toNat Anvil.reset) (s.anvils_rouse d)

/-- A core leaves S1, its die and the module their idle states. -/
theorem State.rouseCore_idles (s : State) (k : BitVec 13) : ∃ l, s.rouseCore k = { s with idleCores := l }.rouse (coreDie k) := by
  unfold State.rouseCore
  split
  · exact ⟨_, rfl⟩
  · exact ⟨s.idleCores, rfl⟩

@[simp] theorem State.strands_rouseCore (s : State) (k : BitVec 13) : (s.rouseCore k).strands = s.strands := by
  obtain ⟨l, h⟩ := s.rouseCore_idles k; rw [h, State.strands_rouse]
@[simp] theorem State.nodes_rouseCore (s : State) (k : BitVec 13) : (s.rouseCore k).nodes = s.nodes := by
  obtain ⟨l, h⟩ := s.rouseCore_idles k; rw [h, State.nodes_rouse]
@[simp] theorem State.hbm_rouseCore (s : State) (k : BitVec 13) : (s.rouseCore k).hbm = s.hbm := by
  obtain ⟨l, h⟩ := s.rouseCore_idles k; rw [h, State.hbm_rouse]
@[simp] theorem State.core_rouseCore (s : State) (k j : BitVec 13) : (s.rouseCore k).core j = s.core j := by
  obtain ⟨l, h⟩ := s.rouseCore_idles k; rw [h, State.core, State.cores_rouse]; rfl
@[simp] theorem State.strand_rouseCore (s : State) (k : BitVec 13) (r : Nat) : (s.rouseCore k).strand r = s.strand r :=
  congrArg (Maps.get · r) (s.strands_rouseCore k)
@[simp] theorem State.node_rouseCore (s : State) (k : BitVec 13) (n : BitVec 32) : (s.rouseCore k).node n = s.node n :=
  congrArg (Maps.get · n.toNat) (s.nodes_rouseCore k)
theorem State.rouseCore_steady (s : State) (k : BitVec 13) : Steady s (s.rouseCore k) := by
  obtain ⟨l, h⟩ := s.rouseCore_idles k
  exact h ▸ (State.rouse_steady _ _).after ⟨rfl, rfl, rfl, rfl, fun _ => .refl _⟩

theorem Steady.inService {s t : State} (h : Steady s t) (c : BitVec 9) : t.inService c = s.inService c := by
  rw [State.inService, State.inService, (h.dies _).alive, h.badClusters]

/-! ### Unlisting a record (R58) -/

/-- A map that keeps the default value of a table acts on every entry, listed or not. -/
theorem Maps.getD_map {α : Type} (m : FMap α) (f : Nat → α → α) (k : Nat) (d : α) (h : f k d = d) :
    Maps.getD (Maps.map m f) k d = f k (Maps.getD m k d) := by
  rw [Maps.getD, Maps.getD, Maps.get_map]
  cases Maps.get m k with
  | none => exact h.symm
  | some v => rfl

/-- A core from which record `r` is unlisted at step `now`. -/
def Core.without (c : Core) (r now : Nat) : Core :=
  { c with
    slots := c.slots.map (fun o => if o == some r then none else o)
    idleSince := if c.slots.toList.contains (some r) then now else c.idleSince
    divq := c.divq.filter (· != r), cmdq := c.cmdq.filter (· != r), deque := c.deque.filter (· != r), outbuf := c.outbuf.filter (· != r) }

theorem Core.without_reset (r now : Nat) : Core.reset.without r now = Core.reset := by
  simp [Core.without, Core.reset]

/-- A cluster from which record `r` is unlisted. -/
def Cluster.without (c : Cluster) (r : Nat) : Cluster :=
  { c with
    queue := c.queue.filter (· != r), waiting := c.waiting.filter (· != r)
    moving := match c.moving with | some (u, q) => if q = r then none else some (u, q) | none => none }

theorem Cluster.without_reset (r : Nat) : Cluster.reset.without r = Cluster.reset := rfl

theorem State.core_unlist (s : State) (r : Nat) (k : BitVec 13) : (s.unlist r).core k = (s.core k).without r s.tick :=
  Maps.getD_map s.cores (fun _ c => c.without r s.tick) k.toNat Core.reset (Core.without_reset r s.tick)
theorem State.cluster_unlist (s : State) (r : Nat) (c : BitVec 9) : (s.unlist r).cluster c = (s.cluster c).without r :=
  Maps.getD_map s.clusters (fun _ x => x.without r) c.toNat Cluster.reset (Cluster.without_reset r)
theorem State.strand_unlist (s : State) (r q : Nat) : (s.unlist r).strand q = s.strand q := rfl

end Sys2Proof.Machine
end

section
/-!
PROOF. A record takes a slot of a core (R58 to R60, R64, R275): the slot, the record in it, its tiles, and what stands as it was.
-/
namespace Sys2Proof.Machine

/-! ### The slot that is taken -/

/-- The numbers of the free slots of a core. -/
def Core.freeNumbers (c : Core) : List Nat := (List.range 8).filter fun j => c.slots[j]? == some none

theorem Core.freeSlots_eq (c : Core) : c.freeSlots = c.freeNumbers.map (BitVec.ofNat 3) := by
  rw [Core.freeSlots, Core.freeNumbers, List.filter_map]
  congr 1
  refine List.filter_congr fun j hj => ?_
  have hj : j < 8 := List.mem_range.1 hj
  have hm : (BitVec.ofNat 3 j).toNat = j := (BitVec.toNat_ofNat ..).trans (Nat.mod_eq_of_lt hj)
  simp only [Function.comp, hm, Vector.getElem?_eq_getElem hj]
  cases c.slots[j] <;> rfl

theorem Core.mem_freeNumbers_lt {c : Core} {j : Nat} (h : j ∈ c.freeNumbers) : j < 8 := List.mem_range.1 (List.mem_of_mem_filter h)

theorem Core.mem_freeSlots (c : Core) (slot : BitVec 3) : slot ∈ c.freeSlots ↔ slot.toNat ∈ c.freeNumbers := by
  rw [Core.freeSlots_eq, List.mem_map]
  refine ⟨fun ⟨j, hj, he⟩ => ?_, fun h => ⟨_, h, by simp⟩⟩
  rwa [← he, BitVec.toNat_ofNat, Nat.mod_eq_of_lt (Core.mem_freeNumbers_lt hj)]

/-- The named slot if it is free, else the lowest free one. -/
theorem Core.slotFor_eq (c : Core) (slot : BitVec 3) :
    c.slotFor slot = if slot.toNat ∈ c.freeNumbers then slot else BitVec.ofNat 3 (c.freeNumbers.headD slot.toNat) := by
  rw [Core.slotFor]
  simp only [List.contains_iff_mem, Core.mem_freeSlots]
  refine if_congr Iff.rfl rfl ?_
  rw [Core.freeSlots_eq]
  cases c.freeNumbers with
  | nil => exact by simp
  | cons j l => rfl

theorem Core.freeSlots_ne_nil {c : Core} {j : Fin 8} (h : c.slots[j] = none) : c.freeSlots.isEmpty = false := by
  have hj : j.val ∈ c.freeNumbers :=
    List.mem_filter.2 ⟨List.mem_range.2 j.isLt, by rw [Vector.getElem?_eq_getElem j.isLt]; exact beq_iff_eq.2 (congrArg some h)⟩
  rw [Core.freeSlots_eq, List.isEmpty_eq_false_iff]
  exact fun hn => List.ne_nil_of_mem hj (List.map_eq_nil_iff.1 hn)

/-! ### The tiles of a record that comes back with tiles -/

/-- Tiles move to other physical tiles; their contents stand. -/
theorem takeTiles_data (ts : List (Option Tile)) (v : Vector TileUse 16) (r : Nat) :
    (takeTiles v r ts).2.map (Option.map Tile.data) = ts.map (Option.map Tile.data) := by
  induction ts generalizing v with
  | nil => rfl
  | cons t l ih =>
    cases t with
    | none => exact congrArg (none :: ·) (ih v)
    | some t =>
      rw [takeTiles]
      split
      · exact congrArg (some t.data :: ·) (ih v)
      · exact congrArg (some t.data :: ·) (ih _)

/-! ### The record in its slot -/

/-- From `s` to `t` record `r`, before `st`, has taken slot `sl` of core `k`: its contents stand, its window words are allocated there, a
root strand is live, and no other record and no byte of HBM has changed. -/
def Placed (s t : State) (r : Nat) (st : Strand) (k : BitVec 13) (sl : BitVec 3) : Prop :=
  ∃ tiles, t.strand r = some { st with loc := .slot k sl, core := k, bound := decide (st.words ≠ 0), root := false, tiles } ∧
    (∀ j : Fin 8, (tiles[j]).map Tile.data = (st.tiles[j]).map Tile.data) ∧
    (t.core k).slots[sl.toNat]'(sl.isLt) = some r ∧ (∀ q, q ≠ r → t.strand q = s.strand q) ∧ t.hbm = s.hbm ∧
    (∀ nd, st.root = true → s.node st.node = some nd → t.node st.node = some { nd with live := 1 })

/-- What stood before the placement only counts by its strands, its HBM and its node instances. -/
theorem Placed.of_same {s u t : State} {r : Nat} {st : Strand} {k : BitVec 13} {sl : BitVec 3} (h : Placed u t r st k sl)
    (hs : u.strands = s.strands) (hh : u.hbm = s.hbm) (hn : u.nodes = s.nodes) : Placed s t r st k sl := by
  obtain ⟨tiles, hr, hd, hk, ho, hb, hl⟩ := h
  refine ⟨tiles, hr, hd, hk, fun q hq => (ho q hq).trans (congrArg (Maps.get · q) hs), hb.trans hh, fun nd hroot hnd => hl nd hroot ?_⟩
  rw [State.node, hn]
  exact hnd

/-- Record `r` in slot `sl` of core `k`, with its tiles on the Anvil of that core: what a placement writes but the live strands of the
record's node. -/
def State.seat (u : State) (r : Nat) (st : Strand) (k : BitVec 13) (sl : BitVec 3) : State :=
  let q := takeTiles (u.anvil (coreAnvil k)).tiles r st.tiles.toList
  ((u.setCore k { u.core k with slots := (u.core k).slots.set sl.toNat (some r) sl.isLt }).setAnvil (coreAnvil k)
    { u.anvil (coreAnvil k) with tiles := q.1 }).setStrand r
    { st with loc := .slot k sl, core := k, bound := decide (st.words ≠ 0), root := false
              tiles := Vector.ofFn fun i : Fin 8 => q.2.getD i.val none }

/-- The first strand of a node is placed: its live strands are one (R355). -/
def State.liven (u : State) (st : Strand) : State :=
  if st.root then
    match u.node st.node with
    | none => u
    | some nd => u.setNode st.node { nd with live := 1 }
  else u

theorem State.placeRec_eq (s : State) (r : Nat) (st : Strand) (k : BitVec 13) (sl : BitVec 3) :
    s.placeRec r st k sl = (((s.unlist r).rouseCore k).seat r st k sl).liven st := rfl

theorem State.liven_cases (u : State) (st : Strand) :
    (u.liven st = u ∧ (st.root = true → u.node st.node = none)) ∨
      ∃ nd, u.node st.node = some nd ∧ u.liven st = u.setNode st.node { nd with live := 1 } := by
  unfold State.liven
  split
  · split
    · next hn => exact .inl ⟨rfl, fun _ => hn⟩
    · next nd hn => exact .inr ⟨nd, hn, rfl⟩
  · next hr => exact .inl ⟨rfl, fun h => absurd h hr⟩

/-- What `liven` leaves alone. -/
theorem State.liven_strands (u : State) (st : Strand) : (u.liven st).strands = u.strands := by
  obtain ⟨h, -⟩ | ⟨nd, -, h⟩ := u.liven_cases st <;> simp [h]
theorem State.liven_cores (u : State) (st : Strand) : (u.liven st).cores = u.cores := by
  obtain ⟨h, -⟩ | ⟨nd, -, h⟩ := u.liven_cases st <;> simp [h]
theorem State.liven_hbm (u : State) (st : Strand) : (u.liven st).hbm = u.hbm := by
  obtain ⟨h, -⟩ | ⟨nd, -, h⟩ := u.liven_cases st <;> simp [h]
theorem State.liven_steady (u : State) (st : Strand) : Steady u (u.liven st) := by
  obtain ⟨h, -⟩ | ⟨nd, -, h⟩ := u.liven_cases st <;> rw [h]
  · exact .refl u
  · exact ⟨rfl, rfl, rfl, rfl, fun _ => .refl _⟩

/-- The slot, seen in the core. -/
theorem State.core_seat (u : State) (r : Nat) (st : Strand) (k : BitVec 13) (sl : BitVec 3) :
    (u.seat r st k sl).core k = { u.core k with slots := (u.core k).slots.set sl.toNat (some r) sl.isLt } :=
  State.core_setCore_same ..

theorem State.seat_steady (u : State) (r : Nat) (st : Strand) (k : BitVec 13) (sl : BitVec 3) : Steady u (u.seat r st k sl) :=
  ⟨rfl, rfl, rfl, rfl, fun _ => .refl _⟩

theorem State.core_placeRec (s : State) (r : Nat) (st : Strand) (k : BitVec 13) (sl : BitVec 3) :
    (s.placeRec r st k sl).core k =
      { (s.core k).without r s.tick with slots := ((s.core k).without r s.tick).slots.set sl.toNat (some r) sl.isLt } := by
  rw [State.placeRec_eq, State.core, State.liven_cores]
  refine (State.core_seat ..).trans ?_
  rw [State.core_rouseCore, State.core_unlist]

theorem State.strand_seat_other (u : State) {r q : Nat} (st : Strand) (k : BitVec 13) (sl : BitVec 3) (h : q ≠ r) :
    (u.seat r st k sl).strand q = u.strand q :=
  (State.strand_setStrand_other _ _ _ _ h).trans rfl

theorem State.hbm_seat (u : State) (r : Nat) (st : Strand) (k : BitVec 13) (sl : BitVec 3) : (u.seat r st k sl).hbm = u.hbm := rfl
theorem State.node_seat (u : State) (r : Nat) (st : Strand) (k : BitVec 13) (sl : BitVec 3) (n : BitVec 32) :
    (u.seat r st k sl).node n = u.node n := rfl

theorem State.strand_placeRec (s : State) (r : Nat) (st : Strand) (k : BitVec 13) (sl : BitVec 3) (q : Nat) :
    (s.placeRec r st k sl).strand q = (((s.unlist r).rouseCore k).seat r st k sl).strand q := by
  rw [State.placeRec_eq, State.strand, State.liven_strands]
  rfl

/-- Entry by entry, tiles that have moved hold what they held. -/
theorem takeTiles_getD (v : Vector TileUse 16) (r : Nat) (ts : Vector (Option Tile) 8) (j : Fin 8) :
    ((takeTiles v r ts.toList).2.getD j.val none).map Tile.data = (ts[j]).map Tile.data := by
  have h : (takeTiles v r ts.toList).2[j.val]?.map (Option.map Tile.data) = ts.toList[j.val]?.map (Option.map Tile.data) := by
    rw [← List.getElem?_map, ← List.getElem?_map, takeTiles_data]
  have hj : ts.toList[j.val]? = some ts[j] := by simp
  rw [hj] at h
  obtain ⟨x, hx, hd⟩ := Option.map_eq_some_iff.1 h
  rw [List.getD_eq_getElem?_getD, hx]
  exact hd

theorem State.placeRec_placed (s : State) (r : Nat) (st : Strand) (k : BitVec 13) (sl : BitVec 3) :
    Placed s (s.placeRec r st k sl) r st k sl := by
  refine ⟨_, (s.strand_placeRec ..).trans (State.strand_setStrand_same ..), fun j => ?tiles, ?slot, fun q hq => ?others, ?hbm,
    fun nd hroot hnd => ?live⟩
  case tiles =>
    rw [Fin.getElem_fin, Vector.getElem_ofFn]
    exact takeTiles_getD _ r st.tiles j
  case slot =>
    rw [State.core_placeRec]
    exact Vector.getElem_set_self ..
  case others => rw [State.strand_placeRec, State.strand_seat_other _ _ _ _ hq, State.strand_rouseCore, State.strand_unlist]
  case hbm =>
    rw [State.placeRec_eq, State.liven_hbm, State.hbm_seat, State.hbm_rouseCore]
    rfl
  case live =>
    have hn : (((s.unlist r).rouseCore k).seat r st k sl).node st.node = some nd := by
      rw [State.node_seat, State.node_rouseCore]
      exact hnd
    rw [State.placeRec_eq, State.liven, if_pos hroot, hn]
    exact State.node_setNode_same ..

theorem State.placeRec_inService (s : State) (r : Nat) (st : Strand) (k : BitVec 13) (sl : BitVec 3) (c : BitVec 9) :
    (s.placeRec r st k sl).inService c = s.inService c :=
  ((((s.unlist_steady r).trans (State.rouseCore_steady _ k)).trans (State.seat_steady _ r st k sl)).trans (State.liven_steady _ st)).inService c

end Sys2Proof.Machine
end

section
/-!
PROOF. Records at a dispatcher: offered, queued or delayed, placed, and an image switch begun and ended (R25, R58, R59, R65).
-/
namespace Sys2Proof.Machine

/-! ### A record is offered (R58) -/

/-- Does no record wait at the dispatcher before record `r`? -/
def Cluster.firstFor (c : Cluster) (r : Nat) : Prop := c.waiting = [] ∨ c.waiting.head? = some r

theorem Cluster.firstFor_iff (c : Cluster) (r : Nat) : (match c.waiting with | [] => true | w :: _ => w == r) = true ↔ c.firstFor r := by
  unfold Cluster.firstFor
  cases c.waiting <;> simp

theorem State.recBytes_rouse (s : State) (d : BitVec 3) : (s.rouse d).recBytes = s.recBytes := by
  funext r
  rw [State.recBytes, State.recBytes, State.strand_rouse]

theorem State.queueRoom_rouse (s : State) (d : BitVec 3) (cl : BitVec 9) (r : Nat) : (s.rouse d).queueRoom cl r = s.queueRoom cl r := by
  rw [State.queueRoom, State.queueRoom, State.cluster_rouse, State.recBytes_rouse]

theorem State.offerRec_first {s : State} {r : Nat} (st : Strand) {cl : BitVec 9} (hf : (s.cluster cl).firstFor r)
    (hr : s.queueRoom cl r = true) : s.offerRec r st cl = (s.rouse (clusterDie cl)).enqueueRec r st cl := by
  unfold State.offerRec
  dsimp only
  rw [State.queueRoom_rouse, State.cluster_rouse]
  exact if_pos (Bool.and_eq_true_iff.2 ⟨(Cluster.firstFor_iff ..).2 hf, hr⟩)

theorem State.offerRec_behind {s : State} {r : Nat} (st : Strand) {cl : BitVec 9} (h : ¬(s.cluster cl).firstFor r ∨ s.queueRoom cl r = false) :
    s.offerRec r st cl = (s.rouse (clusterDie cl)).delayRec r st cl := by
  unfold State.offerRec
  dsimp only
  rw [State.queueRoom_rouse, State.cluster_rouse]
  refine if_neg fun hc => ?_
  obtain ⟨hf, hr⟩ := Bool.and_eq_true_iff.1 hc
  exact h.elim (· ((Cluster.firstFor_iff ..).1 hf)) fun hn => Bool.false_ne_true (hn.symm.trans hr)

/-- DISPATCHER_ACCEPT offers a record that is on its way to the dispatcher. -/
theorem execDispatcherAccept_offers {s : State} {r : Nat} {st : Strand} {cl : BitVec 9} (hs : s.strand r = some st)
    (hl : st.loc = .arriving cl ∨ ∃ k, st.loc = .migrating cl k) : execDispatcherAccept r s = .next (s.offerRec r st cl) := by
  unfold execDispatcherAccept
  rw [hs]
  obtain hl | ⟨k, hl⟩ := hl <;> simp only [hl]

theorem State.enqueueRec_spec (s : State) (r : Nat) (st : Strand) (cl : BitVec 9) :
    (s.enqueueRec r st cl).strand r = some { st with loc := .queue cl } ∧
      ((s.enqueueRec r st cl).cluster cl).queue = (s.cluster cl).queue.filter (· != r) ++ [r] ∧
      r ∉ ((s.enqueueRec r st cl).cluster cl).waiting ∧ (∀ q, q ≠ r → (s.enqueueRec r st cl).strand q = s.strand q) ∧
      (s.enqueueRec r st cl).hbm = s.hbm := by
  have hc : (s.enqueueRec r st cl).cluster cl = { (s.cluster cl).without r with queue := ((s.cluster cl).without r).queue ++ [r] } := by
    rw [← State.cluster_unlist]
    exact State.cluster_setCluster_same ..
  refine ⟨State.strand_setStrand_same .., by rw [hc]; rfl, ?_, fun q hq => State.strand_setStrand_other _ _ _ _ hq, rfl⟩
  rw [hc]
  exact fun h => by simp [Cluster.without] at h

theorem State.delayRec_spec {s : State} {r : Nat} (st : Strand) {cl : BitVec 9} (hw : r ∉ (s.cluster cl).waiting) :
    ((s.delayRec r st cl).cluster cl).waiting = (s.cluster cl).waiting ++ [r] ∧ (s.delayRec r st cl).strands = s.strands ∧
      (s.delayRec r st cl).hbm = s.hbm ∧ ∀ k, st.loc = .migrating cl k → r ∈ ((s.delayRec r st cl).core k).outbuf := by
  unfold State.delayRec
  dsimp only
  rw [if_neg (by simpa using hw)]
  split
  · next k hl =>
    refine ⟨by simp, rfl, rfl, fun k' hk' => ?_⟩
    obtain ⟨-, rfl⟩ := Loc.migrating.inj (hl.symm.trans hk')
    simp
  · next hl => exact ⟨by simp, rfl, rfl, fun k hk => absurd hk (hl _ k)⟩

/-! ### Placing (R59, R65, R275) -/

theorem execDispatcherPlace_picks {s : State} {cl : BitVec 9} (slot : BitVec 3) {r : Nat} {st : Strand} {k : BitVec 13}
    (hs : s.inService cl = true) (hp : s.pick cl = some (r, st, k)) :
    execDispatcherPlace cl slot s = .next (s.placeRec r st k ((s.core k).slotFor slot)) := by
  simp only [execDispatcherPlace, hs, hp, Bool.not_true, Bool.false_eq_true, if_false]

theorem execDispatcherPlace_switches {s : State} {cl : BitVec 9} (slot : BitVec 3) {image : BitVec 16} {k : BitVec 13}
    (hs : s.inService cl = true) (hp : s.pick cl = none) (hi : s.switchFor cl = some (image, k)) :
    execDispatcherPlace cl slot s = .next ((s.rouseCore k).setCore k { s.core k with switching := some image }) := by
  simp only [execDispatcherPlace, hs, hp, hi, Bool.not_true, Bool.false_eq_true, if_false]

theorem State.poppable_bottom {s : State} {k : BitVec 13} {r : Nat} {q : List Nat} {st : Strand} (hd : (s.core k).deque = r :: q)
    (hr : s.strand r = some st) (hw : s.usedWords k + st.words ≤ 2048) (hv : s.victim st = false) : s.poppable k = some (r, st) := by
  simp only [State.poppable, hd, hr, State.wordsFit, hw, hv, decide_true, Bool.not_false, Bool.and_self, if_true]

theorem execDequePop_pops {s : State} {k : BitVec 13} (slot : BitVec 3) {r : Nat} {st : Strand} (hf : (s.core k).freeSlots.isEmpty = false)
    (hi : s.canIssue k = true) (hp : s.poppable k = some (r, st)) :
    execDequePop k slot s = .next (s.placeRec r st k ((s.core k).slotFor slot)) := by
  simp only [execDequePop, hf, hi, hp, Bool.not_true, Bool.or_self, Bool.false_eq_true, if_false]

/-! ### The end of an image switch (R25) -/

theorem Mem.byte_setBytes (bs : List Byte) (m : Memory) (a k : Nat) (h : Memory.wf m = true) :
    Mem.byte (Mem.setBytes m a bs) k = if a ≤ k ∧ k < a + bs.length then bs.getD (k - a) 0 else Mem.byte m k := by
  induction bs generalizing m a with
  | nil => rw [if_neg (by rw [List.length_nil]; omega)]; rfl
  | cons b r ih =>
    rw [Mem.setBytes, ih _ _ (Mem.wf_setByte m a b h), List.length_cons]
    by_cases hk : k = a
    · rw [if_neg (by omega), if_pos (by omega), hk, Mem.byte_setByte_same m a b h, Nat.sub_self]
      rfl
    · rw [Mem.byte_setByte_other m a k b hk]
      by_cases hin : a + 1 ≤ k ∧ k < a + 1 + r.length
      · rw [if_pos hin, if_pos (by omega), show k - a = (k - (a + 1)) + 1 by omega]
        rfl
      · rw [if_neg hin, if_neg (by omega)]

theorem getD_take_drop (b : List Byte) {o n i : Nat} (h : i < n) : ((b.drop o).take n).getD i 0 = b.getD (o + i) 0 := by
  simp only [List.getD_eq_getElem?_getD, List.getElem?_take_of_lt h, List.getElem?_drop]

theorem length_take_drop {b : List Byte} {o n : Nat} (h : o + n ≤ b.length) : ((b.drop o).take n).length = n := by
  rw [List.length_take, List.length_drop]
  omega

theorem Image.wf_store (b : List Byte) : Memory.wf (Image.store b) = true := Mem.wf_setBytes _ _ _ (Mem.wf_setBytes _ _ _ Memory.wf_nil)

/-- The store under an image: its code from byte 0, its data section at its base, zeros elsewhere. -/
theorem Image.byte_store {b : List Byte} (hd : Image.codesz b ≤ Image.database b)
    (hl : Image.codeoff b + Image.codesz b + Image.datasz b ≤ b.length) (a : Nat) :
    Mem.byte (Image.store b) a =
      if a < Image.codesz b then b.getD (Image.codeoff b + a) 0
      else if Image.database b ≤ a ∧ a < Image.database b + Image.datasz b then
        b.getD (Image.codeoff b + Image.codesz b + (a - Image.database b)) 0
      else 0 := by
  rw [Image.store, Mem.byte_setBytes _ _ _ _ (Mem.wf_setBytes _ _ _ Memory.wf_nil), Mem.byte_setBytes _ _ _ _ Memory.wf_nil,
    length_take_drop hl, length_take_drop (by omega)]
  by_cases hc : a < Image.codesz b
  · rw [if_neg (by omega), if_pos (by omega), if_pos hc, Nat.sub_zero, getD_take_drop b hc]
  · rw [if_neg hc]
    by_cases ha : Image.database b ≤ a ∧ a < Image.database b + Image.datasz b
    · rw [if_pos ha, if_pos ha, getD_take_drop b (by omega)]
    · rw [if_neg ha, if_neg ha, if_neg (by omega)]
      rfl

theorem execImageSwitchDone_loads {s : State} {k : BitVec 13} {image : BitVec 16} {b : List Byte} (hk : (s.core k).switching = some image)
    (hb : Maps.get s.images image.toNat = some b) : execImageSwitchDone k s = .next (s.setCore k { s.core k with
      store := Image.store b, xb := BitVec.ofNat 32 (Image.codesz b), trapbase := BitVec.ofNat 32 (Image.trapbase b)
      database := BitVec.ofNat 32 (Image.database b), image := image, switching := none }) := by
  simp only [execImageSwitchDone, hk, Maps.getD, hb, Option.getD_some]

end Sys2Proof.Machine
end

section
/-!
PROOF. Stealing (R275, R277): when the thief's dispatcher has a record for it, whose turn it is, and what a steal leaves.
-/
namespace Sys2Proof.Machine

/-! ### Records the dispatcher would put on the thief first -/

/-- The dispatcher of `cl`, placing its next records one after the other by `place`, puts one of the first `n` on core `k`. -/
def State.lands (s : State) (place : State → State) (cl : BitVec 9) (k : BitVec 13) (n : Nat) : Prop :=
  ∃ m < n, (∀ i < m, (place^[i] s).pick cl ≠ none) ∧ ∃ r st, (place^[m] s).pick cl = some (r, st, k)

/-- The first record lands on the core, or it is placed elsewhere and a later one does. -/
theorem State.lands_succ (s : State) (place : State → State) (cl : BitVec 9) (k : BitVec 13) (n : Nat) :
    s.lands place cl k (n + 1) ↔ (∃ r st, s.pick cl = some (r, st, k)) ∨ (s.pick cl ≠ none ∧ (place s).lands place cl k n) := by
  constructor
  · rintro ⟨m, hm, hall, hit⟩
    cases m with
    | zero => exact .inl hit
    | succ m => exact .inr ⟨hall 0 (Nat.succ_pos m), m, Nat.lt_of_succ_lt_succ hm, fun i hi => hall (i + 1) (Nat.succ_lt_succ hi), hit⟩
  · rintro (hit | ⟨h0, m, hm, hall, hit⟩)
    · exact ⟨0, Nat.succ_pos n, fun i hi => absurd hi (Nat.not_lt_zero i), hit⟩
    · refine ⟨m + 1, Nat.succ_lt_succ hm, fun i hi => ?_, hit⟩
      cases i with
      | zero => exact h0
      | succ i => exact hall i (Nat.lt_of_succ_lt_succ hi)

/-- `serves` looks through the placements of the dispatcher. -/
theorem State.serves_iff_lands {place : State → State} {cl : BitVec 9}
    (hplace : ∀ t r st k, t.inService cl = true → t.pick cl = some (r, st, k) → place t = t.placeRec r st k ((t.core k).slotFor 0))
    (k : BitVec 13) (n : Nat) {s : State} (hs : s.inService cl = true) : s.serves cl k n = true ↔ s.lands place cl k n := by
  induction n generalizing s with
  | zero => simp [State.serves, State.lands]
  | succ n ih =>
    rw [State.lands_succ, State.serves]
    cases hp : s.pick cl with
    | none => simp
    | some x =>
      obtain ⟨r, st, j⟩ := x
      rw [hplace s r st j hs hp, ← ih ((s.placeRec_inService ..).trans hs)]
      simp

/-! ### Whose turn it is -/

/-- In rising order the first element past `last` is the one that no other comes before. -/
theorem find?_past {l : List (BitVec 13)} {last v : BitVec 13} (hl : l.Pairwise (· < ·)) (hv : v ∈ l) (hlast : last < v)
    (hother : ∀ w ∈ l, w ≤ last ∨ v ≤ w) : l.find? (fun w => decide (last.toNat < w.toNat)) = some v := by
  induction l with
  | nil => exact absurd hv List.not_mem_nil
  | cons w l ih =>
    obtain ⟨hw, hl⟩ := List.pairwise_cons.1 hl
    rcases List.mem_cons.1 hv with rfl | hv
    · exact List.find?_cons_of_pos (decide_eq_true hlast)
    · have hwv : w < v := hw v hv
      have hwl : w ≤ last := (hother w (List.mem_cons_self ..)).resolve_right (BitVec.not_le.2 hwv)
      rw [List.find?_cons_of_neg (by simpa using BitVec.le_def.1 hwl)]
      exact ih hl hv fun x hx => hother x (List.mem_cons_of_mem _ hx)

/-- In rising order the least element is the head. -/
theorem head?_least {l : List (BitVec 13)} {v : BitVec 13} (hl : l.Pairwise (· < ·)) (hv : v ∈ l) (hleast : ∀ w ∈ l, v ≤ w) :
    l.head? = some v := by
  cases l with
  | nil => exact absurd hv List.not_mem_nil
  | cons w l =>
    rcases List.mem_cons.1 hv with rfl | hv
    · rfl
    · exact absurd (hleast w (List.mem_cons_self ..)) (BitVec.not_le.2 ((List.pairwise_cons.1 hl).1 v hv))

/-- The keys of a canonical table rise. -/
theorem Maps.pairwise_of_wf {α : Type} {m : FMap α} (h : Maps.wf m = true) : m.Pairwise (·.1 < ·.1) := by
  induction m with
  | nil => exact .nil
  | cons p r ih =>
    obtain ⟨hp, hr⟩ := (Maps.wf_cons p.1 p.2 r).1 h
    exact .cons hp (ih hr)

/-- The victims of one level, in order of their numbers. -/
def State.victimsAt (s : State) (thief : BitVec 13) (level : Nat) : List (BitVec 13) :=
  (s.cores.map fun p => BitVec.ofNat 13 p.1).filter fun k => distance thief k == level && (s.stealable thief k).isSome

theorem State.victimsAt_rise {s : State} (hw : Maps.wf s.cores = true) (hk : ∀ p ∈ s.cores, p.1 < 8192) (thief : BitVec 13) (level : Nat) :
    (s.victimsAt thief level).Pairwise (· < ·) := by
  refine List.Pairwise.filter _ (List.pairwise_map.2 ((Maps.pairwise_of_wf hw).imp_of_mem fun {p q} hp hq hpq => ?_))
  rw [BitVec.lt_def, BitVec.toNat_ofNat, BitVec.toNat_ofNat, Nat.mod_eq_of_lt (hk p hp), Nat.mod_eq_of_lt (hk q hq)]
  exact hpq

/-- A core that has a record to steal is listed: one that is not has an empty deque. -/
theorem State.mem_victimsAt (s : State) (thief : BitVec 13) (level : Nat) (k : BitVec 13) :
    k ∈ s.victimsAt thief level ↔ distance thief k = level ∧ (s.stealable thief k).isSome = true := by
  rw [State.victimsAt, List.mem_filter, Bool.and_eq_true, beq_iff_eq]
  refine ⟨And.right, fun h => ⟨?_, h⟩⟩
  cases hc : Maps.get s.cores k.toNat with
  | some c => exact List.mem_map.2 ⟨_, Maps.mem_of_get hc, by simp⟩
  | none =>
    have hd : (s.core k).deque.getLast? = none := by rw [State.core, Maps.getD, hc]; rfl
    rw [State.stealable, hd] at h
    exact absurd h.2 Bool.false_ne_true

theorem State.victimAt_none {s : State} {thief : BitVec 13} {level : Nat} (h : ∀ w, distance thief w = level → s.stealable thief w = none)
    (last : BitVec 13) : s.victimAt thief level last = none := by
  have hl : s.victimsAt thief level = [] := List.eq_nil_iff_forall_not_mem.2 fun w hw => by
    obtain ⟨hd, hs⟩ := (s.mem_victimsAt ..).1 hw
    rw [h w hd] at hs
    exact Bool.false_ne_true hs
  rw [State.victimsAt] at hl
  rw [State.victimAt, hl]
  rfl

theorem State.victimAt_turn {s : State} {thief v : BitVec 13} {level : Nat} {last : BitVec 13} (hw : Maps.wf s.cores = true)
    (hk : ∀ p ∈ s.cores, p.1 < 8192) (hd : distance thief v = level) (hv : (s.stealable thief v).isSome = true)
    (hturn : (last < v ∧ ∀ w, distance thief w = level → (s.stealable thief w).isSome = true → w ≤ last ∨ v ≤ w) ∨
      ∀ w, distance thief w = level → (s.stealable thief w).isSome = true → w ≤ last ∧ v ≤ w) :
    s.victimAt thief level last = some v := by
  have hmem : v ∈ s.victimsAt thief level := (s.mem_victimsAt ..).2 ⟨hd, hv⟩
  have hrise := State.victimsAt_rise hw hk thief level
  have hin : ∀ w ∈ s.victimsAt thief level, distance thief w = level ∧ (s.stealable thief w).isSome = true :=
    fun w hw => (s.mem_victimsAt ..).1 hw
  show (match (s.victimsAt thief level).find? fun k => decide (last.toNat < k.toNat) with
    | some k => some k | none => (s.victimsAt thief level).head?) = some v
  rcases hturn with ⟨hlast, hturn⟩ | hturn
  · rw [find?_past hrise hmem hlast fun w hw => hturn w (hin w hw).1 (hin w hw).2]
  · have hnone : (s.victimsAt thief level).find? (fun k => decide (last.toNat < k.toNat)) = none :=
      List.find?_eq_none.2 fun w hw => by simpa using BitVec.le_def.1 (hturn w (hin w hw).1 (hin w hw).2).1
    rw [hnone, head?_least hrise hmem fun w hw => (hturn w (hin w hw).1 (hin w hw).2).2]

theorem finRange_four_split (i : Fin 4) :
    List.finRange 4 = (List.finRange 4).filter (· < i) ++ i :: (List.finRange 4).filter (i < ·) := by
  revert i
  decide

/-- The victim stands at the nearest level where a record can be stolen. -/
theorem State.victimOf_nearest {s : State} {thief v : BitVec 13} {i : Fin 4}
    (hnear : ∀ w, distance thief w ≤ i.val → s.stealable thief w = none)
    (hv : s.victimAt thief (i.val + 1) (s.core thief).victims[i] = some v) : s.victimOf thief = some (i, v) := by
  refine List.findSome?_eq_some_iff.2 ⟨_, i, _, finRange_four_split i, by rw [hv]; rfl, fun j hj => ?_⟩
  have hji : j < i := of_decide_eq_true (List.mem_filter.1 hj).2
  rw [State.victimAt_none fun w hw => hnear w (hw ▸ hji)]
  rfl

/-! ### The steal -/

/-- The thief counts a steal from victim `v`, the last it took at its level (R277, R328). -/
def State.countSteal (u : State) (thief v : BitVec 13) (i : Fin 4) : State :=
  u.setCore thief { u.core thief with perf5 := (u.core thief).perf5 + 1, victims := (u.core thief).victims.set i.val v i.isLt }

theorem execStealAttempt_waits {s : State} {k : BitVec 13} (v : BitVec 13) (slot : BitVec 3)
    (h : s.serves (coreCluster k) k (s.cluster (coreCluster k)).queue.length = true) : execStealAttempt k v slot s = .next s := by
  simp only [execStealAttempt, h, Bool.or_true, if_true]

theorem execStealAttempt_steals {s : State} {k v : BitVec 13} (slot : BitVec 3) {i : Fin 4} {r : Nat} {st : Strand}
    (hf : (s.core k).freeSlots.isEmpty = false) (hi : s.canIssue k = true) (hp : s.poppable k = none)
    (hq : s.serves (coreCluster k) k (s.cluster (coreCluster k)).queue.length = false) (hv : s.victimOf k = some (i, v))
    (hst : s.stealable k v = some (r, st)) : execStealAttempt k v slot s =
      if i.val < 2 then .next (((s.unlist r).countSteal k v i).placeRec r st k ((s.core k).slotFor slot))
      else .next (((s.unlist r).countSteal k v i).setStrand r { st with loc := .migrating (coreCluster k) v, core := v }) := by
  simp only [execStealAttempt, hf, hi, hp, hq, hv, hst, Bool.not_true, Option.isSome_none, Bool.or_self, Bool.false_eq_true, if_false, if_true]
  rfl

/-- What a steal within the cluster leaves: the thief's count and list, and the record in its slot. -/
theorem State.steal_near (s : State) (k v : BitVec 13) (i : Fin 4) (r : Nat) (st : Strand) (sl : BitVec 3) :
    let t := ((s.unlist r).countSteal k v i).placeRec r st k sl
    (t.core k).perf5 = (s.core k).perf5 + 1 ∧ (t.core k).victims = (s.core k).victims.set i.val v i.isLt ∧ Placed s t r st k sl := by
  intro t
  have hp : Placed s t r st k sl := ((s.unlist r).countSteal k v i).placeRec_placed r st k sl |>.of_same rfl rfl rfl
  have hc : (((s.unlist r).countSteal k v i).core k).perf5 = (s.core k).perf5 + 1 ∧
      (((s.unlist r).countSteal k v i).core k).victims = (s.core k).victims.set i.val v i.isLt := by
    rw [State.countSteal, State.core_setCore_same, State.core_unlist]
    exact ⟨rfl, rfl⟩
  simp only [t, State.core_placeRec]
  exact ⟨hc.1, hc.2, hp⟩

/-- What a steal from another cluster leaves: the record is on its way, in no deque (R58). -/
theorem State.steal_far (s : State) (k v : BitVec 13) (i : Fin 4) (r : Nat) (x : Strand) :
    let t := ((s.unlist r).countSteal k v i).setStrand r x
    (t.core k).perf5 = (s.core k).perf5 + 1 ∧ (t.core k).victims = (s.core k).victims.set i.val v i.isLt ∧ t.strand r = some x ∧
      r ∉ (t.core v).deque := by
  intro t
  have hdeque : ∀ j, r ∉ ((s.unlist r).core j).deque := fun j => by
    rw [State.core_unlist]
    simp [Core.without]
  simp only [t, State.core_setStrand, State.countSteal, State.core_setCore_same]
  refine ⟨by rw [State.core_unlist]; rfl, by rw [State.core_unlist]; rfl, State.strand_setStrand_same .., ?_⟩
  by_cases hvk : v = k
  · rw [hvk, State.core_setCore_same]
    exact hdeque k
  · rw [State.core_setCore_other _ _ _ _ hvk]
    exact hdeque v

end Sys2Proof.Machine
end

section
/-!
PROOF. O52: dispatchers, cores and image switches, assembled from what offers, placements and steals leave.
-/
namespace Sys2Proof.Machine

/-- Settles O52: every source of a slot places its record by `placeRec`; whose turn a steal is follows from the rising core numbers. -/
theorem recordsTakeSlots : Obligations.RecordsTakeSlots := by
  unfold Obligations.RecordsTakeSlots
  intro s placed
  have hplaced : ∀ {t : State} {r : Nat} {st : Strand} {k : BitVec 13} {slot : BitVec 3},
      Placed s t r st k ((s.core k).slotFor slot) → placed t r st k slot := fun {t r st k slot} h => by
    simp only [Core.slotFor_eq] at h
    exact h
  refine ⟨?accept, ?place, ?cores, ?switch⟩
  case accept =>
    intro r st cl hs hl first
    refine ⟨fun hf hr => ⟨_, execDispatcherAccept_offers hs hl, ?_⟩, fun h hw => ⟨_, execDispatcherAccept_offers hs hl, ?_⟩⟩
    · rw [State.offerRec_first st hf hr]
      have h := (s.rouse (clusterDie cl)).enqueueRec_spec r st cl
      simpa only [State.cluster_rouse, State.strand_rouse, State.hbm_rouse] using h
    · rw [State.offerRec_behind st h]
      have h := State.delayRec_spec (s := s.rouse (clusterDie cl)) st (cl := cl) (by rw [State.cluster_rouse]; exact hw)
      simpa only [State.cluster_rouse, State.strands_rouse, State.hbm_rouse] using h
  case place =>
    intro cl slot hs
    refine ⟨fun r st k hp => ⟨_, execDispatcherPlace_picks slot hs hp, hplaced (s.placeRec_placed ..)⟩,
      fun image k hp hi => ⟨_, execDispatcherPlace_switches slot hs hp hi, State.core_setCore_same .., ?_, ?_⟩⟩
    · rw [State.setCore_strands, State.strands_rouseCore]
    · rw [State.setCore_hbm, State.hbm_rouseCore]
  case cores =>
    intro k slot hfree hi
    obtain ⟨j, hj⟩ := hfree
    have hf := Core.freeSlots_ne_nil hj
    refine ⟨fun r st q hd hr hw hv =>
      ⟨_, execDequePop_pops slot hf hi (State.poppable_bottom hd hr hw hv), hplaced (s.placeRec_placed ..)⟩, ?_⟩
    intro cl place lands
    have hin : s.inService cl = true := (Bool.and_eq_true_iff.1 (Bool.and_eq_true_iff.1 hi).1).2
    have hserves : s.serves cl k (s.cluster cl).queue.length = true ↔ lands :=
      State.serves_iff_lands (place := place) (fun t r st j ht hp => by
        have he : exec (.dispatcherPlace cl 0) t = _ := execDispatcherPlace_picks 0 ht hp
        simp only [place, he]) k _ hin
    refine ⟨fun hl v => execStealAttempt_waits v slot (hserves.2 hl), ?_⟩
    intro v r st i hp hl hwf hkeys hnear hdist hsteal last others hturn
    have hv : s.victimOf k = some (i, v) :=
      State.victimOf_nearest hnear (State.victimAt_turn hwf hkeys hdist (by rw [hsteal]; rfl) hturn)
    have hx := execStealAttempt_steals slot hf hi hp (Bool.eq_false_iff.2 (mt hserves.1 hl)) hv hsteal
    by_cases hnear : i.val < 2
    · rw [if_pos hnear] at hx
      obtain ⟨hperf, hvict, hpl⟩ := s.steal_near k v i r st ((s.core k).slotFor slot)
      exact ⟨_, hx, hperf, hvict, fun _ => hplaced hpl, fun h => absurd hnear (Nat.not_lt.2 h)⟩
    · rw [if_neg hnear] at hx
      obtain ⟨hperf, hvict, hrec, hdeque⟩ := s.steal_far k v i r _
      exact ⟨_, hx, hperf, hvict, fun h => absurd h hnear, fun _ => ⟨hrec, hdeque⟩⟩
  case switch =>
    intro k image b hk hb co cs db ds hd hl
    exact ⟨_, execImageSwitchDone_loads hk hb, Image.wf_store b, Image.byte_store hd hl⟩

end Sys2Proof.Machine
end

section
/-!
PROOF. What a prefetch of inputs leaves alone (R56, R237): it fetches blocks and places copies, and rouses dies.
-/
namespace Sys2Proof.Machine

/-- From `s` to `t` blocks have been fetched: node instances, strands, trackers, Anvils, dispatcher queues and ready queues stand. -/
structure Fetched (s t : State) : Prop where
  nodes : t.nodes = s.nodes
  strands : t.strands = s.strands
  trackers : t.trackers = s.trackers
  anvils : t.anvils = s.anvils
  queue : ∀ c, (t.cluster c).queue = (s.cluster c).queue
  ready : ∀ d, (t.die d).ready = (s.die d).ready

theorem Fetched.refl (s : State) : Fetched s s := ⟨rfl, rfl, rfl, rfl, fun _ => rfl, fun _ => rfl⟩
theorem Fetched.trans {s t u : State} (h : Fetched s t) (h' : Fetched t u) : Fetched s u :=
  ⟨h'.nodes.trans h.nodes, h'.strands.trans h.strands, h'.trackers.trans h.trackers, h'.anvils.trans h.anvils,
    fun c => (h'.queue c).trans (h.queue c), fun d => (h'.ready d).trans (h.ready d)⟩
theorem Fetched.foldl {α : Type} {f : State → α → State} (h : ∀ t x, Fetched t (f t x)) (l : List α) (s : State) :
    Fetched s (l.foldl f s) := by
  induction l generalizing s with
  | nil => exact .refl s
  | cons x l ih => exact (h s x).trans (ih _)

@[simp] theorem State.trackers_rouse (s : State) (d : BitVec 3) : (s.rouse d).trackers = s.trackers := by
  obtain ⟨m, i, h⟩ := s.rouse_idles d; rw [h]; rfl

theorem State.rouse_fetched (s : State) (d : BitVec 3) : Fetched s (s.rouse d) :=
  ⟨s.nodes_rouse d, s.strands_rouse d, s.trackers_rouse d, s.anvils_rouse d, fun c => by rw [s.cluster_rouse], fun e => s.die_rouse_ready d e⟩

theorem State.setCluster_fetched (s : State) (c : BitVec 9) (v : Cluster) (h : v.queue = (s.cluster c).queue) : Fetched s (s.setCluster c v) := by
  refine ⟨rfl, rfl, rfl, rfl, fun e => ?_, fun _ => rfl⟩
  by_cases he : e = c
  · rw [he, State.cluster_setCluster_same, h]
  · rw [State.cluster_setCluster_other _ _ _ _ he]

theorem State.routed_fetched (s : State) (m : BitVec 8) (b : FrameBody) : Fetched s (s.routed m b) := by
  obtain ⟨out, l, k, np, el, eh, h⟩ := State.inject_frame { s with fresh := s.fresh + 1 } { src := s.modNo, dst := m, num := s.fresh, body := b }
  rw [State.routed, h]
  exact ⟨rfl, rfl, rfl, rfl, fun _ => rfl, fun _ => rfl⟩

theorem State.startFill_fetched (s : State) (cl : BitVec 9) (blk : Nat) (ms : List Nat) : Fetched s (s.startFill cl blk ms) := by
  unfold State.startFill
  dsimp only
  split
  · exact .refl s
  · split <;> exact s.setCluster_fetched _ _ rfl

theorem State.fetch_fetched (s : State) (cl : BitVec 9) (blk : Nat) (ms : List Nat) : Fetched s (s.fetch cl blk ms) := by
  unfold State.fetch State.forceFill
  split
  · exact (s.setCluster_fetched cl _ (by split <;> rfl)).trans (State.startFill_fetched ..)
  · exact s.startFill_fetched ..

theorem State.placeCopy_fetched (s : State) (k : BitVec 9) (h : Word) (d : Payload) : Fetched s (s.placeCopy k h d) := by
  unfold State.placeCopy
  dsimp only
  split
  · exact s.setCluster_fetched _ _ rfl
  · split
    · exact .refl s
    · exact s.setCluster_fetched _ _ rfl

theorem State.answerPref_fetched (s : State) (b : Block) (h : Word) (frm : Option (BitVec 8)) (k : BitVec 9) :
    Fetched s (s.answerPref b h frm k) := by
  unfold State.answerPref
  split
  · split
    · split
      · exact (s.rouse_fetched _).trans (State.placeCopy_fetched ..)
      · exact .refl s
    · exact s.routed_fetched ..
  · exact .refl s

theorem State.prefetchHere_fetched (s : State) (h : Word) (cl : BitVec 9) (blk : Nat) (frm : Option (BitVec 8)) (k : Option (BitVec 9)) :
    Fetched s (s.prefetchHere h cl blk frm k) := by
  unfold State.prefetchHere
  have hr := s.rouse_fetched (clusterDie cl)
  split
  · exact .refl s
  · dsimp only
    generalize s.rouse (clusterDie cl) = s0 at hr ⊢
    split
    · cases k with
      | none => exact hr
      | some k => exact hr.trans (s0.answerPref_fetched ..)
    · split
      · exact hr
      · have hf := hr.trans (s0.fetch_fetched cl blk [])
        cases k with
        | none => exact hf
        | some k => exact hf.trans (State.setCluster_fetched _ _ _ rfl)

theorem State.prefetch_fetched (s : State) (h : Word) (p : Place) (k : Option (BitVec 9)) : Fetched s (s.prefetch h p k) := by
  unfold State.prefetch
  split
  · exact .refl s
  · split
    · exact s.prefetchHere_fetched ..
    · exact s.routed_fetched ..
    · exact .refl s

theorem State.prefInputs_fetched (s : State) (r : NodeRec) (args : Vector Word 8) (cl : BitVec 9) : Fetched s (s.prefInputs r args cl) := by
  unfold State.prefInputs
  refine Fetched.foldl (fun t h => ?_) _ s
  split
  · exact .refl t
  · split
    · exact t.prefetch_fetched ..
    · exact .refl t

theorem Fetched.node {s t : State} (h : Fetched s t) (n : BitVec 32) : t.node n = s.node n := congrArg (Maps.get · n.toNat) h.nodes
theorem Fetched.strand {s t : State} (h : Fetched s t) (r : Nat) : t.strand r = s.strand r := congrArg (Maps.get · r) h.strands
theorem Fetched.anvil {s t : State} (h : Fetched s t) (a : BitVec 11) : t.anvil a = s.anvil a :=
  congrArg (Maps.getD · a.toNat Anvil.reset) h.anvils

end Sys2Proof.Machine
end

section
/-!
PROOF. Node instances become ready and are handed over (R52, R57).
-/
namespace Sys2Proof.Machine

@[simp] theorem State.instances_rouse (s : State) (d : BitVec 3) : (s.rouse d).instances = s.instances := by
  obtain ⟨m, i, h⟩ := s.rouse_idles d; rw [h]; rfl
@[simp] theorem State.graphs_rouse (s : State) (d : BitVec 3) : (s.rouse d).graphs = s.graphs := by
  obtain ⟨m, i, h⟩ := s.rouse_idles d; rw [h]; rfl

/-- The record of a node rests on the instances and the graphs alone. -/
theorem State.nodeRec_congr {s t : State} (hi : t.instances = s.instances) (hg : t.graphs = s.graphs) (nd : Node) : t.nodeRec nd = s.nodeRec nd := by
  rw [State.nodeRec, State.nodeRec, State.inst, State.inst, hi, hg]

theorem State.die_setNode (s : State) (n : BitVec 32) (v : Node) (d : BitVec 3) : (s.setNode n v).die d = s.die d := rfl

/-! ### The tail of a ready queue (R52) -/

/-- Node instance `n` at the tail of the queue of one priority. -/
def Die.enqueued (d : Die) (p : BitVec 2) (n : BitVec 32) : Die :=
  { d with ready := d.ready.set p.toNat (d.ready[p.toNat]'(p.isLt) ++ [n]) p.isLt }

theorem Die.enqueued_ready (d : Die) (p : BitVec 2) (n : BitVec 32) (k : Fin 4) :
    (d.enqueued p n).ready[k] = if k.val = p.toNat then d.ready[k] ++ [n] else d.ready[k] := by
  simp only [Die.enqueued, Fin.getElem_fin, Vector.getElem_set]
  by_cases h : p.toNat = k.val
  · rw [if_pos h, if_pos h.symm]
    simp only [h]
  · rw [if_neg h, if_neg (Ne.symm h)]

theorem Die.enqueued_ready_same (d : Die) (p : BitVec 2) (n : BitVec 32) :
    (d.enqueued p n).ready[p.toNat]'(p.isLt) = d.ready[p.toNat]'(p.isLt) ++ [n] := Vector.getElem_set_self ..

theorem State.enqueueReady_eq {s : State} {n : BitVec 32} {nd : Node} {r : NodeRec} {i : Instance} (hn : s.node n = some nd)
    (hr : s.nodeRec nd = some (r, i)) : s.enqueueReady n =
      (s.setDie nd.owner ((s.die nd.owner).enqueued (NodeRec.prio r) n)).setNode n { nd with stage := .ready } := by
  simp only [State.enqueueReady, hn, hr]
  rfl

/-- What joining a ready queue leaves. -/
theorem State.enqueueReady_spec {s : State} {n : BitVec 32} {nd : Node} {e : BitVec 3} {r : NodeRec} {i : Instance} (hn : s.node n = some nd)
    (he : nd.owner = e) (hr : s.nodeRec nd = some (r, i)) :
    (s.enqueueReady n).node n = some { nd with stage := .ready } ∧ (s.enqueueReady n).strands = s.strands ∧ (s.enqueueReady n).hbm = s.hbm ∧
      (s.enqueueReady n).die e = (s.die e).enqueued (NodeRec.prio r) n ∧ ∀ d, d ≠ e → (s.enqueueReady n).die d = s.die d := by
  rw [State.enqueueReady_eq hn hr, he]
  refine ⟨State.node_setNode_same .., ?_, ?_, ?_, fun d hd => ?_⟩
  · rw [State.setNode_strands, State.setDie_strands]
  · rw [State.setNode_hbm, State.setDie_hbm]
  · rw [State.die_setNode, State.die_setDie_same]
  · rw [State.die_setNode, State.die_setDie_other s _ hd]

/-! ### A watcher fires (R52) -/

/-- The fire is taken and the missing-input count drops. -/
def State.fired (s : State) (m : Nat) (d : BitVec 3) (n : BitVec 32) (nd : Node) : State :=
  ((s.take m).rouse d).setNode n { nd with missing := nd.missing - 1 }

theorem State.nodeRec_fired (s : State) (m : Nat) (d : BitVec 3) (n : BitVec 32) (nd nd' : Node) :
    (s.fired m d n nd).nodeRec nd' = s.nodeRec nd' :=
  State.nodeRec_congr (by rw [State.fired, State.setNode_instances, State.instances_rouse, State.take_instances])
    (by rw [State.fired, State.setNode_graphs, State.graphs_rouse, State.take_graphs]) nd'

theorem State.strands_fired (s : State) (m : Nat) (d : BitVec 3) (n : BitVec 32) (nd : Node) : (s.fired m d n nd).strands = s.strands := by
  rw [State.fired, State.setNode_strands, State.strands_rouse, State.take_strands]

/-- The last input came: the node is ready, at the tail of the queue of its priority. -/
theorem State.fired_ready {s : State} (m : Nat) (d : BitVec 3) (n : BitVec 32) {nd : Node} {r : NodeRec} {i : Instance} (h : nd.missing ≤ 1)
    (hr : s.nodeRec nd = some (r, i)) :
    let t := (s.fired m d n nd).enqueueReady n
    t.node n = some { nd with missing := 0, stage := .ready } ∧ t.strands = s.strands ∧ t.hbm = s.hbm ∧
      ∀ k : Fin 4, (t.die nd.owner).ready[k] = if k.val = (NodeRec.prio r).toNat then (s.die nd.owner).ready[k] ++ [n]
        else (s.die nd.owner).ready[k] := by
  have hn : (s.fired m d n nd).node n = some { nd with missing := 0 } := by
    rw [State.fired, State.node_setNode_same, Nat.sub_eq_zero_of_le h]
  have hr' : (s.fired m d n nd).nodeRec { nd with missing := 0 } = some (r, i) := (s.nodeRec_fired ..).trans hr
  have hq : ((s.fired m d n nd).die nd.owner).ready = (s.die nd.owner).ready := by
    rw [State.fired, State.die_setNode, State.die_rouse_ready]
    rfl
  have hs := s.strands_fired m d n nd
  have hb : (s.fired m d n nd).hbm = s.hbm := by rw [State.fired, State.setNode_hbm, State.hbm_rouse, State.take_hbm]
  generalize s.fired m d n nd = u at hn hr' hq hs hb
  obtain ⟨hnode, hstr, hhbm, hdie, -⟩ := State.enqueueReady_spec hn rfl hr'
  refine ⟨hnode, hstr.trans hs, hhbm.trans hb, fun k => ?_⟩
  have hk := (u.die nd.owner).enqueued_ready (NodeRec.prio r) n k
  rw [hq] at hk
  exact (congrArg (fun x : Die => x.ready[k]) hdie).trans hk

section
variable {s : State} {m : Nat} {d : BitVec 3} {n : BitVec 32} {nd : Node}
variable (hm : Maps.get s.net m = some (.fire d n)) (hn : s.node n = some nd) (hw : nd.stage = .waiting)
include hm hn hw

theorem execWatcherWake_last (h : nd.missing ≤ 1) : execWatcherWake m s = .next ((s.fired m d n nd).enqueueReady n) := by
  have hn' : ((s.take m).rouse d).node n = some nd := ((s.take m).node_rouse d n).trans hn
  simp only [execWatcherWake, hm, hn']
  rw [if_neg (not_not_intro hw), if_pos h]
  rfl

theorem execWatcherWake_more (h : 3 ≤ nd.missing) : execWatcherWake m s = .next (s.fired m d n nd) := by
  have hn' : ((s.take m).rouse d).node n = some nd := ((s.take m).node_rouse d n).trans hn
  simp only [execWatcherWake, hm, hn']
  rw [if_neg (not_not_intro hw), if_neg (by omega), if_neg (by omega)]
  rfl

/-- With one input missing the others are fetched (R237). -/
theorem execWatcherWake_fetches (h : nd.missing = 2) : ∃ t, execWatcherWake m s = .next t ∧ Fetched (s.fired m d n nd) t := by
  have hn' : ((s.take m).rouse d).node n = some nd := ((s.take m).node_rouse d n).trans hn
  simp only [execWatcherWake, hm, hn']
  rw [if_neg (not_not_intro hw), if_neg (by omega), if_pos h]
  split
  · exact ⟨_, rfl, .refl _⟩
  · refine ⟨_, rfl, ?_⟩
    split
    · exact .refl _
    · exact State.prefInputs_fetched ..

end

/-! ### A hand-over (R57) -/

theorem execBelfryHandover_moves {s : State} {d dest : BitVec 3} {n : BitVec 32} {nd : Node} (hn : s.node n = some nd) (ho : nd.owner = d)
    (hr : nd.stage = .ready) (hd : dest ≠ d) (ha : (s.die dest).alive = true) (hc : s.choice d n = none) (hc' : (s.choice dest n).isSome = true) :
    execBelfryHandover d dest n s =
      .next ((((s.rouse dest).unready d n).setNode n { nd with owner := dest, skip := 0 }).enqueueReady n) := by
  simp [execBelfryHandover, hn, ho, hr, hd, ha, hc, hc']

theorem State.unready_ready (s : State) (d : BitVec 3) (n : BitVec 32) (k : Fin 4) : n ∉ ((s.unready d n).die d).ready[k] := by
  rw [State.unready, State.die_setDie_same]
  simp

/-- The entry leaves its die for the tail of the queue of its priority at the other. -/
theorem State.handedOver_spec {s : State} {d dest : BitVec 3} (n : BitVec 32) {nd : Node} {r : NodeRec} {i : Instance} (hd : dest ≠ d)
    (hst : nd.stage = .ready) (hr : s.nodeRec nd = some (r, i)) {t : State}
    (ht : t = (((s.rouse dest).unready d n).setNode n { nd with owner := dest, skip := 0 }).enqueueReady n) :
    t.node n = some { nd with owner := dest, skip := 0 } ∧ (∀ k : Fin 4, n ∉ (t.die d).ready[k]) ∧ t.strands = s.strands ∧
      (t.die dest).ready[(NodeRec.prio r).toNat]'((NodeRec.prio r).isLt) =
        (s.die dest).ready[(NodeRec.prio r).toNat]'((NodeRec.prio r).isLt) ++ [n] := by
  subst ht
  have hready : ((s.rouse dest).die dest).ready = (s.die dest).ready := s.die_rouse_ready ..
  have hs := s.strands_rouse dest
  have hr' : (s.rouse dest).nodeRec { nd with owner := dest, skip := 0 } = some (r, i) :=
    (State.nodeRec_congr (s.instances_rouse dest) (s.graphs_rouse dest) _).trans hr
  generalize s.rouse dest = u at hready hs hr'
  have hn : ((u.unready d n).setNode n { nd with owner := dest, skip := 0 }).node n = some { nd with owner := dest, skip := 0 } :=
    State.node_setNode_same ..
  obtain ⟨hnode, hstr, -, hdie, hother⟩ := State.enqueueReady_spec (e := dest) hn rfl hr'
  refine ⟨?_, fun k => ?_, hstr.trans hs, ?_⟩
  · rw [hnode, ← hst]
  · rw [hother d (Ne.symm hd)]
    exact u.unready_ready d n k
  · have hdest : ((u.unready d n).setNode n { nd with owner := dest, skip := 0 }).die dest = u.die dest := by
      rw [State.die_setNode, State.unready, State.die_setDie_other _ _ hd]
    rw [hdest] at hdie
    simp only [hdie, Die.enqueued_ready_same, hready]

end Sys2Proof.Machine
end

section
/-!
PROOF. A dispatch round finds an entry, its cluster and a quad of it (R55, R56).
-/
namespace Sys2Proof.Machine

/-! ### What a round sends first (R255) -/

/-- A fold whose every step leaves the state alone. -/
theorem foldl_stays {α β : Type} {f : β → α → β} {l : List α} {s : β} (h : ∀ x ∈ l, f s x = s) : l.foldl f s = s := by
  induction l with
  | nil => rfl
  | cons x l ih =>
    rw [List.foldl_cons, h x (List.mem_cons_self ..)]
    exact ih fun y hy => h y (List.mem_cons_of_mem _ hy)

theorem State.sendDue_idle (s : State) (n : BitVec 32) {nd : Node} (h : nd.stage ≠ .sealDue ∧ ∀ left, nd.stage ≠ .discardDue left) :
    s.sendDue n nd = s := by
  unfold State.sendDue
  split
  · next hs => exact absurd hs h.1
  · next left hs => exact absurd hs (h.2 left)
  · rfl

/-- The registrations that a start left to send, when it left none. -/
theorem State.starting_sent {s : State} {x : Starting} (hx : s.starting = some x) (ht : x.todo = []) :
    { s with starting := some { x with todo := [] } } = s := by
  have h : some { x with todo := [] } = s.starting := by
    rw [hx, ← ht]
  rw [h]

theorem State.pumpBelfry_idle {s : State} {d : BitVec 3} (hs : ∀ x, s.starting = some x → x.todo = [])
    (hn : ∀ p ∈ s.nodes, p.2.owner = d → p.2.stage ≠ .sealDue ∧ ∀ left, p.2.stage ≠ .discardDue left) : s.pumpBelfry d = s := by
  have hfold : s.nodes.foldl (fun t p => if p.2.owner = d then t.sendDue (BitVec.ofNat 32 p.1) p.2 else t) s = s :=
    foldl_stays fun p hp => by
      split
      · next ho => exact s.sendDue_idle _ (hn p hp ho)
      · rfl
  unfold State.pumpBelfry
  split
  · exact hfold
  · next x hx =>
    simp only [hs x hx, State.postWatchers, State.starting_sent hx (hs x hx)]
    exact hfold

/-! ### Entries that are passed over -/

/-- The entries of a list are counted as passed over. -/
def State.skippedAll (s : State) (l : List (BitVec 32)) : State := l.foldl (fun t n => t.skipped n) s

theorem State.skipped_frame (s : State) (n : BitVec 32) : ∃ ns, s.skipped n = { s with nodes := ns } := by
  unfold State.skipped
  split <;> exact ⟨_, rfl⟩

/-- Only node instances change. -/
theorem State.skippedAll_frame (s : State) (l : List (BitVec 32)) : ∃ ns, s.skippedAll l = { s with nodes := ns } := by
  induction l generalizing s with
  | nil => exact ⟨_, rfl⟩
  | cons x l ih =>
    obtain ⟨ns, h⟩ := s.skipped_frame x
    obtain ⟨ns', h'⟩ := ih (s.skipped x)
    exact ⟨ns', by rw [State.skippedAll, List.foldl_cons, ← State.skippedAll, h', h]⟩

theorem State.node_setNode_other (s : State) {n k : BitVec 32} (v : Node) (h : k ≠ n) : (s.setNode n v).node k = s.node k :=
  Maps.get_put_other _ _ _ _ fun e => h (BitVec.eq_of_toNat_eq e)

theorem State.node_skipped_same (s : State) (n : BitVec 32) : (s.skipped n).node n = (s.node n).map fun y => { y with skip := y.skip + 1 } := by
  unfold State.skipped
  split
  · next h => rw [h]; rfl
  · next nd h => rw [h]; exact State.node_setNode_same ..

theorem State.node_skipped_other (s : State) {n k : BitVec 32} (h : k ≠ n) : (s.skipped n).node k = s.node k := by
  unfold State.skipped
  split
  · rfl
  · exact s.node_setNode_other _ h

theorem State.node_skippedAll_other (s : State) {l : List (BitVec 32)} {k : BitVec 32} (h : k ∉ l) : (s.skippedAll l).node k = s.node k := by
  induction l generalizing s with
  | nil => rfl
  | cons x l ih =>
    rw [List.mem_cons, not_or] at h
    exact (ih (s.skipped x) h.2).trans (s.node_skipped_other h.1)

theorem State.node_skippedAll_mem (s : State) {l : List (BitVec 32)} {k : BitVec 32} (hk : k ∈ l) (hl : l.Nodup) :
    (s.skippedAll l).node k = (s.node k).map fun y => { y with skip := y.skip + 1 } := by
  induction l generalizing s with
  | nil => exact absurd hk List.not_mem_nil
  | cons x l ih =>
    obtain ⟨hx, hl⟩ := List.nodup_cons.1 hl
    rcases List.mem_cons.1 hk with rfl | hk
    · exact (State.node_skippedAll_other _ hx).trans (s.node_skipped_same k)
    · refine (ih (s.skipped x) hk hl).trans (congrArg _ (s.node_skipped_other fun e => hx (e ▸ hk)))

/-- A round passes over the entries before the first that has a choice, and dispatches that one. -/
theorem execBelfryDispatchRound_dispatches {s : State} {d : BitVec 3} (quad : BitVec 2) {passed rest : List (BitVec 32)} {n : BitVec 32}
    {r : NodeRec} {i : Instance} {cl : BitVec 9} (ha : (s.die d).alive = true) (hpump : s.pumpBelfry d = s)
    (hl : s.examined (s.die d) 4 = passed ++ n :: rest) (hp : ∀ x ∈ passed, s.choice d x = none) (hc : s.choice d n = some (r, i, cl)) :
    execBelfryDispatchRound d quad s = .next ((s.skippedAll passed).dispatchNode d n r i cl quad) := by
  have htake : (passed ++ n :: rest).takeWhile (fun x => (s.choice d x).isNone) = passed := by
    rw [List.takeWhile_append_of_pos fun x hx => by rw [hp x hx]; rfl, List.takeWhile_cons_of_neg (by rw [hc]; exact Bool.false_ne_true),
      List.append_nil]
  simp only [execBelfryDispatchRound, ha, hpump, hl, htake, Bool.not_true, Bool.false_eq_true, if_false, List.drop_left, hc]
  rfl

/-! ### The cluster and its quad (R56) -/

theorem mem_of_mem_prefer {α : Type} {p : α → Bool} {l : List α} {x : α} (h : x ∈ prefer p l) : x ∈ l := by
  unfold prefer at h
  split at h
  · exact h
  · exact List.mem_of_mem_filter h

/-- The better of the best so far and the next. -/
theorem mem_of_foldl_best {α : Type} {w : α → Nat} {l : List α} {best : Option α} {x : α}
    (h : l.foldl (fun best x => match best with | none => some x | some y => if w x < w y then some x else some y) best = some x) :
    best = some x ∨ x ∈ l := by
  induction l generalizing best with
  | nil => exact .inl h
  | cons y l ih =>
    rcases ih h with hb | hl
    · cases best with
      | none => exact .inr (Option.some.inj hb ▸ List.mem_cons_self ..)
      | some z =>
        dsimp only at hb
        split at hb
        · exact .inr (Option.some.inj hb ▸ List.mem_cons_self ..)
        · exact .inl hb
    · exact .inr (List.mem_cons_of_mem _ hl)

theorem mem_of_least {α : Type} {w : α → Nat} {l : List α} {x : α} (h : least w l = some x) : x ∈ l :=
  (mem_of_foldl_best h).resolve_left fun hn => nomatch hn

/-- The cluster chosen can take the node. -/
theorem State.canTake_of_choose {s : State} {d : BitVec 3} {r : NodeRec} {args : Vector Word 8} {cl : BitVec 9}
    (h : s.chooseCluster d r args = some cl) : s.canTake cl r = true :=
  (List.mem_filter.1 (mem_of_mem_prefer (mem_of_mem_prefer (mem_of_mem_prefer (mem_of_least h))))).2

theorem State.choice_some {s : State} {d : BitVec 3} {n : BitVec 32} {nd : Node} {r : NodeRec} {i : Instance} {cl : BitVec 9}
    (hn : s.node n = some nd) (h : s.choice d n = some (r, i, cl)) : s.nodeRec nd = some (r, i) ∧ s.canTake cl r = true := by
  unfold State.choice at h
  split at h
  · exact nomatch h
  · next nd' hnd =>
    split at hnd
    · obtain rfl := Option.some.inj (hnd.symm.trans hn)
      split at h
      · exact nomatch h
      · next r' i' hr =>
        obtain ⟨c, hc, he⟩ := Option.map_eq_some_iff.1 h
        obtain ⟨rfl, rfl, rfl⟩ := he
        exact ⟨hr, State.canTake_of_choose hc⟩
    · exact nomatch hnd

theorem mem_clusterCores {cl : BitVec 9} {k : BitVec 13} (h : k ∈ clusterCores cl) : coreCluster k = cl := by
  obtain ⟨i, -, rfl⟩ := List.mem_map.1 h
  exact BitVec.extractLsb'_append_eq_left

theorem mem_quadCores {a : BitVec 11} {k : BitVec 13} (h : k ∈ quadCores a) : coreAnvil k = a := by
  simp only [quadCores, List.mem_cons, List.not_mem_nil, or_false] at h
  obtain rfl | rfl | rfl | rfl := h <;> exact BitVec.extractLsb'_append_eq_left

theorem mem_quads (q : BitVec 2) : q ∈ [0#2, 1#2, 2#2, 3#2] := by
  revert q
  decide

/-- A core stands in its quad, and its Anvil is that of the quad in its cluster. -/
theorem core_of_quad (k : BitVec 13) : coreAnvil k ++ k.extractLsb' 0 2 = k := by
  refine BitVec.eq_of_toNat_eq ?_
  rw [toNat_append_add]
  simp [coreAnvil, BitVec.extractLsb'_toNat, Nat.shiftRight_eq_div_pow]
  omega

theorem anvil_of_cluster (k : BitVec 13) : coreCluster k ++ k.extractLsb' 2 2 = coreAnvil k := by
  refine BitVec.eq_of_toNat_eq ?_
  rw [toNat_append_add]
  simp [coreAnvil, coreCluster, BitVec.extractLsb'_toNat, Nat.shiftRight_eq_div_pow]
  omega

theorem mem_quadCores_self (k : BitVec 13) : k ∈ quadCores (coreAnvil k) := by
  have h : k = coreAnvil k ++ k.extractLsb' 0 2 := (core_of_quad k).symm
  have hq := mem_quads (k.extractLsb' 0 2)
  generalize coreAnvil k = a at h ⊢
  generalize k.extractLsb' 0 2 = q at h hq
  subst h
  exact List.mem_map_of_mem (f := fun q : BitVec 2 => a ++ q) hq

/-- The quad of a cluster that a round tries: first the one it is told, then in order. -/
def State.quadFor (s : State) (cl : BitVec 9) (quad : BitVec 2) (r : NodeRec) : Option (BitVec 11) :=
  ((quad :: [0#2, 1#2, 2#2, 3#2]).map fun q => (cl ++ q : BitVec 11)).find? fun a => (quadCores a).any fun k => s.meets k r

/-- A cluster that can take a node has a quad with a core for it, whose Anvil has the free tiles. -/
theorem State.quadFor_of_canTake {s : State} {cl : BitVec 9} {r : NodeRec} (h : s.canTake cl r = true) (quad : BitVec 2) :
    ∃ a, s.quadFor cl quad r = some a ∧ anvilCluster a = cl ∧ NodeRec.tiles r ≤ (s.anvil a).freeTiles := by
  obtain ⟨-, hany⟩ := Bool.and_eq_true_iff.1 h
  obtain ⟨k, hk, hm⟩ := List.any_eq_true.1 hany
  have hmem : coreAnvil k ∈ (quad :: [0#2, 1#2, 2#2, 3#2]).map fun q => (cl ++ q : BitVec 11) := by
    rw [← anvil_of_cluster, mem_clusterCores hk]
    exact List.mem_map_of_mem (f := fun q : BitVec 2 => cl ++ q) (List.mem_cons_of_mem _ (mem_quads _))
  have hsome : (s.quadFor cl quad r).isSome = true :=
    List.find?_isSome.2 ⟨_, hmem, List.any_eq_true.2 ⟨k, mem_quadCores_self k, hm⟩⟩
  obtain ⟨a, ha⟩ := Option.isSome_iff_exists.1 hsome
  obtain ⟨q, -, hq⟩ := List.mem_map.1 (List.mem_of_find?_eq_some ha)
  have hquad : ((quadCores a).any fun k => s.meets k r) = true :=
    List.find?_some (p := fun a => (quadCores a).any fun k => s.meets k r) ha
  obtain ⟨j, hj, hmj⟩ := List.any_eq_true.1 hquad
  refine ⟨a, ha, hq ▸ BitVec.extractLsb'_append_eq_left, ?_⟩
  have htiles : s.tilesFor j (NodeRec.tiles r) = true := (Bool.and_eq_true_iff.1 (Bool.and_eq_true_iff.1 hmj).1).2
  have := of_decide_eq_true (Bool.and_eq_true_iff.1 htiles).1
  rwa [mem_quadCores hj] at this

end Sys2Proof.Machine
end

section
/-!
PROOF. What a dispatch leaves (R56, R64): reserved tiles, a root strand in the queue, the node running.
-/
namespace Sys2Proof.Machine

/-! ### Reserved tiles -/

theorem count_setTile (v : Vector TileUse 16) (i : Fin 16) (n : BitVec 32) (h : v[i.val] = .free) :
    (v.set i.val (.reserved n) i.isLt).toList.count .free + 1 = v.toList.count .free ∧
      (v.set i.val (.reserved n) i.isLt).toList.count (.reserved n) = v.toList.count (.reserved n) + 1 := by
  have hi : i.val < v.toList.length := by simp
  have hget : v.toList[i.val] = .free := by simpa using h
  have hpos : 0 < v.toList.count .free := List.count_pos_iff.2 (hget ▸ List.getElem_mem hi)
  have h1 : (TileUse.free == .reserved n) = false := rfl
  have h2 : (TileUse.reserved n == .free) = false := rfl
  rw [Vector.toList_set, List.count_set hi, List.count_set hi, hget, h1, h2, beq_self_eq_true, beq_self_eq_true]
  simp only [Bool.false_eq_true, if_true, if_false]
  omega

/-- With enough free tiles each reservation takes one. -/
theorem count_reserveTiles (k : Nat) (v : Vector TileUse 16) (n : BitVec 32) (h : k ≤ v.toList.count .free) :
    (reserveTiles v n k).toList.count (.reserved n) = v.toList.count (.reserved n) + k := by
  induction k generalizing v with
  | zero => rfl
  | succ k ih =>
    rw [reserveTiles]
    split
    · next hnone =>
      have hfree : TileUse.free ∈ v.toList := List.count_pos_iff.1 (by omega)
      obtain ⟨i, hi, he⟩ := List.getElem_of_mem hfree
      have hno := List.find?_eq_none.1 hnone ⟨i, by simpa using hi⟩ (List.mem_finRange _)
      exact absurd (by simpa using he) hno
    · next i hi =>
      obtain ⟨hf, hr⟩ := count_setTile v i n (by simpa using List.find?_some hi)
      rw [ih _ (by omega), hr]
      omega

theorem Anvil.freeTiles_eq (v : Anvil) : v.freeTiles = v.tiles.toList.count .free := by
  rw [Anvil.freeTiles, List.count, List.countP_eq_length_filter]

/-! ### The root strand (R64) -/

section
variable (n : BitVec 32) (nd : Node) (r : NodeRec) (args : Vector Word 8) (image : List Byte) (tracker : Nat) (cl : BitVec 9)

theorem rootRecord_node : (rootRecord n nd r args image tracker cl).reg 0 = BitVec.ofNat 64 n.toNat := by
  simp [rootRecord, Strand.reg]
theorem rootRecord_inst : (rootRecord n nd r args image tracker cl).reg 1 = BitVec.ofNat 64 nd.inst.toNat := by
  simp [rootRecord, Strand.reg]
theorem rootRecord_zeros (k : Fin 6) : (rootRecord n nd r args image tracker cl).regs[k.val + 2] = 0 := by
  simp only [rootRecord, Vector.getElem_ofFn]
  rw [if_neg (by omega), if_neg (by omega), if_pos (by omega)]
theorem rootRecord_handles (k : Fin 8) : (rootRecord n nd r args image tracker cl).regs[k.val + 8] =
    ((NodeRec.inputs r ++ NodeRec.outputs r).map fun x => RangeDesc.handle x args 0).getD k.val nullHandle := by
  simp only [rootRecord, Vector.getElem_ofFn]
  rw [if_neg (by omega), if_neg (by omega), if_neg (by omega), Nat.add_sub_cancel]
theorem rootRecord_anch : (rootRecord n nd r args image tracker cl).anch = false := by
  simp [rootRecord, Strand.anch, Strand.blank]

end

/-! ### The state after a dispatch -/

/-- Tiles of Anvil `a` reserved, a tracker made, and the root strand in the queue of its dispatcher. -/
def State.rootQueued (u : State) (n : BitVec 32) (nd : Node) (r : NodeRec) (args : Vector Word 8) (image : List Byte) (cl : BitVec 9)
    (a : BitVec 11) : State :=
  let q := (u.setAnvil a { u.anvil a with tiles := reserveTiles (u.anvil a).tiles n (NodeRec.tiles r) }).newTracker cl
  let x := { q.2 with fresh := q.2.fresh + 1 }.setStrand q.2.fresh (rootRecord n nd r args image q.1 cl)
  x.setCluster cl { x.cluster cl with queue := (x.cluster cl).queue ++ [q.2.fresh] }

section
variable (u : State) (n : BitVec 32) (nd : Node) (r : NodeRec) (args : Vector Word 8) (image : List Byte) (cl : BitVec 9) (a : BitVec 11)

theorem State.node_rootQueued (k : BitVec 32) : (u.rootQueued n nd r args image cl a).node k = u.node k := rfl
theorem State.die_rootQueued (d : BitVec 3) : (u.rootQueued n nd r args image cl a).die d = u.die d := rfl
theorem State.anvil_rootQueued : ((u.rootQueued n nd r args image cl a).anvil a).tiles = reserveTiles (u.anvil a).tiles n (NodeRec.tiles r) :=
  congrArg Anvil.tiles (u.anvil_setAnvil_same a _)
theorem State.queue_rootQueued : ((u.rootQueued n nd r args image cl a).cluster cl).queue = (u.cluster cl).queue ++ [u.fresh + 1] :=
  congrArg Cluster.queue (State.cluster_setCluster_same ..)
theorem State.strand_rootQueued : (u.rootQueued n nd r args image cl a).strand (u.fresh + 1) =
    some (rootRecord n nd r args image (2 * u.fresh) cl) := Maps.get_put_same ..
theorem State.tracker_rootQueued : Maps.get (u.rootQueued n nd r args image cl a).trackers (2 * u.fresh) = some { Tracker.zero with cl := cl } :=
  Maps.get_put_same ..

end

/-- A dispatch to a quad: the root strand is queued, then inputs are fetched into the cluster. -/
theorem State.dispatchNode_eq {s : State} {d : BitVec 3} {n : BitVec 32} {nd : Node} {r : NodeRec} {i : Instance} {cl : BitVec 9}
    {quad : BitVec 2} {a : BitVec 11} (hn : s.node n = some nd) (ha : s.quadFor cl quad r = some a) :
    s.dispatchNode d n r i cl quad =
      ((((s.rouse d).unready d n).setNode n { nd with stage := .running, cluster := some cl, anvil := some a }).rootQueued n nd r i.args
        (Maps.getD s.images (NodeRec.image r).toNat []) cl a).prefInputs r i.args cl := by
  unfold State.quadFor at ha
  simp only [State.dispatchNode, hn, ha]
  rfl

theorem State.quadFor_skippedAll (s : State) (l : List (BitVec 32)) (cl : BitVec 9) (quad : BitVec 2) (r : NodeRec) :
    (s.skippedAll l).quadFor cl quad r = s.quadFor cl quad r := by
  obtain ⟨ns, h⟩ := s.skippedAll_frame l
  rw [h]
  rfl

@[simp] theorem State.fresh_rouse (s : State) (d : BitVec 3) : (s.rouse d).fresh = s.fresh := by
  obtain ⟨m, i, h⟩ := s.rouse_idles d; rw [h]; rfl

theorem State.cluster_setNode (s : State) (n : BitVec 32) (v : Node) (c : BitVec 9) : (s.setNode n v).cluster c = s.cluster c := rfl
theorem State.anvil_setNode (s : State) (n : BitVec 32) (v : Node) (a : BitVec 11) : (s.setNode n v).anvil a = s.anvil a := rfl
theorem State.cluster_unready (s : State) (d : BitVec 3) (n : BitVec 32) (c : BitVec 9) : (s.unready d n).cluster c = s.cluster c := rfl
theorem State.anvil_unready (s : State) (d : BitVec 3) (n : BitVec 32) (a : BitVec 11) : (s.unready d n).anvil a = s.anvil a := rfl
theorem State.node_unready (s : State) (d : BitVec 3) (n k : BitVec 32) : (s.unready d n).node k = s.node k := rfl
theorem State.fresh_unready (s : State) (d : BitVec 3) (n : BitVec 32) : (s.unready d n).fresh = s.fresh := rfl

/-- What a dispatch leaves: the node runs on its quad and is in no queue, its tiles are reserved, and its root strand waits at the
dispatcher with a tracker of its own. -/
theorem State.dispatchNode_spec {s t : State} {d : BitVec 3} {n : BitVec 32} {nd : Node} {r : NodeRec} {i : Instance} {cl : BitVec 9}
    {quad : BitVec 2} {a : BitVec 11} (hn : s.node n = some nd) (ha : s.quadFor cl quad r = some a)
    (htiles : NodeRec.tiles r ≤ (s.anvil a).freeTiles) (ht : s.dispatchNode d n r i cl quad = t) :
    t.node n = some { nd with stage := .running, cluster := some cl, anvil := some a } ∧ (∀ x, x ≠ n → t.node x = s.node x) ∧
      (∀ k : Fin 4, n ∉ (t.die d).ready[k]) ∧
      (t.anvil a).tiles.toList.count (.reserved n) = (s.anvil a).tiles.toList.count (.reserved n) + NodeRec.tiles r ∧
      (t.cluster cl).queue = (s.cluster cl).queue ++ [s.fresh + 1] ∧
      t.strand (s.fresh + 1) =
        some (rootRecord n nd r i.args (Maps.getD s.images (NodeRec.image r).toNat []) (2 * s.fresh) cl) ∧
      Maps.get t.trackers (2 * s.fresh) = some { Tracker.zero with cl := cl } := by
  rw [State.dispatchNode_eq hn ha] at ht
  generalize hu : ((s.rouse d).unready d n).setNode n { nd with stage := .running, cluster := some cl, anvil := some a } = u at ht
  have hnode : u.node n = some { nd with stage := .running, cluster := some cl, anvil := some a } := by
    rw [← hu, State.node_setNode_same]
  have hother : ∀ x, x ≠ n → u.node x = s.node x := fun x hx => by
    rw [← hu, State.node_setNode_other _ _ hx, State.node_unready, State.node_rouse]
  have hready : ∀ k : Fin 4, n ∉ (u.die d).ready[k] := fun k => by
    rw [← hu, State.die_setNode]
    exact State.unready_ready _ d n k
  have hanvil : u.anvil a = s.anvil a := by rw [← hu, State.anvil_setNode, State.anvil_unready, State.anvil_rouse]
  have hcl : u.cluster cl = s.cluster cl := by rw [← hu, State.cluster_setNode, State.cluster_unready, State.cluster_rouse]
  have hfresh : u.fresh = s.fresh := by rw [← hu, State.setNode_fresh, State.fresh_unready, State.fresh_rouse]
  rw [← hfresh, ← hcl, ← hanvil]
  have hf := (u.rootQueued n nd r i.args (Maps.getD s.images (NodeRec.image r).toNat []) cl a).prefInputs_fetched r i.args cl
  rw [ht] at hf
  refine ⟨?_, fun x hx => ?_, fun k => ?_, ?_, ?_, ?_, ?_⟩
  · rw [hf.node, State.node_rootQueued, hnode]
  · rw [hf.node, State.node_rootQueued, hother x hx]
  · rw [hf.ready, State.die_rootQueued]
    exact hready k
  · rw [hf.anvil, State.anvil_rootQueued]
    exact count_reserveTiles _ _ _ (by rw [← Anvil.freeTiles_eq, hanvil]; exact htiles)
  · rw [hf.queue, State.queue_rootQueued]
  · rw [hf.strand, State.strand_rootQueued]
  · rw [hf.trackers, State.tracker_rootQueued]

end Sys2Proof.Machine
end

section
/-!
PROOF. How a node retires (R355 to R358) and how SPAWN is served (R280).
-/
namespace Sys2Proof.Machine

/-! ### The DONE seal that found no room (R255, R356) -/

theorem State.sendOp_node (s : State) (kind : OpKind) (h : Word) (p : Place) (u : Nat) (a : Asker) (t : Nat) (b : BitVec 2) (ord : Nat)
    (node n : BitVec 32) : (s.sendOp kind h p u a t b ord node).node n = s.node n := by
  obtain ⟨us, sq, fr, nt, out, l, k, np, el, eh, hf⟩ := s.sendOp_frame kind h p u a t b ord node
  rw [hf]
  rfl

/-- With a place and room the seal is sent. -/
theorem State.retire_seals {s : State} {n : BitVec 32} {nd : Node} {r : NodeRec} {i : Instance} {p : Place} (hr : s.nodeRec nd = some (r, i))
    (hd : NodeRec.done r ≠ 0) (hp : s.placeOf (RangeDesc.handle (NodeRec.done r) i.args 0) permW = some p)
    (hroom : s.roomFor (unitBelfry nd.owner) (homeOf p) 1 = true) : s.retire n nd =
      ((s.freeReservations [n]).setNode n { nd with stage := .doneSeal }).sendOp (.seal (NodeRec.stream r))
        (RangeDesc.handle (NodeRec.done r) i.args 0) p (unitBelfry nd.owner) (.belfryDone n) 0 0#2 0 n := by
  have hr' : (s.freeReservations [n]).nodeRec nd = some (r, i) := hr
  have hp' : (s.freeReservations [n]).placeOf (RangeDesc.handle (NodeRec.done r) i.args 0) permW = some p := hp
  simp only [State.retire, hr', if_neg hd, hp']
  exact if_pos hroom

theorem State.examined_nil (s : State) {d : Die} (h : ∀ k : Fin 4, d.ready[k] = []) (p : Nat) (hp : p ≤ 4) : s.examined d p = [] := by
  induction p with
  | zero => rfl
  | succ p ih =>
    have hq : d.ready[p]?.getD [] = [] := by
      rw [Vector.getElem?_eq_getElem (by omega)]
      exact h ⟨p, hp⟩
    simp only [State.examined, hq, List.take_nil, List.find?_nil, List.nil_append]
    exact ih (by omega)

/-- A round of a die with no ready node only sends what is due. -/
theorem execBelfryDispatchRound_pumps {s t : State} {d : BitVec 3} (quad : BitVec 2) (ha : (s.die d).alive = true) (ht : s.pumpBelfry d = t)
    (hready : ∀ k : Fin 4, (t.die d).ready[k] = []) : execBelfryDispatchRound d quad s = .next t := by
  simp only [execBelfryDispatchRound, ha, ht, t.examined_nil hready 4 (Nat.le_refl _), Bool.not_true, Bool.false_eq_true, if_false]
  rfl

/-- The only node has its seal due: the pump lets it retire. -/
theorem State.pumpBelfry_seals {s : State} {d : BitVec 3} {n : BitVec 32} {nd : Node} (hs : s.starting = none) (hn : s.nodes = [(n.toNat, nd)])
    (ho : nd.owner = d) (hst : nd.stage = .sealDue) : s.pumpBelfry d = s.retire n nd := by
  have hk : BitVec.ofNat 32 n.toNat = n := by simp
  simp only [State.pumpBelfry, hs, hn, List.foldl_cons, List.foldl_nil, ho, if_true, State.sendDue, hst, hk]

/-! ### Last-use discards (R356, R358) -/

theorem State.nextDiscard_sends {s : State} {n : BitVec 32} {nd : Node} {h : Word} {l : List Word} {p : Place}
    (hp : s.placeOf h permW = some p) (hr : s.roomFor (unitBelfry nd.owner) (homeOf p) 1 = true) : s.nextDiscard n nd (h :: l) =
      (s.setNode n { nd with stage := .discards (h :: l).length }).sendOp .discard h p (unitBelfry nd.owner) (.belfryLu n) 0 0#2 0 n := by
  simp only [State.nextDiscard, hp, hr, if_true, List.length_cons]

theorem State.nextDiscard_waits {s : State} {n : BitVec 32} {nd : Node} {h : Word} {l : List Word} {p : Place}
    (hp : s.placeOf h permW = some p) (hr : s.roomFor (unitBelfry nd.owner) (homeOf p) 1 = false) :
    s.nextDiscard n nd (h :: l) = s.setNode n { nd with stage := .discardDue (h :: l).length } := by
  simp only [State.nextDiscard, hp, hr, Bool.false_eq_true, if_false, List.length_cons]

/-- The graph is not complete while it has other node instances or spawned instances. -/
theorem State.checkComplete_runs {s : State} {n : BitVec 32} {i : Instance} (hi : s.inst n = some i) (h : i.nodes ≠ [] ∨ i.spawned ≠ 0)
    (fuel : Nat) : s.checkComplete fuel n = s := by
  have hc : ¬(i.nodes.isEmpty && decide (i.spawned = 0)) = true := by
    rw [Bool.and_eq_true, List.isEmpty_iff, decide_eq_true_eq]
    exact fun ⟨h1, h2⟩ => h.elim (· h1) (· h2)
  unfold State.checkComplete
  simp only [hi]
  rw [if_neg hc]

theorem State.inst_of_nodeRec {s : State} {nd : Node} {r : NodeRec} {i : Instance} (h : s.nodeRec nd = some (r, i)) :
    s.inst nd.inst = some i := by
  unfold State.nodeRec at h
  split at h
  · exact nomatch h
  · next j hj =>
    split at h
    · exact nomatch h
    · obtain ⟨x, -, he⟩ := Option.map_eq_some_iff.1 h
      rw [hj, (Prod.mk.inj he).2]

/-- The number of the node is freed, and its graph runs on. -/
theorem State.retired_runs {s : State} {n : BitVec 32} {nd : Node} {i : Instance} (hw : Maps.wf s.nodes = true) (hi : s.inst nd.inst = some i)
    (h : i.nodes.filter (· != n) ≠ [] ∨ i.spawned ≠ 0) : (s.retired n nd).node n = none ∧
      (s.retired n nd).inst nd.inst = some { i with nodes := i.nodes.filter (· != n) } ∧ (s.retired n nd).strands = s.strands := by
  have hi' : State.inst { s with nodes := Maps.del s.nodes n.toNat } nd.inst = some i := hi
  have he : s.retired n nd = { s with nodes := Maps.del s.nodes n.toNat }.setInst nd.inst { i with nodes := i.nodes.filter (· != n) } := by
    simp only [State.retired, hi']
    exact State.checkComplete_runs (State.inst_setInst_same ..) h _
  rw [he]
  exact ⟨Maps.get_del_same _ _ hw, State.inst_setInst_same .., rfl⟩

/-- Event `ev` in state `s` sends the first of the discards `l` from `u` where state `b` has room at its home, else leaves it due; with no
discard left the node is gone and its graph runs on (R356, step 3). -/
def State.discardsGo (s b : State) (n : BitVec 32) (nd : Node) (i : Instance) (ev : Instr) (u : State) (l : List Word) : Prop :=
  (∀ h l' p, l = h :: l' → s.placeOf h 2 = some p →
    (b.roomFor (unitBelfry nd.owner) (homeOf p) 1 = true → exec ev s = .next ((u.setNode n { nd with stage := .discards l.length }).sendOp
      .discard h p (unitBelfry nd.owner) (.belfryLu n) 0 0 0 n)) ∧
    (b.roomFor (unitBelfry nd.owner) (homeOf p) 1 = false → exec ev s = .next (u.setNode n { nd with stage := .discardDue l.length }))) ∧
  (l = [] → (i.nodes.filter (· != n) ≠ [] ∨ i.spawned ≠ 0) → ∃ t, exec ev s = .next t ∧ t.node n = none ∧
    t.inst nd.inst = some { i with nodes := i.nodes.filter (· != n) } ∧ t.strands = s.strands)

/-- An event that makes the next discard does so: `u` differs from `s` in messages and logs alone. -/
theorem State.discardsGo_of_next {s b u : State} {n : BitVec 32} {nd : Node} {i : Instance} {ev : Instr} {l : List Word}
    (hx : exec ev s = .next (u.nextDiscard n nd l)) (hp : u.placeOf = s.placeOf) (hunits : u.units = b.units) (hn : u.nodes = s.nodes)
    (hs : u.strands = s.strands) (hw : Maps.wf s.nodes = true) (hi : u.inst nd.inst = some i) : s.discardsGo b n nd i ev u l := by
  rw [State.discardsGo, hx]
  refine ⟨fun h l' p hl hpl => ?_, fun hl hrun => ⟨_, rfl, ?_⟩⟩
  · subst hl
    have hpl' : u.placeOf h permW = some p := by rw [hp]; exact hpl
    have hr : ∀ home, b.roomFor (unitBelfry nd.owner) home 1 = u.roomFor (unitBelfry nd.owner) home 1 := fun home => by
      rw [State.roomFor, State.roomFor, State.unackedAt, State.unackedAt, hunits]
    rw [hr]
    exact ⟨fun hroom => congrArg _ (State.nextDiscard_sends hpl' hroom), fun hroom => congrArg _ (State.nextDiscard_waits hpl' hroom)⟩
  · subst hl
    rw [← hs]
    exact State.retired_runs (hn ▸ hw) hi hrun

/-- The cause of a seal's report in which STALE, POISON or XLATE stands and nothing comes before (R314, R357). -/
theorem causeOf_seal {bits : BitVec 16} (hb : bits &&& 0x1A ≠ 0) (h0 : bits.getLsbD 0 = false) (h2 : bits.getLsbD 2 = false) :
    (causeOf bits).zeroExtend 8 = if bits.getLsbD 1 then (8 : BitVec 8) else if bits.getLsbD 3 then 17 else 18 := by
  rw [causeOf, h0, h2]
  cases h1 : bits.getLsbD 1 with
  | true => rfl
  | false =>
    cases h3 : bits.getLsbD 3 with
    | true => rfl
    | false =>
      have h4 : bits.getLsbD 4 = true := by
        by_contra h4
        have hclear : bits[1] = false ∧ bits[3] = false ∧ bits[4] = false := ⟨h1, h3, Bool.eq_false_of_not_eq_true h4⟩
        refine hb (BitVec.eq_of_getLsbD_eq fun i hi => ?_)
        interval_cases i <;> simp [hclear]
      rw [h4]
      rfl

section
variable {s : State} {m : Nat} {o : Op} {n : BitVec 32} {nd : Node} {r : NodeRec} {i : Instance}
variable (hn : s.node n = some nd) (hr : s.nodeRec nd = some (r, i))
include hn hr

/-- A DONE seal that took effect, or was counted (R357): the discards follow. -/
theorem execDoneSealOutcome_discards {bits : BitVec 16} {cause : BitVec 5} (hm : Maps.get s.net m = some (.reply o (.report bits cause)))
    (ho : o.asker = .belfryDone n) (hst : nd.stage = .doneSeal) (hb : bits &&& 0x1A = 0) :
    execDoneSealOutcome m s = .next (((s.take m).unack o.unit o.seq).nextDiscard n nd (NodeRec.lastUses r i.args)) := by
  have hn' : ((s.take m).unack o.unit o.seq).node n = some nd := hn
  have hr' : ((s.take m).unack o.unit o.seq).nodeRec nd = some (r, i) := hr
  have hb' : (bits &&& (bStale ||| bPoison ||| bXlate) != 0) = false := bne_eq_false_iff_eq.2 hb
  simp only [execDoneSealOutcome, hm, ho, hn', hst, if_true, hb', Bool.false_eq_true, if_false, hr']

omit hr in
/-- One that is STALE, POISON or XLATE ends the graph (R357). -/
theorem execDoneSealOutcome_ends {bits : BitVec 16} {cause : BitVec 5} (hm : Maps.get s.net m = some (.reply o (.report bits cause)))
    (ho : o.asker = .belfryDone n) (hst : nd.stage = .doneSeal) (hb : bits &&& 0x1A ≠ 0)
    (h0 : bits.getLsbD 0 = false) (h2 : bits.getLsbD 2 = false) :
    execDoneSealOutcome m s = .next (((s.take m).unack o.unit o.seq).endInstance nd.inst {
      idx := BitVec.ofNat 16 nd.idx, node := n, cause := if bits.getLsbD 1 then 8 else if bits.getLsbD 3 then 17 else 18, tpc := 0
      tval := o.h }) := by
  have hn' : ((s.take m).unack o.unit o.seq).node n = some nd := hn
  have hb' : (bits &&& (bStale ||| bPoison ||| bXlate) != 0) = true := bne_iff_ne.2 hb
  simp only [execDoneSealOutcome, hm, ho, hn', hst, if_true, hb', State.retireFault, causeOf_seal hb h0 h2]

end

/-- A discard that was refused is in the event log (R358). -/
def State.refusalLogged (b : State) (code : BitVec 4) (nd : Node) (n : BitVec 32) (h : Word) : State :=
  if code = 1 ∨ code = 3 then
    b.logEvent 3 (BitVec.ofNat 8 code.toNat) (BitVec.ofNat 16 nd.idx) nd.inst h n 0 b.hearthCycle
  else b

/-- The log changes nothing but itself. -/
theorem State.refusalLogged_frame (b : State) (code : BitVec 4) (nd : Node) (n : BitVec 32) (h : Word) :
    ∃ l k, b.refusalLogged code nd n h = { b with evtLog := l, evtHead := k } := by
  unfold State.refusalLogged
  split
  · exact ⟨_, _, rfl⟩
  · exact ⟨b.evtLog, b.evtHead, rfl⟩

/-- LU_DISCARD_STATUS: a refusal is logged and the next discard follows (R358). -/
theorem execLuDiscardStatus_discards {s : State} {m : Nat} {o : Op} {n : BitVec 32} {nd : Node} {r : NodeRec} {i : Instance}
    {code : BitVec 4} {ticket : BitVec 16} {left : Nat} (hn : s.node n = some nd) (hr : s.nodeRec nd = some (r, i))
    (hm : Maps.get s.net m = some (.reply o (.status code ticket))) (ho : o.asker = .belfryLu n) (hst : nd.stage = .discards left) :
    execLuDiscardStatus m s = .next ((((s.take m).unack o.unit o.seq).refusalLogged code nd n o.h).nextDiscard n nd
      ((NodeRec.lastUses r i.args).drop ((NodeRec.lastUses r i.args).length + 1 - left))) := by
  have hn' : ((s.take m).unack o.unit o.seq).node n = some nd := hn
  have hlog : (if (decide (code = 1) || decide (code = 3)) = true then
      ((s.take m).unack o.unit o.seq).logEvent 3 (code.zeroExtend 8) (BitVec.ofNat 16 nd.idx) nd.inst o.h n 0
        ((s.take m).unack o.unit o.seq).hearthCycle else (s.take m).unack o.unit o.seq) =
      ((s.take m).unack o.unit o.seq).refusalLogged code nd n o.h := by
    have hcode : code.zeroExtend 8 = BitVec.ofNat 8 code.toNat := (BitVec.ofNat_toNat ..).symm
    rw [hcode]
    simp only [Bool.or_eq_true, decide_eq_true_eq, State.refusalLogged]
  have hr' : (((s.take m).unack o.unit o.seq).refusalLogged code nd n o.h).nodeRec nd = some (r, i) := by
    obtain ⟨l, k, h⟩ := ((s.take m).unack o.unit o.seq).refusalLogged_frame code nd n o.h
    rw [h]
    exact hr
  simp only [execLuDiscardStatus, hm, ho, hn', hlog, hst, hr']

/-- The discards go on from the state with the refusal logged. -/
theorem execLuDiscardStatus_goes {s : State} {m : Nat} {o : Op} {n : BitVec 32} {nd : Node} {r : NodeRec} {i : Instance}
    {code : BitVec 4} {ticket : BitVec 16} {left : Nat} (hn : s.node n = some nd) (hr : s.nodeRec nd = some (r, i))
    (hw : Maps.wf s.nodes = true) (hm : Maps.get s.net m = some (.reply o (.status code ticket))) (ho : o.asker = .belfryLu n)
    (hst : nd.stage = .discards left) :
    s.discardsGo ((s.take m).unack o.unit o.seq) n nd i (.luDiscardStatus m) (((s.take m).unack o.unit o.seq).refusalLogged code nd n o.h)
      ((NodeRec.lastUses r i.args).drop ((NodeRec.lastUses r i.args).length + 1 - left)) := by
  have hx := execLuDiscardStatus_discards hn hr hm ho hst
  have hb : ((s.take m).unack o.unit o.seq).placeOf = s.placeOf := rfl
  have hi : ((s.take m).unack o.unit o.seq).inst nd.inst = some i := State.inst_of_nodeRec hr
  refine State.discardsGo_of_next hx ?_ ?_ ?_ ?_ hw ?_
  all_goals
    obtain ⟨l, k, h⟩ := ((s.take m).unack o.unit o.seq).refusalLogged_frame code nd n o.h
    rw [h]
  · exact hb
  · rfl
  · rfl
  · exact hi

/-! ### SPAWN (R280) -/

theorem State.inst_of_ownInstance {s : State} {r : Nat} {pn : BitVec 32} {p : Instance} (h : s.ownInstance r = some (pn, p)) :
    s.inst pn = some p := by
  unfold State.ownInstance at h
  split at h
  · exact nomatch h
  · split at h
    · exact nomatch h
    · obtain ⟨i, hi, he⟩ := Option.map_eq_some_iff.1 h
      obtain ⟨rfl, rfl⟩ := he
      exact hi

/-- gD of a refused SPAWN: its status under bit 63. -/
theorem spawnRefused_eq {st : Nat} (h : st < 16) : spawnRefused st = BitVec.ofNat 64 (2 ^ 63 + 2 ^ 32 * st) := by
  refine BitVec.eq_of_toNat_eq ?_
  rw [spawnRefused, toNat_append_add, toNat_append_add, toNat_append_add]
  simp only [BitVec.toNat_ofNat]
  omega

section
variable {s : State} {r : Nat} {graph : BitVec 16} {l : List Word} {q : List KeepReq} {number : BitVec 32} {nodes : List (BitVec 32)}
variable (hs : s.starting = none) (hw : s.keepWait = none) (hq : s.keepq = .spawn r graph l :: q)
include hs hw hq

/-- A SPAWN is served as a RUN of the parent's root. -/
theorem execSpawnService_runs {pn : BitVec 32} {p : Instance} {g : Graph}
    (hst : s.runStatus false graph.toNat (Vector.ofFn fun k : Fin 8 => l.getD k.val nullHandle) = 0)
    (hg : Maps.get s.graphs graph.toNat = some g) (hf : s.numbersFree number nodes g.nodes.length = true) (hp : s.ownInstance r = some (pn, p)) :
    execSpawnService number nodes s = .next (State.startInstance
      ({ s with keepq := q }.setInst pn { p with spawned := p.spawned + 1 })
      { inst := number, left := 0, session := 0, seq := 0, strand := some r }
      { graph := graph, args := Vector.ofFn fun k : Fin 8 => l.getD k.val nullHandle, cookie := p.cookie, session := p.session, root := p.root
        parent := pn, slice := 0, started := s.tick, nodes := nodes, spawned := 0, quenched := false } g) := by
  have hst' : State.runStatus { s with keepq := q } false graph.toNat (Vector.ofFn fun k : Fin 8 => l.getD k.val nullHandle) = 0 := hst
  have hf' : State.numbersFree { s with keepq := q } number nodes g.nodes.length = true := hf
  have hp' : State.ownInstance { s with keepq := q } r = some (pn, p) := hp
  have hi' : State.inst { s with keepq := q } pn = some p := State.inst_of_ownInstance hp
  simp only [execSpawnService, State.keepNext_of_free hs hw, hq, hst', hg, hf', hp', ne_eq, not_true_eq_false, if_false, if_true,
    Option.elim_some, hi']

/-- A refused SPAWN answers at once. -/
theorem execSpawnService_refuses {st : Strand} {f : Form} {rd ra rb : BitVec 4} {c : Nat}
    (hc : s.runStatus false graph.toNat (Vector.ofFn fun k : Fin 8 => l.getD k.val nullHandle) = c) (h0 : c ≠ 0) (h16 : c < 16)
    (hr : s.strand r = some st) (hin : st.inSlot = true) (hwait : st.wait = .keep (.spawn f rd ra rb)) :
    execSpawnService number nodes s = .next ({ s with keepq := q }.setStrand r { st with
      regs := st.regs.set rd.toNat (BitVec.ofNat 64 (2 ^ 63 + 2 ^ 32 * c)) rd.isLt, pc := st.pc + BitVec.ofNat 32 f.len, wait := .run }) := by
  have hc' : State.runStatus { s with keepq := q } false graph.toNat (Vector.ofFn fun k : Fin 8 => l.getD k.val nullHandle) = c := hc
  have hr' : State.strand { s with keepq := q } r = some st := hr
  simp only [execSpawnService, State.keepNext_of_free hs hw, hq, hc', ne_eq, h0, not_false_eq_true, if_true]
  rw [State.refuseSpawn, State.updStrand_some _ _ _ _ hr']
  simp only [hwait, spawnRefused_eq h16]
  rw [State.toHeld, State.strand_setStrand_same]
  exact congrArg _ (if_pos hin)

end

end Sys2Proof.Machine
end

section
/-!
PROOF. O51: node instances ready, dispatched, handed over, spawned and retired, assembled from the lemmas on each event.
-/
namespace Sys2Proof.Machine

/-- Settles O51: each event is one equation of the model, and fetching inputs leaves all that the statement names. -/
theorem nodeInstancesAdvance : Obligations.NodeInstancesAdvance := by
  unfold Obligations.NodeInstancesAdvance
  intro s
  refine ⟨?wake, ?round, ?due, ?handover, ?spawn, ?retire⟩
  case wake =>
    intro m d n nd hm hn hw
    refine ⟨execWatcherWake_more hm hn hw, fun h => ?_, fun r i h hr => ⟨_, execWatcherWake_last hm hn hw h, ?_⟩⟩
    · obtain ⟨t, ht, hf⟩ := execWatcherWake_fetches hm hn hw h
      refine ⟨t, ht, ?_, hf.strands.trans (s.strands_fired ..)⟩
      rw [hf.node, State.fired, State.node_setNode_same, h]
    · exact State.fired_ready m d n h hr
  case round =>
    intro d quad passed rest n nd r i cl ha hs hidle hl hp hc hn hnodup
    have hnp : n ∉ passed := fun h => nomatch (hp n h).symm.trans hc
    obtain ⟨hr, hcan⟩ := State.choice_some hn hc
    obtain ⟨a, hq, hacl, htiles⟩ := State.quadFor_of_canTake hcan quad
    have hn1 : (s.skippedAll passed).node n = some nd := (s.node_skippedAll_other hnp).trans hn
    have hx := execBelfryDispatchRound_dispatches quad ha (State.pumpBelfry_idle hs hidle) hl hp hc
    obtain ⟨ns, hns⟩ := s.skippedAll_frame passed
    have hanvil : (s.skippedAll passed).anvil a = s.anvil a := by rw [hns]; rfl
    obtain ⟨hnode, hother, hready, hcount, hqueue, hstrand, htracker⟩ :=
      State.dispatchNode_spec hn1 ((s.quadFor_skippedAll ..).trans hq) (hanvil ▸ htiles) rfl
    have hfresh : (s.skippedAll passed).fresh = s.fresh := by rw [hns]
    have hqs : ((s.skippedAll passed).cluster cl).queue = (s.cluster cl).queue := by rw [hns]; rfl
    have himages : (s.skippedAll passed).images = s.images := by rw [hns]
    rw [hanvil] at hcount
    rw [hqs, hfresh] at hqueue
    rw [hfresh, himages] at hstrand
    rw [hfresh] at htracker
    refine ⟨_, a, _, hx, hacl, hnode, fun x hxp => ?_, hready, hcount, hqueue, hstrand, rootRecord_node .., rootRecord_inst ..,
      fun k => rootRecord_zeros .., fun k => rootRecord_handles .., rfl, rfl, rfl, rfl, rfl, rfl, rfl, rootRecord_anch .., htracker⟩
    rw [hother x (ne_of_mem_of_not_mem hxp hnp), s.node_skippedAll_mem hxp hnodup, Option.map_map]
    rfl
  case due =>
    intro d quad n nd r i p ha hs hn ho hst hr hd hp hroom hready
    have hpump := (State.pumpBelfry_seals hs hn ho hst).trans (State.retire_seals hr hd hp (ho ▸ hroom))
    obtain ⟨hway, -, -, -, -, -, -, -, -, -, hdies⟩ := State.sendOp_spec ((s.freeReservations [n]).setNode n { nd with stage := .doneSeal })
      (.seal (NodeRec.stream r)) (RangeDesc.handle (NodeRec.done r) i.args 0) p (unitBelfry nd.owner) (.belfryDone n) 0 0#2 0 n
    refine ⟨_, _, _, execBelfryDispatchRound_pumps quad ha hpump fun k => ?_, ?_, hway, rfl, rfl, rfl, congrArg unitBelfry ho, rfl⟩
    · rw [State.die, hdies]
      exact hready k
    · rw [State.sendOp_node]
      exact State.node_setNode_same ..
  case handover =>
    intro d dest n nd r i hn ho hst hne ha hc hc' hr
    exact ⟨_, execBelfryHandover_moves hn ho hst hne ha hc hc', State.handedOver_spec n hne hst hr rfl⟩
  case spawn =>
    intro r graph l q number nodes hs hw hq s1 args
    exact ⟨fun pn p g hst hg hf hp => execSpawnService_runs hs hw hq hst hg hf hp,
      fun st f rd ra rb h0 h16 hr hin hwait => execSpawnService_refuses hs hw hq rfl h0 h16 hr hin hwait⟩
  case retire =>
    intro m o n nd r i hn hr hwf base hs goes
    have hi : s.inst nd.inst = some i := State.inst_of_nodeRec hr
    refine ⟨fun bits cause hm ho hst => ⟨fun hb => ?_, fun hb h0 h2 => ?_⟩, fun code ticket left hm ho hst _ _ => ?_⟩
    · exact State.discardsGo_of_next (execDoneSealOutcome_discards hn hr hm ho hst hb) rfl rfl rfl rfl hwf hi
    · exact execDoneSealOutcome_ends hn hm ho hst hb h0 h2
    · exact execLuDiscardStatus_goes hn hr hwf hm ho hst

end Sys2Proof.Machine
end

section
/-!
PROOF. The fields of the encoded words read back one by one (R75 to R78), and the form, the guard and the operands of an instruction
from its words.
-/
namespace Sys2Proof

/-! ### Fields of appended bit vectors -/

/-- A field of the high part stands higher by the width of the low part. -/
theorem field_high {a b lo n : Nat} {x : BitVec a} {y : BitVec b} {v : BitVec n} (h : x.extractLsb' lo n = v) :
    (x ++ y).extractLsb' (lo + b) n = v := by
  rw [BitVec.extractLsb'_append_eq_of_le (by omega), Nat.add_sub_cancel, h]
theorem field_last {a b : Nat} {x : BitVec a} {y : BitVec b} : (x ++ y).extractLsb' 0 b = y := BitVec.extractLsb'_append_eq_right
theorem field_first {a : Nat} {x : BitVec a} : x.extractLsb' 0 a = x := BitVec.extractLsb'_eq_self

/-- A field within a field. -/
theorem field_part {w lo n : Nat} {x : BitVec w} {v : BitVec n} (h : x.extractLsb' lo n = v) (i m : Nat) (hi : i + m ≤ n) :
    x.extractLsb' (lo + i) m = v.extractLsb' i m := by
  rw [← h]
  ext k hk
  simp [show i + k < n by omega, Nat.add_assoc]
/-- A bit of a field. -/
theorem getLsbD_field {w lo n : Nat} {x : BitVec w} {v : BitVec n} (h : x.extractLsb' lo n = v) (i : Nat) (hi : i < n) :
    x.getLsbD (lo + i) = v.getLsbD i := by
  rw [← h, BitVec.getLsbD_extractLsb', decide_eq_true hi, Bool.true_and]
/-- A flag of one bit. -/
theorem getLsbD_flag {w lo : Nat} {x : BitVec w} {c : Bool} (h : x.extractLsb' lo 1 = BitVec.ofBool c) : x.getLsbD lo = c :=
  (getLsbD_field h 0 Nat.one_pos).trans (BitVec.getLsbD_ofBool ..)

/-! ### Word 0 (R75) -/

theorem fld_word0_len (len : BitVec 2) (maj : BitVec 6) (b : BitVec 24) : fld (Enc.word0 len maj b) 30 2 = len :=
  field_high (field_high field_first)
theorem fld_word0_maj (len : BitVec 2) (maj : BitVec 6) (b : BitVec 24) : fld (Enc.word0 len maj b) 24 6 = maj :=
  field_high field_last
theorem fld_word0_low (len : BitVec 2) (maj : BitVec 6) (b : BitVec 24) (lo n : Nat) (h : lo + n ≤ 24) :
    fld (Enc.word0 len maj b) lo n = b.extractLsb' lo n :=
  BitVec.extractLsb'_append_eq_of_add_le h

/-! ### The formats of R75 -/

theorem Enc.rr_fields (rd ra rb : BitVec 4) (fn : BitVec 12) :
    (Enc.rr rd ra rb fn).extractLsb' 20 4 = rd ∧ (Enc.rr rd ra rb fn).extractLsb' 16 4 = ra ∧
    (Enc.rr rd ra rb fn).extractLsb' 12 4 = rb ∧ (Enc.rr rd ra rb fn).extractLsb' 0 12 = fn :=
  ⟨field_high (field_high (field_high field_first)), field_high (field_high field_last), field_high field_last, field_last⟩
theorem Enc.ru_fields (rd ra : BitVec 4) (op param : BitVec 6) :
    (Enc.ru rd ra op param).extractLsb' 20 4 = rd ∧ (Enc.ru rd ra op param).extractLsb' 16 4 = ra ∧
    (Enc.ru rd ra op param).extractLsb' 6 6 = op ∧ (Enc.ru rd ra op param).extractLsb' 0 6 = param :=
  ⟨field_high (field_high (field_high (field_high field_first))), field_high (field_high (field_high field_last)),
    field_high field_last, field_last⟩
theorem Enc.i12_fields (rd ra : BitVec 4) (imm : BitVec 12) (fn : BitVec 4) :
    (Enc.i12 rd ra imm fn).extractLsb' 20 4 = rd ∧ (Enc.i12 rd ra imm fn).extractLsb' 16 4 = ra ∧
    (Enc.i12 rd ra imm fn).extractLsb' 4 12 = imm ∧ (Enc.i12 rd ra imm fn).extractLsb' 0 4 = fn :=
  ⟨field_high (field_high (field_high field_first)), field_high (field_high field_last), field_high field_last, field_last⟩
theorem Enc.bf_fields (rd ra : BitVec 4) (pos len1 : BitVec 6) (fn : BitVec 4) :
    (Enc.bf rd ra pos len1 fn).extractLsb' 20 4 = rd ∧ (Enc.bf rd ra pos len1 fn).extractLsb' 16 4 = ra ∧
    (Enc.bf rd ra pos len1 fn).extractLsb' 10 6 = pos ∧ (Enc.bf rd ra pos len1 fn).extractLsb' 4 6 = len1 ∧
    (Enc.bf rd ra pos len1 fn).extractLsb' 0 4 = fn :=
  ⟨field_high (field_high (field_high (field_high field_first))), field_high (field_high (field_high field_last)),
    field_high (field_high field_last), field_high field_last, field_last⟩
theorem Enc.cr_fields (rd ra rb : BitVec 4) (fn bit : BitVec 6) :
    (Enc.cr rd ra rb fn bit).extractLsb' 20 4 = rd ∧ (Enc.cr rd ra rb fn bit).extractLsb' 16 4 = ra ∧
    (Enc.cr rd ra rb fn bit).extractLsb' 12 4 = rb ∧ (Enc.cr rd ra rb fn bit).extractLsb' 6 6 = fn ∧
    (Enc.cr rd ra rb fn bit).extractLsb' 0 6 = bit :=
  ⟨field_high (field_high (field_high (field_high field_first))), field_high (field_high (field_high field_last)),
    field_high (field_high field_last), field_high field_last, field_last⟩
theorem Enc.ci_fields (rd ra : BitVec 4) (imm : BitVec 8) (fn : BitVec 2) (bit : BitVec 6) :
    (Enc.ci rd ra imm fn bit).extractLsb' 20 4 = rd ∧ (Enc.ci rd ra imm fn bit).extractLsb' 16 4 = ra ∧
    (Enc.ci rd ra imm fn bit).extractLsb' 8 8 = imm ∧ (Enc.ci rd ra imm fn bit).extractLsb' 6 2 = fn ∧
    (Enc.ci rd ra imm fn bit).extractLsb' 0 6 = bit :=
  ⟨field_high (field_high (field_high (field_high field_first))), field_high (field_high (field_high field_last)),
    field_high (field_high field_last), field_high field_last, field_last⟩
theorem Enc.ls_fields (rd ra : BitVec 4) (imm : BitVec 12) (op sz : BitVec 2) :
    (Enc.ls rd ra imm op sz).extractLsb' 20 4 = rd ∧ (Enc.ls rd ra imm op sz).extractLsb' 16 4 = ra ∧
    (Enc.ls rd ra imm op sz).extractLsb' 4 12 = imm ∧ (Enc.ls rd ra imm op sz).extractLsb' 2 2 = op ∧
    (Enc.ls rd ra imm op sz).extractLsb' 0 2 = sz :=
  ⟨field_high (field_high (field_high (field_high field_first))), field_high (field_high (field_high field_last)),
    field_high (field_high field_last), field_high field_last, field_last⟩
theorem Enc.sy_fields (rd ra rb fn : BitVec 4) (param : BitVec 8) :
    (Enc.sy rd ra rb fn param).extractLsb' 20 4 = rd ∧ (Enc.sy rd ra rb fn param).extractLsb' 16 4 = ra ∧
    (Enc.sy rd ra rb fn param).extractLsb' 12 4 = rb ∧ (Enc.sy rd ra rb fn param).extractLsb' 8 4 = fn ∧
    (Enc.sy rd ra rb fn param).extractLsb' 0 8 = param :=
  ⟨field_high (field_high (field_high (field_high field_first))), field_high (field_high (field_high field_last)),
    field_high (field_high field_last), field_high field_last, field_last⟩
theorem Enc.wr_fields (wd wa wb fn : BitVec 6) :
    (Enc.wr wd wa wb fn).extractLsb' 18 6 = wd ∧ (Enc.wr wd wa wb fn).extractLsb' 12 6 = wa ∧ (Enc.wr wd wa wb fn).extractLsb' 6 6 = wb ∧
    (Enc.wr wd wa wb fn).extractLsb' 0 6 = fn :=
  ⟨field_high (field_high (field_high field_first)), field_high (field_high field_last), field_high field_last, field_last⟩
theorem Enc.wm_fields (wx : BitVec 6) (ga : BitVec 4) (wy : BitVec 6) (fn : BitVec 2) :
    (Enc.wm wx ga wy fn).extractLsb' 18 6 = wx ∧ (Enc.wm wx ga wy fn).extractLsb' 14 4 = ga ∧ (Enc.wm wx ga wy fn).extractLsb' 8 6 = wy ∧
    (Enc.wm wx ga wy fn).extractLsb' 0 2 = fn :=
  ⟨field_high (field_high (field_high (field_high field_first))), field_high (field_high (field_high field_last)),
    field_high (field_high field_last), field_last⟩
theorem Enc.wl_fields (wd : BitVec 6) (ga : BitVec 4) (imm : BitVec 12) (fn : BitVec 2) :
    (Enc.wl wd ga imm fn).extractLsb' 18 6 = wd ∧ (Enc.wl wd ga imm fn).extractLsb' 14 4 = ga ∧
    (Enc.wl wd ga imm fn).extractLsb' 2 12 = imm ∧ (Enc.wl wd ga imm fn).extractLsb' 0 2 = fn :=
  ⟨field_high (field_high (field_high field_first)), field_high (field_high field_last), field_high field_last, field_last⟩
theorem zeroExtend_field {n m : Nat} (x : BitVec n) (h : n ≤ m) : (x.zeroExtend m).extractLsb' 0 n = x := by
  ext i hi
  simp [hi, Nat.lt_of_lt_of_le hi h]
/-- A shift count stands in the low half of the immediate of I12. -/
theorem Enc.i12_shift (rd ra : BitVec 4) (n : BitVec 6) (fn : BitVec 4) :
    (Enc.i12 rd ra (n.zeroExtend 12) fn).extractLsb' 4 6 = n :=
  (field_part (Enc.i12_fields rd ra (n.zeroExtend 12) fn).2.2.1 0 6 (by decide)).trans (zeroExtend_field n (by decide))
/-- Fields within the parameter of SY. -/
theorem Enc.sy_low (rd ra rb fn : BitVec 4) (param : BitVec 8) (n : Nat) (h : n ≤ 8) :
    (Enc.sy rd ra rb fn param).extractLsb' 0 n = param.extractLsb' 0 n :=
  BitVec.extractLsb'_append_eq_of_add_le (by omega)
/-- A bit of the parameter of SY. -/
theorem getElem_word0_sy (len : BitVec 2) (maj : BitVec 6) (rd ra rb fn : BitVec 4) (param : BitVec 8) (i : Nat) (h : i < 8) :
    (Enc.word0 len maj (Enc.sy rd ra rb fn param))[i] = param[i] := by
  have hp : (Enc.word0 len maj (Enc.sy rd ra rb fn param)).extractLsb' 0 8 = param :=
    (fld_word0_low len maj _ 0 8 (by decide)).trans (Enc.sy_fields rd ra rb fn param).2.2.2.2
  simpa [BitVec.getLsbD_eq_getElem, h, show i < 32 by omega] using getLsbD_field hp i h
/-- BCLOSE's parameter: its batch and `.q`. -/
theorem bclose_param (q : Bool) (b : BitVec 2) :
    BitVec.extractLsb' (n := 8) 0 2 (0#5 ++ BitVec.ofBool q ++ b) = b ∧ (show BitVec 8 from 0#5 ++ BitVec.ofBool q ++ b)[2] = q :=
  ⟨field_last, getLsbD_flag (x := (0#5 ++ BitVec.ofBool q ++ b)) (field_high field_last)⟩
/-- A parameter of one flag: `.s` of RETT, `.a` of TLBI. -/
theorem flag_param (c : Bool) : (show BitVec 8 from 0#7 ++ BitVec.ofBool c)[0] = c :=
  getLsbD_flag (x := (0#7 ++ BitVec.ofBool c)) field_last
/-- The members that have no function field: one register and a long immediate, or a displacement. -/
theorem reg_imm20_fields (rd : BitVec 4) (imm : BitVec 20) :
    BitVec.extractLsb' (n := 24) 20 4 (rd ++ imm) = rd ∧ BitVec.extractLsb' (n := 24) 0 20 (rd ++ imm) = imm :=
  ⟨field_high field_first, field_last⟩
theorem reg_bit_disp_fields (ra : BitVec 4) (bit : BitVec 6) (disp : BitVec 14) :
    BitVec.extractLsb' (n := 24) 20 4 (ra ++ bit ++ disp) = ra ∧ BitVec.extractLsb' (n := 24) 14 6 (ra ++ bit ++ disp) = bit ∧
    BitVec.extractLsb' (n := 24) 0 14 (ra ++ bit ++ disp) = disp :=
  ⟨field_high (field_high field_first), field_high field_last, field_last⟩

/-! ### Words 1 and 2 (R76 to R78) -/

theorem Enc.word1_fields (sub : BitVec 8) (g : Option Guard) (fmt : BitVec 4) (fd rm : BitVec 3) (mod : BitVec 2) :
    fld (Enc.word1 sub g fmt fd rm mod) 24 8 = sub ∧ fld (Enc.word1 sub g fmt fd rm mod) 12 12 = Enc.guard g ∧
    fld (Enc.word1 sub g fmt fd rm mod) 8 4 = fmt ∧ fld (Enc.word1 sub g fmt fd rm mod) 5 3 = fd ∧
    fld (Enc.word1 sub g fmt fd rm mod) 2 3 = rm ∧ fld (Enc.word1 sub g fmt fd rm mod) 0 2 = mod :=
  ⟨field_high (field_high (field_high (field_high (field_high field_first)))), field_high (field_high (field_high (field_high field_last))),
    field_high (field_high (field_high field_last)), field_high (field_high field_last), field_high field_last, field_last⟩

theorem Enc.guard_fields (g : Guard) : (Enc.guard (some g)).extractLsb' 11 1 = 1#1 ∧
    (Enc.guard (some g)).extractLsb' 10 1 = BitVec.ofBool g.sense ∧ (Enc.guard (some g)).extractLsb' 6 4 = g.reg ∧
    (Enc.guard (some g)).extractLsb' 0 6 = g.bit :=
  ⟨field_high (field_high (field_high field_first)), field_high (field_high field_last), field_high field_last, field_last⟩

theorem Dec.guard_word1 (sub : BitVec 8) (g : Option Guard) (fmt : BitVec 4) (fd rm : BitVec 3) (mod : BitVec 2) :
    Dec.guard (Enc.word1 sub g fmt fd rm mod) = g := by
  have hw := (Enc.word1_fields sub g fmt fd rm mod).2.1
  have hv := getLsbD_field hw 11 (by decide)
  cases g with
  | none => exact if_neg (by simpa [Enc.guard] using hv)
  | some g =>
    obtain ⟨hone, hsense, hreg, hbit⟩ := Enc.guard_fields g
    have h23 : (Enc.word1 sub (some g) fmt fd rm mod).getLsbD 23 = true := hv.trans (getLsbD_flag (c := true) hone)
    have h22 : (Enc.word1 sub (some g) fmt fd rm mod).getLsbD 22 = g.sense :=
      (getLsbD_field hw 10 (by decide)).trans (getLsbD_flag hsense)
    have h18 : fld (Enc.word1 sub (some g) fmt fd rm mod) 18 4 = g.reg := (field_part hw 6 4 (by decide)).trans hreg
    have h12 : fld (Enc.word1 sub (some g) fmt fd rm mod) 12 6 = g.bit := (field_part hw 0 6 (by decide)).trans hbit
    rw [Dec.guard, if_pos h23, h22, h18, h12]

theorem Enc.word2_fields (o : XOp) :
    fld (Enc.word2 o) 28 4 = o.rc ∧ fld (Enc.word2 o) 24 4 = o.re ∧ (Enc.word2 o).getLsbD 23 = o.lme ∧ fld (Enc.word2 o) 20 3 = o.lmr ∧
    fld (Enc.word2 o) 17 3 = o.scope ∧ (Enc.word2 o).getLsbD 16 = o.bx ∧ fld (Enc.word2 o) 14 2 = o.bn ∧ fld (Enc.word2 o) 12 2 = o.am ∧
    fld (Enc.word2 o) 6 6 = o.bit ∧ fld (Enc.word2 o) 0 6 = o.imm6 :=
  ⟨field_high (field_high (field_high (field_high (field_high (field_high (field_high (field_high (field_high field_first)))))))),
    field_high (field_high (field_high (field_high (field_high (field_high (field_high (field_high field_last))))))),
    getLsbD_flag (field_high (field_high (field_high (field_high (field_high (field_high (field_high field_last))))))),
    field_high (field_high (field_high (field_high (field_high (field_high field_last))))),
    field_high (field_high (field_high (field_high (field_high field_last)))),
    getLsbD_flag (field_high (field_high (field_high (field_high field_last)))), field_high (field_high (field_high field_last)),
    field_high (field_high field_last), field_high field_last, field_last⟩

theorem Enc.word2w_fields (f : WForm) (wc : BitVec 6) (gd : BitVec 4) (bit : BitVec 6) :
    (Enc.word2w f wc gd bit).getLsbD 31 = f.rd ∧ (Enc.word2w f wc gd bit).getLsbD 30 = f.ra ∧ (Enc.word2w f wc gd bit).getLsbD 29 = f.rb ∧
    (Enc.word2w f wc gd bit).getLsbD 28 = f.rc ∧ fld (Enc.word2w f wc gd bit) 24 3 = f.idx ∧ fld (Enc.word2w f wc gd bit) 18 6 = wc ∧
    fld (Enc.word2w f wc gd bit) 14 4 = gd ∧ fld (Enc.word2w f wc gd bit) 8 6 = bit :=
  ⟨getLsbD_flag (field_high (field_high (field_high (field_high (field_high (field_high (field_high (field_high (field_high field_first))))))))),
    getLsbD_flag (field_high (field_high (field_high (field_high (field_high (field_high (field_high (field_high field_last)))))))),
    getLsbD_flag (field_high (field_high (field_high (field_high (field_high (field_high (field_high field_last))))))),
    getLsbD_flag (field_high (field_high (field_high (field_high (field_high (field_high field_last)))))),
    field_high (field_high (field_high (field_high field_last))), field_high (field_high (field_high field_last)),
    field_high (field_high field_last), field_high field_last⟩

/-- The fields of an extended-only member read back. -/
theorem Dec.xop_words (o : XOp) (len : BitVec 2) (maj : BitVec 6) (sub : BitVec 8) :
    Dec.xop (Enc.word0 len maj (o.rd ++ o.ra ++ o.rb ++ o.imm12)) (Enc.word1 sub o.gd o.fmt o.fd o.rm o.mod) (Enc.word2 o) = o := by
  obtain ⟨hrd, hra, hrb, himm⟩ := Enc.rr_fields o.rd o.ra o.rb o.imm12
  obtain ⟨-, -, hfmt, hfd, hrm, hmod⟩ := Enc.word1_fields sub o.gd o.fmt o.fd o.rm o.mod
  obtain ⟨hrc, hre, hlme, hlmr, hscope, hbx, hbn, ham, hbit, himm6⟩ := Enc.word2_fields o
  rw [Dec.xop, Dec.guard_word1, fld_word0_low _ _ _ 20 4 (by decide), fld_word0_low _ _ _ 16 4 (by decide),
    fld_word0_low _ _ _ 12 4 (by decide), fld_word0_low _ _ _ 0 12 (by decide), ← Enc.rr, hrd, hra, hrb, himm, hfmt, hfd, hrm, hmod, hrc,
    hre, hlme, hlmr, hscope, hbx, hbn, ham, hbit, himm6]

/-- The form of an extended window member reads back. -/
theorem Dec.wform_words {f : WForm} (h : f.ext = true) (sub : BitVec 8) (wc : BitVec 6) (gd : BitVec 4) (bit : BitVec 6) :
    Dec.wform (Enc.word1 sub f.gd 0#4 0#3 f.rm 0#2) (Enc.word2w f wc gd bit) = f := by
  obtain ⟨-, -, -, -, hrm, -⟩ := Enc.word1_fields sub f.gd 0#4 0#3 f.rm 0#2
  obtain ⟨hrd, hra, hrb, hrc, hidx, -⟩ := Enc.word2w_fields f wc gd bit
  rw [Dec.wform, Dec.guard_word1, hrm, hrd, hra, hrb, hrc, hidx, ← h]

/-- The two words of a literal are its halves. -/
theorem literal_halves (v : Word) : v.extractLsb' 32 32 ++ v.extractLsb' 0 32 = v :=
  (BitVec.extractLsb'_append_extractLsb'_eq_extractLsb' rfl).trans field_first

end Sys2Proof
end

section
/-!
PROOF. O10 to O13: the decoder reads the words of every well-formed instruction back as that instruction. One lemma for each group of
formats says when it does; each row then shows that the major and the function fields lead to it.
-/
namespace Sys2Proof

/-! ### One lemma for each group of formats -/

/-- The decoder takes an instruction whose words it reads as that instruction. -/
theorem decode_of_fields {i : Instr} (h : Dec.fields (encode i) = some i) (hw : WellFormed i = true) : decode (encode i) = some i := by
  simp [decode, h, hw]

/-- A member with a base form (R75): a guard stands in the extended form alone. -/
theorem decode_base {i : Instr} {f : Form} {maj : BitVec 6} {b : BitVec 24} (he : encode i = Enc.base f maj b)
    (hm : (Dec.isWin maj || Dec.isXo maj) = false) (hf : ∀ g, f = ⟨false, some g⟩ → WellFormed i = false)
    (hd : ∀ len, Dec.base f (Enc.word0 len maj b) = some i) (hw : WellFormed i = true) : decode (encode i) = some i := by
  refine decode_of_fields ?_ hw
  obtain ⟨hwin, hxo⟩ := Bool.or_eq_false_iff.1 hm
  rw [he]
  obtain ⟨ext, gd⟩ := f
  cases ext with
  | true =>
    show (if _ then _ else _) = _
    rw [fld_word0_len, if_neg (by decide)]
    simp [fld_word0_maj, hwin, hxo, Dec.guard_word1, hd]
  | false =>
    cases gd with
    | some g => exact absurd (hf g rfl) (by simp [hw])
    | none => simpa [Enc.base, Dec.fields, fld_word0_maj, hwin] using hd _

/-- A literal form of a scalar member (R73). -/
theorem decode_lit {i : Instr} {f : Form} {maj : BitVec 6} {b : BitVec 24} {v : Word} (he : encode i = Enc.lit f maj b v)
    (hm : maj.toNat ≠ 0x2A ∧ maj.toNat ≠ 0x33) (hf : ∀ g, f = ⟨false, some g⟩ → WellFormed i = false)
    (hd : ∀ len, Dec.lit f (Enc.word0 len maj b) v = some i) (hw : WellFormed i = true) : decode (encode i) = some i := by
  refine decode_of_fields ?_ hw
  rw [he]
  obtain ⟨ext, gd⟩ := f
  cases ext with
  | true =>
    simp only [Enc.lit, Enc.literal, if_true, List.cons_append, List.nil_append, Dec.fields, fld_word0_maj, Dec.guard_word1, literal_halves]
    split
    · exact absurd ‹_› hm.1
    · exact absurd ‹_› hm.2
    · exact hd _
  | false =>
    cases gd with
    | some g => exact absurd (hf g rfl) (by simp [hw])
    | none => simpa [Enc.lit, Enc.literal, Dec.fields, fld_word0_len, literal_halves] using hd _

/-- The base form of a window member has no relative field and no rounding field (R78). -/
theorem WForm.eq_wbase_of_ok {f : WForm} {rounds d a b c : Bool} (h : f.ok rounds d a b c = true) (hx : f.ext = false) : f = Dec.wbase := by
  obtain ⟨ext, gd, rm, rd, ra, rb, rc, idx⟩ := f
  subst hx
  simp only [WForm.ok, Bool.and_eq_true, Bool.or_eq_true, Bool.false_eq_true, false_or, Option.isNone_iff_eq_none, beq_iff_eq,
    Bool.not_eq_true'] at h
  obtain ⟨⟨⟨⟨⟨⟨⟨⟨⟨⟨⟨rfl, rfl⟩, rfl⟩, rfl⟩, rfl⟩, rfl⟩, -⟩, -⟩, -⟩, -⟩, -⟩, hidx⟩ := h
  simp at hidx
  rw [hidx, Dec.wbase]

/-- A window member with SUB 0 (R78, R88). -/
theorem decode_win {i : Instr} {f : WForm} {maj : BitVec 6} {b : BitVec 24} {rounds d a e c : Bool} {wc : BitVec 6} {gd : BitVec 4}
    {bit : BitVec 6} (he : encode i = Enc.win f maj b 0#8 wc gd bit) (hm : (Dec.isWin maj && !Dec.isXo maj) = true)
    (hok : WellFormed i = f.ok rounds d a e c) (hd : ∀ len, Dec.win f (Enc.word0 len maj b) = some i) (hw : WellFormed i = true) :
    decode (encode i) = some i := by
  refine decode_of_fields ?_ hw
  simp only [Bool.and_eq_true, Bool.not_eq_true'] at hm
  obtain ⟨hwin, hxo⟩ := hm
  rw [he]
  cases hx : f.ext with
  | true =>
    simp only [Enc.win, hx, if_true, Dec.fields, fld_word0_len, fld_word0_maj, (Enc.word1_fields ..).1, hwin, Dec.wform_words hx, hd]
    simp [hxo]
  | false =>
    have hf := WForm.eq_wbase_of_ok (hok ▸ hw) hx
    simpa [Enc.win, hx, Dec.fields, fld_word0_maj, hwin, ← hf] using hd _

/-- A window member with a nonzero SUB, which is extended (R89). -/
theorem decode_winSub {i : Instr} {f : WForm} {b : BitVec 24} {sub : BitVec 8} {wc : BitVec 6} {gd : BitVec 4} {bit : BitVec 6} {ok : Bool}
    (he : encode i = Enc.win f 0x20#6 b sub wc gd bit) (hs : sub.toNat ≠ 0) (hok : WellFormed i = (ok && f.ext))
    (hd : ∀ len, Dec.winSub f (Enc.word0 len 0x20#6 b) (Enc.word2w f wc gd bit) sub.toNat = some i) (hw : WellFormed i = true) :
    decode (encode i) = some i := by
  refine decode_of_fields ?_ hw
  have hx : f.ext = true := (Bool.and_eq_true_iff.1 (hok ▸ hw)).2
  rw [he]
  simp only [Enc.win, hx, if_true, Dec.fields, fld_word0_len, fld_word0_maj, (Enc.word1_fields ..).1, Dec.wform_words hx, hd]
  simp [hs, Dec.isWin, Dec.isXo]

/-- An extended-only member (R76, R77, R89). -/
theorem decode_x {i : Instr} {o : XOp} {maj : BitVec 6} {sub : BitVec 8} (he : encode i = Enc.x o 2#2 maj sub) (hm : Dec.isXo maj = true)
    (hd : Dec.ext o maj.toNat sub.toNat = some i) (hw : WellFormed i = true) : decode (encode i) = some i := by
  refine decode_of_fields ?_ hw
  rw [he]
  simp only [Enc.x, Dec.fields, fld_word0_len, fld_word0_maj, (Enc.word1_fields ..).1, Dec.xop_words, hm, hd]
  simp

/-! ### The rows that a group leaves apart -/

section
variable (f : Form) (rd ra : BitVec 4) (bit : BitVec 6) (lit : Word)

theorem decode_addiLiteral (hw : WellFormed (.addiLiteral f rd ra lit) = true) :
    decode (encode (.addiLiteral f rd ra lit)) = some (.addiLiteral f rd ra lit) :=
  decode_lit rfl (by decide) (by rintro g rfl; rfl) (fun len => by simp [Dec.lit, fld_word0_maj, fld_word0_low, Enc.i12_fields]) hw
theorem decode_andiLiteral (hw : WellFormed (.andiLiteral f rd ra lit) = true) :
    decode (encode (.andiLiteral f rd ra lit)) = some (.andiLiteral f rd ra lit) :=
  decode_lit rfl (by decide) (by rintro g rfl; rfl) (fun len => by simp [Dec.lit, fld_word0_maj, fld_word0_low, Enc.i12_fields]) hw
theorem decode_oriLiteral (hw : WellFormed (.oriLiteral f rd ra lit) = true) :
    decode (encode (.oriLiteral f rd ra lit)) = some (.oriLiteral f rd ra lit) :=
  decode_lit rfl (by decide) (by rintro g rfl; rfl) (fun len => by simp [Dec.lit, fld_word0_maj, fld_word0_low, Enc.i12_fields]) hw
theorem decode_xoriLiteral (hw : WellFormed (.xoriLiteral f rd ra lit) = true) :
    decode (encode (.xoriLiteral f rd ra lit)) = some (.xoriLiteral f rd ra lit) :=
  decode_lit rfl (by decide) (by rintro g rfl; rfl) (fun len => by simp [Dec.lit, fld_word0_maj, fld_word0_low, Enc.i12_fields]) hw
theorem decode_ldk (hw : WellFormed (.ldk f rd lit) = true) : decode (encode (.ldk f rd lit)) = some (.ldk f rd lit) :=
  decode_lit rfl (by decide) (by rintro g rfl; rfl) (fun len => by simp [Dec.lit, fld_word0_maj, fld_word0_low, reg_imm20_fields]) hw
theorem decode_ceqiLiteral (hw : WellFormed (.ceqiLiteral f rd ra bit lit) = true) :
    decode (encode (.ceqiLiteral f rd ra bit lit)) = some (.ceqiLiteral f rd ra bit lit) :=
  decode_lit rfl (by decide) (by rintro g rfl; rfl) (fun len => by simp [Dec.lit, fld_word0_maj, fld_word0_low, Enc.ci_fields]) hw
theorem decode_cltiLiteral (hw : WellFormed (.cltiLiteral f rd ra bit lit) = true) :
    decode (encode (.cltiLiteral f rd ra bit lit)) = some (.cltiLiteral f rd ra bit lit) :=
  decode_lit rfl (by decide) (by rintro g rfl; rfl) (fun len => by simp [Dec.lit, fld_word0_maj, fld_word0_low, Enc.ci_fields]) hw

/-- WRSR to PARTITION is a row of its own (R86). -/
theorem decode_wrsr (sr : BitVec 8) (hw : WellFormed (.wrsr f ra sr) = true) : decode (encode (.wrsr f ra sr)) = some (.wrsr f ra sr) := by
  have hsr : sr ≠ 12#8 := by rintro rfl; simp [WellFormed] at hw
  exact decode_base rfl rfl (by rintro g rfl; rfl) (fun len => by simp [Dec.base, fld_word0_maj, fld_word0_low, Enc.sy_fields, hsr]) hw

end

section
variable (f : WForm) (wd wa wb wc bit : BitVec 6) (gd : BitVec 4)

theorem decode_ffma (hw : WellFormed (.ffma f wd wa wb wc) = true) :
    decode (encode (.ffma f wd wa wb wc)) = some (.ffma f wd wa wb wc) :=
  decode_winSub rfl (by decide) rfl
    (fun len => by simp [Dec.winSub, fld_word0_maj, fld_word0_low, Enc.wr_fields, Enc.word2w_fields]) hw
theorem decode_ffms (hw : WellFormed (.ffms f wd wa wb wc) = true) :
    decode (encode (.ffms f wd wa wb wc)) = some (.ffms f wd wa wb wc) :=
  decode_winSub rfl (by decide) rfl
    (fun len => by simp [Dec.winSub, fld_word0_maj, fld_word0_low, Enc.wr_fields, Enc.word2w_fields]) hw
theorem decode_fclt (hw : WellFormed (.fclt f wa wb gd bit) = true) :
    decode (encode (.fclt f wa wb gd bit)) = some (.fclt f wa wb gd bit) :=
  decode_winSub rfl (by decide) rfl
    (fun len => by simp [Dec.winSub, fld_word0_maj, fld_word0_low, Enc.wr_fields, Enc.word2w_fields]) hw
theorem decode_fcle (hw : WellFormed (.fcle f wa wb gd bit) = true) :
    decode (encode (.fcle f wa wb gd bit)) = some (.fcle f wa wb gd bit) :=
  decode_winSub rfl (by decide) rfl
    (fun len => by simp [Dec.winSub, fld_word0_maj, fld_word0_low, Enc.wr_fields, Enc.word2w_fields]) hw
theorem decode_fceq (hw : WellFormed (.fceq f wa wb gd bit) = true) :
    decode (encode (.fceq f wa wb gd bit)) = some (.fceq f wa wb gd bit) :=
  decode_winSub rfl (by decide) rfl
    (fun len => by simp [Dec.winSub, fld_word0_maj, fld_word0_low, Enc.wr_fields, Enc.word2w_fields]) hw

end

/-- The two extended-only members with a literal (R73, R89): their major alone names them. -/
theorem decode_fillLiteral (o : XOp) (lit : Word) (hw : WellFormed (.fillLiteral o lit) = true) :
    decode (encode (.fillLiteral o lit)) = some (.fillLiteral o lit) :=
  decode_of_fields (by simp [encode, Enc.x, Enc.literal, Dec.fields, fld_word0_maj, Dec.xop_words, literal_halves]) hw
theorem decode_vbcastLiteral (o : XOp) (lit : Word) (hw : WellFormed (.vbcastLiteral o lit) = true) :
    decode (encode (.vbcastLiteral o lit)) = some (.vbcastLiteral o lit) :=
  decode_of_fields (by simp [encode, Enc.x, Enc.literal, Dec.fields, fld_word0_maj, Dec.xop_words, literal_halves]) hw

/-- VSETT's two directions share their SUB and are told apart by IMM6 (R173). -/
theorem decode_vsettToDescriptor (o : XOp) (hw : WellFormed (.vsettToDescriptor o) = true) :
    decode (encode (.vsettToDescriptor o)) = some (.vsettToDescriptor o) := by
  have h : (o.imm6 == 0#6) = true := (Bool.and_eq_true_iff.1 hw).2
  exact decode_x rfl rfl (congrArg some (if_pos h)) hw
theorem decode_vsettFromDescriptor (o : XOp) (hw : WellFormed (.vsettFromDescriptor o) = true) :
    decode (encode (.vsettFromDescriptor o)) = some (.vsettFromDescriptor o) := by
  have h : o.imm6 = 1#6 := eq_of_beq (Bool.and_eq_true_iff.1 hw).2
  exact decode_x rfl rfl (congrArg some (if_neg (by rw [h]; decide))) hw

/-! ### The obligations -/

/-- Settles O13: a major and a SUB name one member, whose fields read back. -/
theorem extendedEncodingRoundTrip : Obligations.ExtendedEncodingRoundTrip := by
  unfold Obligations.ExtendedEncodingRoundTrip
  intro o lit
  simp +contextual only [List.forall_mem_cons, decode_vsettToDescriptor, decode_vsettFromDescriptor, decode_fillLiteral, decode_vbcastLiteral,
    List.not_mem_nil, false_implies, implies_true, and_true, true_and]
  and_intros
  all_goals exact decode_x rfl rfl rfl

/-- Settles O12: word 0 holds the window fields, words 1 and 2 the form, the third source and the predicate. -/
theorem windowEncodingRoundTrip : Obligations.WindowEncodingRoundTrip := by
  unfold Obligations.WindowEncodingRoundTrip
  intro f u v w x a i
  simp +contextual only [List.forall_mem_cons, decode_ffma, decode_ffms, decode_fclt, decode_fcle, decode_fceq, List.not_mem_nil,
    false_implies, implies_true, and_true, true_and]
  and_intros
  all_goals
    refine decode_win rfl rfl rfl fun len => ?_
    simp [Dec.win, fld_word0_maj, fld_word0_low, Enc.wr_fields, Enc.wm_fields, Enc.wl_fields]

/-- Settles O11: every format of these members is SY, but for NOP. -/
theorem systemEncodingRoundTrip : Obligations.SystemEncodingRoundTrip := by
  unfold Obligations.SystemEncodingRoundTrip
  intro f a b c k t z x
  simp +contextual only [List.forall_mem_cons, decode_wrsr, List.not_mem_nil, false_implies, implies_true, and_true, true_and]
  and_intros
  all_goals
    refine decode_base rfl rfl (by rintro g rfl; rfl) fun len => ?_
    simp [Dec.base, fld_word0_maj, fld_word0_low, Enc.sy_fields, Enc.sy_low, zeroExtend_field, getElem_word0_sy, bclose_param, flag_param]

/-- Settles O10: each format of the scalar members gives its fields back, and a literal its halves. -/
theorem scalarEncodingRoundTrip : Obligations.ScalarEncodingRoundTrip := by
  unfold Obligations.ScalarEncodingRoundTrip
  intro f a b c u v i j k z lit
  simp +contextual only [List.forall_mem_cons, decode_addiLiteral, decode_andiLiteral, decode_oriLiteral, decode_xoriLiteral, decode_ldk,
    decode_ceqiLiteral, decode_cltiLiteral, List.not_mem_nil, false_implies, implies_true, and_true, true_and]
  and_intros
  all_goals
    refine decode_base rfl rfl (by rintro g rfl; rfl) fun len => ?_
    simp [Dec.base, fld_word0_maj, fld_word0_low, Enc.rr_fields, Enc.ru_fields, Enc.i12_fields, Enc.i12_shift, Enc.bf_fields, Enc.cr_fields,
      Enc.ci_fields, Enc.ls_fields, reg_imm20_fields, reg_bit_disp_fields]

end Sys2Proof
end

section
/-!
PROOF. Fetching and stepping: O14 to O16. What the fetch of a word answers, what a turn and an event do.
-/
namespace Sys2Proof

/-- Settles O14: closed words, decoded one by one. -/
theorem decodeSamples : Obligations.DecodeSamples := by
  unfold Obligations.DecodeSamples
  intro x b w
  refine ⟨?_, ?_, ?_, ?_⟩
  all_goals decide

/-- The length of an instruction from bits 31:30 of its first word (R72), by value. -/
theorem wordsOf_eq (w : BitVec 32) : wordsOf w = [1, 3, 3, 5].getD (w.toNat / 2 ^ 30) 0 := by
  have hf : (fld w 30 2).toNat = w.toNat / 2 ^ 30 := by
    rw [fld, BitVec.extractLsb'_toNat, Nat.shiftRight_eq_div_pow]
    omega
  have hlt : w.toNat / 2 ^ 30 < 4 := by omega
  rw [wordsOf, hf]
  generalize w.toNat / 2 ^ 30 = n at hlt
  interval_cases n <;> rfl

theorem wordsOf_pos (w : BitVec 32) : 0 < wordsOf w := by
  unfold wordsOf
  split <;> decide

/-- An instruction of more than one word with length 10 or 11 (R85) has bit 31 set, and five or three words. -/
theorem two_le_length_iff (w : BitVec 32) : 2 ≤ w.toNat / 2 ^ 30 ↔ w.getLsbD 31 = true := by
  rw [BitVec.getLsbD, Nat.testBit_eq_decide_div_mod_eq, decide_eq_true_iff]
  omega
theorem three_le_wordsOf {w : BitVec 32} (h : 2 ≤ w.toNat / 2 ^ 30) : 3 ≤ wordsOf w := by
  have hlt : w.toNat / 2 ^ 30 < 4 := by omega
  rw [wordsOf_eq]
  generalize w.toNat / 2 ^ 30 = n at h hlt
  interval_cases n <;> decide

namespace Machine

/-! ### Fetching (R70, R85) -/

section
variable {c : Core} {pc : BitVec 32} (ho : c.ovld = none)
include ho

theorem Core.fetch_overlay (h : c.xb.toNat < pc.toNat + 4 ∨ c.xb.toNat < pc.toNat + 4 * wordsOf (BitVec.ofNat 32 (Mem.num c.store pc.toNat 4))) :
    c.fetch pc = some .overlayFetch := by
  unfold Core.fetch
  simp only [ho]
  split
  · rfl
  · exact if_pos (h.resolve_left ‹_›)

theorem Core.fetch_below (h : pc.toNat + 4 * wordsOf (BitVec.ofNat 32 (Mem.num c.store pc.toNat 4)) ≤ c.xb.toNat) :
    (∀ i, decode (fetchWords c.store pc.toNat (wordsOf (BitVec.ofNat 32 (Mem.num c.store pc.toNat 4)))) = some i → c.fetch pc = some i) ∧
    (decode (fetchWords c.store pc.toNat (wordsOf (BitVec.ofNat 32 (Mem.num c.store pc.toNat 4)))) = none →
      c.fetch pc = some (.illegalEncoding (BitVec.ofNat 32 (Mem.num c.store pc.toNat 4))
        (if (BitVec.ofNat 32 (Mem.num c.store pc.toNat 4)).getLsbD 31 then
          (fetchWords c.store pc.toNat (wordsOf (BitVec.ofNat 32 (Mem.num c.store pc.toNat 4)))).getD 1 0#32 else 0#32))) := by
  have hpos := wordsOf_pos (BitVec.ofNat 32 (Mem.num c.store pc.toNat 4))
  unfold Core.fetch
  simp only [ho]
  rw [if_neg (by omega), if_neg (by simp), if_neg (by omega), if_neg (by simp)]
  exact ⟨fun i hd => by rw [hd], fun hd => by rw [hd]⟩

end

/-! ### Turns (R101) -/

/-- Time that passes leaves everything but the counters of the dies (R17). -/
theorem State.inService_advance (s : State) (c : BitVec 9) : s.advance.inService c = s.inService c := by
  simp [State.inService, State.die, State.advance]

theorem State.turnOf_run {s : State} {k : BitVec 13} {r : Nat} {st : Strand} {i : Instr}
    (hr : (s.core k).slots[(s.core k).phase.toNat]'((s.core k).phase.isLt) = some r) (hs : s.strand r = some st) (hw : st.wait = .run)
    (hi : s.canIssue k = true) (hv : s.victim st = false) (hf : (s.core k).fetch st.pc = some i) : s.turnOf k = .run r i := by
  simp only [State.turnOf, hr, hs, hw, hi, hv, hf, Bool.not_false, Bool.and_self, if_true]

theorem State.turnOf_empty {s : State} {k : BitVec 13}
    (hr : (s.core k).slots[(s.core k).phase.toNat]'((s.core k).phase.isLt) = none) : s.turnOf k = .unused := by
  simp only [State.turnOf, hr]

theorem State.ready_iff (s : State) : s.ready = true ↔ s.boot.stage = 7 := beq_iff_eq

/-- The state in which a move takes place: time has passed, the move is off the schedule, and nobody issues. -/
def State.moving (s : State) (l : List Move) : State := { s.advance with schedule := l, cur := none }

@[simp] theorem State.core_moving (s : State) (l : List Move) (k : BitVec 13) : (s.moving l).core k = s.core k := rfl
@[simp] theorem State.strand_moving (s : State) (l : List Move) (r : Nat) : (s.moving l).strand r = s.strand r := rfl
@[simp] theorem State.victim_moving (s : State) (l : List Move) (st : Strand) : (s.moving l).victim st = s.victim st := rfl
@[simp] theorem State.ready_moving (s : State) (l : List Move) : (s.moving l).ready = s.ready := rfl
@[simp] theorem State.supplyOk_moving (s : State) (l : List Move) : (s.moving l).supplyOk = s.supplyOk := rfl
theorem State.canIssue_moving (s : State) (l : List Move) (k : BitVec 13) : (s.moving l).canIssue k = s.canIssue k :=
  congrArg (fun b => s.supplyOk && b && !s.fenced k) (s.inService_advance (coreCluster k))

theorem step_of_move {s : State} {m : Move} {l : List Move} (h : s.nextMove = (m, l)) : step s = finish (runMove m (s.moving l)) := by
  simp only [step, h]
  rfl

theorem State.nextMove_of_schedule {s : State} {m : Move} {l : List Move} (h : s.schedule = m :: l) : s.nextMove = (m, l) := by
  simp only [State.nextMove, h]

/-- The turn of a core runs the instruction that its slot's strand fetches. -/
theorem step_turn_run {s : State} {k : BitVec 13} {l : List Move} {r : Nat} {i : Instr} (h : s.nextMove = (.turn k, l))
    (ht : (s.moving l).turnOf k = .run r i) : step s = finish (exec i { (s.moving l).countTurn k true with cur := some r }) := by
  rw [step_of_move h]
  simp only [runMove, ht]

/-- A turn that runs nothing only moves the phase on. -/
theorem step_turn_unused {s : State} {k : BitVec 13} {l : List Move} (h : s.nextMove = (.turn k, l))
    (ht : (s.moving l).turnOf k = .unused) : step s = .next ((s.moving l).countTurn k false) := by
  rw [step_of_move h]
  simp only [runMove, ht]
  rfl

/-- Settles O15: the clauses are the moves of the model; the fetch below XB is the decoded instruction. -/
theorem stepRunsInstructionsAndEvents : Obligations.StepRunsInstructionsAndEvents := by
  unfold Obligations.StepRunsInstructionsAndEvents
  refine ⟨?turn, ?scheduled⟩
  case turn =>
    intro s k r st i hm hr hs hw hsup hfen hserv hv ho c a w0 n hx hd t u
    have hn : n = wordsOf w0 := (wordsOf_eq w0).symm
    rw [hn] at hx hd
    have hf : c.fetch st.pc = some i := (Core.fetch_below ho hx).1 i hd
    have hcan : s.canIssue k = true := by rw [State.canIssue, hsup, hserv, hfen]; rfl
    have hturn : (s.moving s.nextMove.2).turnOf k = .run r i :=
      State.turnOf_run hr hs hw ((s.canIssue_moving _ k).trans hcan) hv hf
    exact step_turn_run (Prod.ext hm rfl) hturn
  case scheduled =>
    intro s m l hl
    have hstep := step_of_move (State.nextMove_of_schedule hl)
    refine ⟨?runs, ?waits, ?peer, ?entered, ?empty⟩
    case runs =>
      rintro i rfl hi
      exact hstep.trans (congrArg finish (if_pos hi))
    case waits =>
      rintro i rfl hi
      exact hstep.trans (congrArg finish (if_neg (ne_true_of_eq_false hi)))
    case peer =>
      rintro frm vbn e rfl
      rw [hstep, runMove, State.ready_moving, State.supplyOk_moving]
      simp only [Bool.and_eq_true, State.ready_iff]
      split <;> rfl
    case entered =>
      rintro frm vbn rfl
      rw [hstep, runMove, State.ready_moving]
      simp only [State.ready_iff]
      split <;> rfl
    case empty =>
      rintro k rfl hr
      exact step_turn_unused (State.nextMove_of_schedule hl) (State.turnOf_empty hr)

/-- The state after reset, but that the store of core 0 lists its first byte twice. -/
def State.listedTwice : State := State.reset.setCore 0 { Core.reset with store := [(0, 5#8), (0, 7#8)] }

/-- Refutes O16: withFetchWord takes one entry off a store that lists a byte twice, which no reachable state holds (`State.Inv`); the
other entry is read, and the turn runs an illegal encoding where NOP was placed. -/
theorem not_placedWordIsRun : ¬ Obligations.PlacedWordIsRun := by
  unfold Obligations.PlacedWordIsRun
  intro h
  have hnop := (h State.listedTwice 32 0x1C000000 (.nop { ext := false, gd := none }) rfl (by decide) (by decide) rfl (by decide)).2
  have hrun : (State.listedTwice.withFetchWord 32 0x1C000000).turnOf 0 = .run State.listedTwice.fresh (.illegalEncoding 0x1C000007 0) := by
    decide +kernel
  exact absurd (hrun.symm.trans hnop) (by decide)

end Machine
end Sys2Proof
end

section
/-!
PROOF. O17. What the fetch answers past XB and for undefined words, and that a trap while ACTIVE is set ends the instance and brings up
no other.
-/
namespace Sys2Proof.Machine

/-! ### Instances stand or go (R319) -/

theorem Maps.get_filter_key {α : Type} (m : FMap α) (p : Nat → Bool) (k : Nat) :
    Maps.get (Maps.filter m fun a _ => p a) k = if p k then Maps.get m k else none := by
  induction m with
  | nil => simp [Maps.filter, Maps.get]
  | cons e r ih =>
    obtain ⟨a, v⟩ := e
    rw [Maps.filter] at ih ⊢
    by_cases ha : a = k
    · subst ha
      cases hp : p a <;> simp [hp, Maps.get, ih]
    · cases hp : p a <;> simp [hp, Maps.get, ih, ha]

/-- No instance stands in `t` under a number that was free in `s`. -/
def NoNewInst (s t : State) : Prop := ∀ n, s.inst n = none → t.inst n = none

theorem NoNewInst.trans {s t u : State} (h : NoNewInst s t) (h' : NoNewInst t u) : NoNewInst s u := fun n hn => h' n (h n hn)
theorem NoNewInst.of_eq {s t : State} (h : t.instances = s.instances) : NoNewInst s t := fun n hn => by
  rw [State.inst, h]
  exact hn
theorem NoNewInst.foldl {α : Type} {f : State → α → State} (h : ∀ t x, NoNewInst t (f t x)) (l : List α) (s : State) :
    NoNewInst s (l.foldl f s) := by
  induction l generalizing s with
  | nil => exact fun _ hn => hn
  | cons x l ih => exact (h s x).trans (ih _)

theorem State.sendMsg_instances (s : State) (n : BitVec 32) (typ : BitVec 8) (body : List Byte) :
    (s.sendMsg n typ body).instances = s.instances := by
  obtain ⟨out, l, h⟩ := s.sendMsg_spec n typ body
  rw [h]
theorem State.reply_instances (s : State) (n q : BitVec 32) (status : Nat) (body : List Byte) :
    (s.reply n q status body).instances = s.instances := by
  unfold State.reply
  dsimp only
  split <;> exact s.sendMsg_instances ..
theorem State.sendComplete_instances (s : State) (n : BitVec 32) (i : Instance) : (s.sendComplete n i).instances = s.instances := by
  unfold State.sendComplete
  split
  · exact s.sendMsg_instances ..
  · rfl
theorem State.sendFault_instances (s : State) (n : BitVec 32) (i : Instance) (f : FaultInfo) : (s.sendFault n i f).instances = s.instances := by
  unfold State.sendFault
  split
  · exact s.sendMsg_instances ..
  · rfl
theorem State.routed_instances (s : State) (m : BitVec 8) (b : FrameBody) : (s.routed m b).instances = s.instances := by
  obtain ⟨out, l, k, np, el, eh, h⟩ :=
    State.inject_frame { s with fresh := s.fresh + 1 } { src := s.modNo, dst := m, num := s.fresh, body := b }
  rw [State.routed, h]
theorem State.discardStrand_instances (s : State) (r : Nat) : (s.discardStrand r).instances = s.instances := by
  unfold State.discardStrand
  split
  · rfl
  · next st h =>
    split
    · rfl
    · rw [State.dropStrand, h]
      rfl
theorem State.updStrand_instances (s : State) (r : Nat) (f : Strand → Strand) : (s.updStrand r f).instances = s.instances := by
  unfold State.updStrand
  split <;> rfl
theorem State.toDispatcher_instances (s : State) (r : Nat) (c : BitVec 9) : (s.toDispatcher r c).instances = s.instances := by
  unfold State.toDispatcher
  split
  · rfl
  · split
    · rfl
    · split <;> rfl
theorem State.started_instances (s : State) (x : Starting) : (s.started x).instances = s.instances := by
  unfold State.started
  split
  · exact State.reply_instances ..
  · dsimp only
    split
    · exact State.updStrand_instances ..
    · split
      · exact State.updStrand_instances ..
      · exact (State.toDispatcher_instances ..).trans (State.updStrand_instances ..)
theorem State.settleWait_instances (s : State) : s.settleWait.instances = s.instances := by
  unfold State.settleWait
  split
  · rfl
  · split
    · exact State.reply_instances ..
    · rfl

/-- Of the instances those removed are gone, and the others stand as they were. -/
theorem State.removeInstances_instances (s : State) (ns : List (BitVec 32)) :
    (s.removeInstances ns).instances = Maps.filter s.instances fun k _ => !ns.contains (BitVec.ofNat 32 k) := by
  unfold State.removeInstances
  extract_lets nodes recs s0 s1 s2 s3 s4 s5
  have h0 : s0.instances = s.instances := foldl_keeps State.instances (fun t m => t.routed_instances m _) _ _
  have h2 : s2.instances = s1.instances := foldl_keeps State.instances State.discardStrand_instances _ _
  have h5 : s5.instances = s4.instances := by
    simp only [s5]
    split
    · rfl
    · split
      · exact s4.started_instances _
      · rfl
  have h : s5.instances = s.instances := h5.trans (h2.trans h0)
  exact congrArg (Maps.filter · fun k _ => !ns.contains (BitVec.ofNat 32 k)) h

theorem State.inst_removeInstances (s : State) (ns : List (BitVec 32)) (n : BitVec 32) :
    (s.removeInstances ns).inst n = if ns.contains n then none else s.inst n := by
  rw [State.inst, s.removeInstances_instances, Maps.get_filter_key s.instances (fun k => !ns.contains (BitVec.ofNat 32 k))]
  cases hn : ns.contains n <;> simp_all [State.inst]

theorem State.childGone_noNewInst (s : State) (n : BitVec 32) : NoNewInst s (s.childGone n) := by
  unfold State.childGone
  split
  · exact .of_eq rfl
  · next i hi =>
    intro m hm
    have hne : m ≠ n := by rintro rfl; simp [hi] at hm
    exact (Maps.get_put_other _ _ _ _ fun e => hne (BitVec.eq_of_toNat_eq e)).trans hm

/-- A completed instance is taken off, whatever is told of it. -/
theorem State.completed_noNewInst {s t : State} {n : BitVec 32} (i : Instance) (hi : s.inst n = some i)
    (h : t.instances = Maps.del s.instances n.toNat) : NoNewInst s t := by
  intro m hm
  have hne : m ≠ n := by rintro rfl; simp [hi] at hm
  rw [State.inst, h]
  exact (Maps.get_del_other _ _ _ fun e => hne (BitVec.eq_of_toNat_eq e)).trans hm

theorem State.checkComplete_noNewInst (fuel : Nat) (s : State) (n : BitVec 32) : NoNewInst s (s.checkComplete fuel n) := by
  induction fuel generalizing s n with
  | zero =>
    unfold State.checkComplete
    split
    · exact .of_eq rfl
    · next i hi =>
      split
      · dsimp only
        split
        · exact (State.completed_noNewInst i hi rfl).trans (.of_eq (State.sendComplete_instances ..))
        · exact (State.completed_noNewInst i hi rfl).trans (State.childGone_noNewInst _ _)
      · exact .of_eq rfl
  | succ fuel ih =>
    unfold State.checkComplete
    split
    · exact .of_eq rfl
    · next i hi =>
      split
      · dsimp only
        split
        · exact (State.completed_noNewInst i hi rfl).trans (.of_eq (State.sendComplete_instances ..))
        · exact (State.completed_noNewInst i hi rfl).trans ((State.childGone_noNewInst _ _).trans (ih _ _))
      · exact .of_eq rfl

theorem State.ended_noNewInst (s : State) (e : Ending) : NoNewInst s (s.ended e) := by
  unfold State.ended
  extract_lets s1 s2 s3
  have h1 : NoNewInst s s1 := .of_eq (s.sendFault_instances ..)
  have h2 : NoNewInst s1 s2 := by
    simp only [s2]
    split
    · exact .of_eq rfl
    · exact (s1.childGone_noNewInst _).trans (State.checkComplete_noNewInst _ _ _)
  exact (h1.trans h2).trans (.of_eq s3.settleWait_instances)

/-- An instance that the Keep ends is gone, and none comes up. -/
theorem State.endInstance_ends {s : State} {n : BitVec 32} {i : Instance} (f : FaultInfo) (hi : s.inst n = some i) :
    (s.endInstance n f).inst n = none ∧ NoNewInst s (s.endInstance n f) := by
  have hgone : (s.removeInstances (s.spawnTree s.instances.length [n])).inst n = none := by
    rw [State.inst_removeInstances, if_pos (List.contains_iff_mem.2 (s.mem_spawnTree _ _ (List.mem_singleton_self n)))]
  have hnew : NoNewInst s (s.removeInstances (s.spawnTree s.instances.length [n])) := fun m hm => by
    rw [State.inst_removeInstances, hm, ite_self]
  unfold State.endInstance
  rw [hi]
  dsimp only
  split
  · exact ⟨State.ended_noNewInst _ _ n hgone, hnew.trans (State.ended_noNewInst _ _)⟩
  · exact ⟨hgone, hnew⟩

/-- While ACTIVE is set a trap ends the instance of its strand (R317, R319). -/
theorem State.raise_ends {s : State} {r : Nat} {st : Strand} {nd : Node} {i : Instance} (cause : BitVec 5) (v : Word)
    (hw : Maps.wf s.strands = true) (hr : s.strand r = some st) (hrun : st.wait = .run) (ha : st.tcause.getLsbD 7 = true)
    (hn : s.node st.node = some nd) (hi : s.inst nd.inst = some i) :
    (s.raise r cause v).inst nd.inst = none ∧ (s.raise r cause v).strand r = none ∧ NoNewInst s (s.raise r cause v) := by
  have hdrop := State.endOwner_drops (0x80#8 ||| cause.zeroExtend 8) v hw hr hn hi (Strand.commanded_eq_false fun _ _ _ => by simp [hrun])
  have hend : s.endOwner r (0x80#8 ||| cause.zeroExtend 8) v =
      s.endInstance nd.inst { idx := BitVec.ofNat 16 nd.idx, node := st.node, cause := 0x80#8 ||| cause.zeroExtend 8, tpc := st.pc, tval := v } := by
    unfold State.endOwner
    rw [hr]
    dsimp only
    rw [hn]
  rw [State.raise_active cause v hr ha]
  obtain ⟨hgone, hnew⟩ := State.endInstance_ends (s := s)
    { idx := BitVec.ofNat 16 nd.idx, node := st.node, cause := 0x80#8 ||| cause.zeroExtend 8, tpc := st.pc, tval := v } hi
  rw [← hend] at hgone hnew
  exact ⟨hgone, hdrop, hnew⟩

/-- Settles O17: the fetch by whether the words lie below XB and decode; the three instructions all raise a trap. -/
theorem fetchAndActiveTraps : Obligations.FetchAndActiveTraps := by
  unfold Obligations.FetchAndActiveTraps
  refine ⟨?fetch, ?active⟩
  case fetch =>
    intro c pc ho a word n
    have hn : n = wordsOf (word 0) := (wordsOf_eq (word 0)).symm
    rw [hn]
    refine ⟨Core.fetch_overlay ho, fun hx => ⟨fun hd => ?_, (Core.fetch_below ho hx).1⟩⟩
    refine ((Core.fetch_below ho hx).2 hd).trans ?_
    by_cases h2 : 2 ≤ (word 0).toNat / 2 ^ 30
    · have h1 : 1 < wordsOf (word 0) := Nat.lt_of_lt_of_le (by decide) (three_le_wordsOf h2)
      have hw : (fetchWords c.store a (wordsOf (word 0))).getD 1 0#32 = word 1 := by
        rw [List.getD_eq_getElem _ _ (by simpa [fetchWords] using h1)]
        simp [fetchWords, word]
      exact congrArg (fun v => some (Instr.illegalEncoding (word 0) v))
        ((if_pos ((two_le_length_iff _).1 h2)).trans (hw.trans (if_pos h2).symm))
    · exact congrArg (fun v => some (Instr.illegalEncoding (word 0) v))
        ((if_neg (mt (two_le_length_iff _).2 h2)).trans (if_neg h2).symm)
  case active =>
    intro f code w0 w1 s r st nd i h hg hrun ha hw hn hi p hp
    have hr := State.strand_of_issuing h
    have ends (cause : BitVec 5) (v : Word) (hx : exec p s = .next (s.raise r cause v)) :
        ∃ t, exec p s = .next t ∧ t.inst nd.inst = none ∧ t.strand r = none ∧ ∀ n, s.inst n = none → t.inst n = none :=
      ⟨_, hx, State.raise_ends cause v hw hr hrun ha hn hi⟩
    simp only [List.mem_cons, List.not_mem_nil, or_false] at hp
    rcases hp with rfl | rfl | rfl
    · exact ends 13 _ (State.issue_true f.len _ h hg)
    · exact ends 0 _ (State.issue_true 0 _ h rfl)
    · exact ends 2 _ (State.issue_true 0 _ h rfl)

end Sys2Proof.Machine
end

section
/-!
PROOF. O60. Every guarded form goes through `State.issue`, which on a false guard moves the pc alone (R83).
-/
namespace Sys2Proof.Machine

/-- Settles O60: class by class, the row's `State.issue` with its guard false. -/
theorem falseGuardMovesThePc : Obligations.FalseGuardMovesThePc := by
  unfold Obligations.FalseGuardMovesThePc
  intro f wf o a b c u v w x i j k z t x1 lit s r st h passed
  refine ⟨fun hg => ⟨?base, ?literal⟩, fun hg => ?window, fun hg => ⟨?ext, ?extLiteral⟩⟩
  all_goals
    simp only [List.forall_mem_cons, List.not_mem_nil, false_implies, implies_true, and_true]
    and_intros
  all_goals exact State.issue_false _ _ h hg

end Sys2Proof.Machine
end

section
/-!
PROOF. O20. A privileged form asks first whether its strand is privileged (R86).
-/
namespace Sys2Proof.Machine

/-- The PRIV trap of a privileged form, entered with ACTIVE clear. -/
theorem State.privilegedOnly_enter {s : State} {r : Nat} {st : Strand} {k : BitVec 13} {n : BitVec 3} (go : State)
    (hr : s.strand r = some st) (hl : st.loc = .slot k n) (ha : st.tcause.getLsbD 7 = false) (hp : st.image ≠ 0xFFFF) :
    s.privilegedOnly r st go = s.setStrand r
      { st with tpc := st.pc, tcause := 129, tval := 0, wait := .run, pc := BitVec.ofNat 32 ((s.core k).trapbase.toNat + 16) } := by
  have hbase : s.trapbaseOf st = (s.core k).trapbase := by simp [State.trapbaseOf, hl]
  have hpriv : st.privileged = false := beq_false_of_ne hp
  have hpc : (s.core k).trapbase + 16#32 * (1#5).zeroExtend 32 = BitVec.ofNat 32 ((s.core k).trapbase.toNat + 16) := by bv_omega
  rw [State.privilegedOnly, hpriv, if_neg Bool.false_ne_true, State.raise_enter 1#5 0 hr ha, hbase, hpc]
  rfl

/-- Settles O20: each row is a `State.issue` of a `State.privilegedOnly`. -/
theorem privilegedForms : Obligations.PrivilegedForms := by
  unfold Obligations.PrivilegedForms
  intro f a b c x s r st k n h hg hl ha hp
  simp only [List.forall_mem_cons, List.not_mem_nil, false_implies, implies_true, and_true]
  and_intros
  all_goals exact (State.issue_true f.len _ h hg).trans (congrArg _ (State.privilegedOnly_enter _ (State.strand_of_issuing h) hl ha hp))

end Sys2Proof.Machine
end

section
/-!
PROOF. O2. The formulas of the one-source, immediate and constant instructions, then their rows.
-/
namespace Sys2Proof.Machine

/-! ### Extension and insertion of low bits (R111, R115) -/

theorem sextLow_eq (a : Word) {w : Nat} (h : w ≤ 64) (hw : 0 < w) : sextLow a w = (a.setWidth w).signExtend 64 := by
  refine BitVec.eq_of_getLsbD_eq fun i hi => ?_
  have hmsb : (a <<< (64 - w)).msb = (a.setWidth w).msb := by
    rw [BitVec.msb_eq_getLsbD_last, BitVec.msb_eq_getLsbD_last, BitVec.getLsbD_shiftLeft, BitVec.getLsbD_setWidth]
    rw [show 64 - 1 - (64 - w) = w - 1 by omega]
    simp [show w - 1 < w by omega, show ¬ 64 - 1 < 64 - w by omega]
  rw [sextLow, BitVec.getLsbD_sshiftRight, BitVec.getLsbD_signExtend, hmsb]
  by_cases hlow : i < w
  · simp [hi, hlow, show 64 - w + i < 64 by omega]
  · simp [hi, hlow, show ¬ 64 - w + i < 64 by omega]

theorem zextLow_eq (a : Word) {w : Nat} (h : w ≤ 64) : zextLow a w = BitVec.ofNat 64 (a.toNat % 2 ^ w) := by
  have hpow : (2 : Nat) ^ 64 = 2 ^ w * 2 ^ (64 - w) := by rw [← pow_add]; congr 1; omega
  apply BitVec.eq_of_toNat_eq
  rw [zextLow, BitVec.toNat_ushiftRight, BitVec.toNat_shiftLeft, Nat.shiftLeft_eq, Nat.shiftRight_eq_div_pow, BitVec.toNat_ofNat,
    Nat.mod_eq_of_lt (a := a.toNat % 2 ^ w) (lt_of_le_of_lt (Nat.mod_le ..) a.isLt), hpow, Nat.mul_mod_mul_right,
    Nat.mul_div_cancel _ (by positivity)]

theorem setWidth_ushiftRight (a : Word) (pos n : Nat) : (a >>> pos).setWidth n = a.extractLsb' pos n := by
  ext i hi
  simp

theorem bitInsert_getLsbD (d a : Word) {pos len i : Nat} (hlen : len ≤ 64) (hi : i < 64) :
    (bitInsert d a pos len).getLsbD i = if pos ≤ i ∧ i < pos + len then a.getLsbD (i - pos) else d.getLsbD i := by
  have hmask : ((BitVec.allOnes 64 >>> (64 - len)) <<< pos).getLsbD i = decide (pos ≤ i ∧ i < pos + len) := by
    simp only [BitVec.getLsbD_shiftLeft, BitVec.getLsbD_ushiftRight, BitVec.getLsbD_allOnes, hi, decide_true, Bool.true_and]
    grind
  rw [bitInsert, BitVec.getLsbD_or, BitVec.getLsbD_and, BitVec.getLsbD_and, BitVec.getLsbD_not, hmask, BitVec.getLsbD_shiftLeft]
  by_cases h : pos ≤ i ∧ i < pos + len
  · simp [h, hi]
  · simp [h, hi]

/-! ### One-source formulas (R111) -/

theorem size_eq_log2 {n : Nat} (h : n ≠ 0) : Nat.size n = Nat.log2 n + 1 := by
  obtain ⟨hle, hlt⟩ := (Nat.log2_eq_iff h).1 rfl
  exact le_antisymm (Nat.size_le.2 hlt) (Nat.lt_size.2 hle)

theorem clz64_eq (a : Word) : clz64 a = BitVec.ofNat 64 (64 - Nat.size a.toNat) := by
  unfold clz64
  split
  · next h => simp [h]
  · next h =>
    rw [size_eq_log2 (fun e => h (BitVec.eq_of_toNat_eq e))]
    exact congrArg _ (by omega)

theorem popcount_eq (a n : Nat) : popcount a n = (List.range n).countP a.testBit := by
  induction n with
  | zero => rfl
  | succ n ih =>
    rw [popcount, ih, List.range_succ, List.countP_append, Nat.add_comm]
    cases h : a.testBit n <;> simp [h]

/-- A number whose set bits are those below `k` counts them. -/
theorem popcount_low {a k : Nat} (n : Nat) (h : ∀ i < n, a.testBit i = decide (i < k)) : popcount a n = min n k := by
  induction n with
  | zero => simp [popcount]
  | succ n ih =>
    rw [popcount, ih fun i hi => h i (Nat.lt_succ_of_lt hi), h n n.lt_succ_self]
    by_cases hk : n < k
    · simp [hk]; omega
    · simp [hk]; omega

/-- `(a - 1) & ~a` holds the bits below the lowest set bit of `a`. -/
theorem testBit_pred_and_not {k m i : Nat} :
    ((2 ^ k * (2 * m + 1) - 1).testBit i && !(2 ^ k * (2 * m + 1)).testBit i) = decide (i < k) := by
  have hpos : 0 < 2 ^ k := Nat.two_pow_pos k
  have hpred : 2 ^ k * (2 * m + 1) - 1 = 2 ^ k * (2 * m) + (2 ^ k - 1) := by rw [Nat.mul_add]; omega
  have hself : 2 ^ k * (2 * m + 1) = 2 ^ k * (2 * m + 1) + 0 := rfl
  rw [hpred, hself, Nat.testBit_two_pow_mul_add _ (by omega), Nat.testBit_two_pow_mul_add _ hpos]
  by_cases h : i < k
  · simp [h]
  · cases hj : i - k with
    | zero => simp [h]
    | succ j =>
      have hodd : (2 * m + 1) / 2 = m := by omega
      simp [h, Nat.testBit_succ, hodd]

theorem ctz64_eq (a : Word) : ctz64 a = if a = 0 then 64 else BitVec.ofNat 64 (padicValNat 2 a.toNat) := by
  split
  · next h => rw [h]; decide
  · next h =>
    have hne : a.toNat ≠ 0 := fun e => h (BitVec.eq_of_toNat_eq e)
    obtain ⟨k, n, ⟨m, rfl⟩, ha⟩ := Nat.exists_eq_two_pow_mul_odd hne
    have hk : k < 64 := by
      have hle : 2 ^ k ≤ a.toNat := ha ▸ Nat.le_mul_of_pos_right _ (by omega)
      exact (Nat.pow_lt_pow_iff_right (by decide)).1 (lt_of_le_of_lt hle a.isLt)
    have hval : padicValNat 2 a.toNat = k := by
      rw [ha, padicValNat_base_pow_mul (by decide) (by omega), padicValNat.eq_zero_of_not_dvd (by omega), Nat.zero_add]
    have hbits (i : Nat) (hi : i < 64) : ((a - 1) &&& ~~~a).toNat.testBit i = decide (i < k) := by
      have hpred : (a - 1).toNat = a.toNat - 1 := by
        change (a - 1#64).toNat = _
        bv_omega
      rw [BitVec.testBit_toNat, BitVec.getLsbD_and, BitVec.getLsbD_not, ← BitVec.testBit_toNat, ← BitVec.testBit_toNat, hpred, ha,
        decide_eq_true hi, Bool.true_and, testBit_pred_and_not]
    rw [ctz64, popcount_low 64 hbits, hval, Nat.min_eq_right hk.le]

theorem bitrev64_eq (a : Word) : bitrev64 a = a.reverse := by
  refine BitVec.eq_of_getLsbD_eq fun i hi => ?_
  rw [bitrev64, BitVec.getLsbD_ofFnLE, BitVec.getLsbD_reverse, BitVec.getMsbD_eq_getLsbD]
  simp [hi]

theorem abs_eq (a : Word) : (if a.msb then -a else a) = BitVec.ofInt 64 |a.toInt| := by
  cases h : a.msb
  · have hpos : 0 ≤ a.toInt := by simpa [BitVec.msb_eq_toInt] using h
    rw [abs_of_nonneg hpos, BitVec.ofInt_toInt]
    rfl
  · have hneg : a.toInt < 0 := by simpa [BitVec.msb_eq_toInt] using h
    rw [abs_of_neg hneg, BitVec.ofInt_neg, BitVec.ofInt_toInt]
    rfl

/-! ### Shifts and bits (R113, R118) -/

theorem shiftLeft_eq_ofNat (a : Word) (n : Nat) : a <<< n = BitVec.ofNat 64 (a.toNat * 2 ^ n) := by
  apply BitVec.eq_of_toNat_eq
  simp [Nat.shiftLeft_eq]
theorem ushiftRight_eq_ofNat (a : Word) (n : Nat) : a >>> n = BitVec.ofNat 64 (a.toNat / 2 ^ n) := by
  apply BitVec.eq_of_toNat_eq
  have := Nat.div_le_self a.toNat (2 ^ n)
  rw [BitVec.toNat_ushiftRight, Nat.shiftRight_eq_div_pow, BitVec.toNat_ofNat, Nat.mod_eq_of_lt (by omega)]
theorem sshiftRight_eq_ofInt (a : Word) (n : Nat) : a.sshiftRight n = BitVec.ofInt 64 (a.toInt / 2 ^ n) := by
  rw [BitVec.sshiftRight, Int.shiftRight_eq_div_pow]
  simp
theorem oneBit_eq (n : Nat) : 1#64 <<< n = BitVec.ofNat 64 (2 ^ n) := by
  rw [shiftLeft_eq_ofNat]
  simp
theorem ushiftRight_toNat_mod (a : Word) (n w : Nat) : (a >>> n).toNat % 2 ^ w = a.toNat / 2 ^ n % 2 ^ w := by
  rw [BitVec.toNat_ushiftRight, Nat.shiftRight_eq_div_pow]

/-! ### Pointers and constants (R114, R119, R120) -/

theorem append_low_eq (imm : BitVec 20) (a : Word) :
    imm ++ a.extractLsb' 0 44 = BitVec.ofNat 64 (imm.toNat * 2 ^ 44 + a.toNat % 2 ^ 44) := by
  apply BitVec.eq_of_toNat_eq
  have hval : (imm ++ a.extractLsb' 0 44).toNat = imm.toNat * 2 ^ 44 + a.toNat % 2 ^ 44 := by
    rw [toNat_append_add, BitVec.extractLsb'_toNat, Nat.shiftRight_zero, Nat.mul_comm]
  rw [BitVec.toNat_ofNat, ← hval]
  exact (Nat.mod_eq_of_lt (imm ++ a.extractLsb' 0 44).isLt).symm
theorem setGen_inc (a : Word) : setGen a (Handle.gen a + 1) = a + BitVec.ofNat 64 (2 ^ 52) := by
  have hval : (setGen a (Handle.gen a + 1)).toNat = 2 ^ 52 * ((a.toNat / 2 ^ 52 % 2 ^ 12 + 1) % 2 ^ 12) + a.toNat % 2 ^ 52 := by
    rw [setGen, toNat_append_add, BitVec.toNat_add, Handle.gen, BitVec.extractLsb'_toNat, BitVec.extractLsb'_toNat,
      Nat.shiftRight_eq_div_pow, Nat.shiftRight_zero]
    rfl
  apply BitVec.eq_of_toNat_eq
  rw [hval, BitVec.toNat_add, BitVec.toNat_ofNat]
  have := a.isLt
  simp only [Nat.reducePow, Nat.reduceMod] at this ⊢
  omega
theorem block_eq_ofNat (a : Word) : a &&& ~~~0xFFF#64 = BitVec.ofNat 64 (a.toNat / 4096 * 4096) := by
  rw [← Handle.block_eq]
  apply BitVec.eq_of_toNat_eq
  simp only [Handle.block, toNat_append_add, BitVec.extractLsb'_toNat, BitVec.toNat_ofNat, Nat.shiftRight_eq_div_pow]
  have := a.isLt
  omega
theorem padd49_eq (a x : Word) : padd49 a x = BitVec.ofNat 64 (a.toNat / 2 ^ 49 * 2 ^ 49 + (a + x).toNat % 2 ^ 49) := by
  apply BitVec.eq_of_toNat_eq
  simp only [padd49, toNat_append_add, BitVec.toNat_add, BitVec.extractLsb'_toNat, BitVec.toNat_ofNat, Nat.shiftRight_eq_div_pow]
  have := a.isLt
  omega
theorem extractLsb'_eq_ofNat (a : Word) (pos n : Nat) :
    (a.extractLsb' pos n).zeroExtend 64 = BitVec.ofNat 64 (a.toNat / 2 ^ pos % 2 ^ n) := by
  apply BitVec.eq_of_toNat_eq
  rw [BitVec.zeroExtend, BitVec.toNat_setWidth, BitVec.extractLsb'_toNat, Nat.shiftRight_eq_div_pow, BitVec.toNat_ofNat]

theorem handleField_eq (a : Word) (sel : BitVec 4) : handleField a sel = BitVec.ofNat 64 (match sel.toNat with
    | 0 => a.toNat / 2 ^ 52
    | 1 => a.toNat / 2 ^ 49 % 2 ^ 3
    | 2 => a.toNat / 2 ^ 12 % 2 ^ 37
    | 3 => a.toNat % 2 ^ 12
    | 4 => a.toNat / 2 ^ 30 % 2 ^ 8
    | 5 => a.toNat / 2 ^ 27 % 2 ^ 3
    | 6 => a.toNat / 2 ^ 21 % 2 ^ 6
    | _ => a.toNat / 2 ^ 12 % 2 ^ 9) := by
  have hgen : a.toNat / 2 ^ 52 = a.toNat / 2 ^ 52 % 2 ^ 12 := by omega
  have hoff : a.toNat % 2 ^ 12 = a.toNat / 2 ^ 0 % 2 ^ 12 := by omega
  rw [hgen, hoff]
  unfold handleField
  generalize sel.toNat = n
  rcases n with _ | _ | _ | _ | _ | _ | _ | n <;> exact extractLsb'_eq_ofNat ..

/-! ### Rows -/

/-- An instruction whose effect is on its own strand, as one next state. -/
theorem State.issueOwn_next {s : State} {r : Nat} {st : Strand} (g : Option Guard) (len : Nat) (rd : BitVec 4) (v : Strand → Word)
    (h : s.issuing = some (r, st)) :
    s.issueOwn g len (fun st => st.setReg rd (v st)) = .next (s.setStrand r
      (if st.guardOk g then { st with regs := st.regs.set rd.toNat (v st) rd.isLt, pc := st.pc + BitVec.ofNat 32 len }
        else { st with pc := st.pc + BitVec.ofNat 32 len })) := by
  cases hg : st.guardOk g
  · exact State.issue_false len _ h hg
  · exact State.issue_true len _ h hg

/-- A row with one source: its operation is the formula of its rule. -/
theorem State.rri_next {op formula : Word → Word} (hop : ∀ a, op a = formula a) (f : Form) (rd ra : BitVec 4) {s : State} {r : Nat}
    {st : Strand} (h : s.issuing = some (r, st)) : s.rri f rd ra op = .next (s.setStrand r
      (if st.guardOk f.gd then
        { st with regs := st.regs.set rd.toNat (formula (st.reg ra)) rd.isLt, pc := st.pc + BitVec.ofNat 32 f.len }
      else { st with pc := st.pc + BitVec.ofNat 32 f.len })) := by
  rw [← hop]
  exact State.issueOwn_next f.gd f.len rd (fun st => op (st.reg ra)) h

/-- Settles O2: the first list by the formula lemma of each row, the second by `State.issueOwn_next`. -/
theorem oneSourceAndConstantResults : Obligations.OneSourceAndConstantResults := by
  unfold Obligations.OneSourceAndConstantResults
  refine ⟨?source, ?constant⟩
  case source =>
    intro w n bit imm
    have hw : w.toNat + 1 ≤ 64 := w.isLt
    simp only [List.forall_mem_cons, List.not_mem_nil, false_implies, implies_true, and_true]
    and_intros
    all_goals intro f rd ra s r st h
    · exact State.rri_next clz64_eq f rd ra h
    · exact State.rri_next ctz64_eq f rd ra h
    · exact State.rri_next (fun a => congrArg _ (popcount_eq a.toNat 64)) f rd ra h
    · exact State.rri_next bitrev64_eq f rd ra h
    · exact State.rri_next abs_eq f rd ra h
    · exact State.issueOwn_next f.gd f.len rd (fun st => st.reg ra) h
    · exact State.rri_next (fun a => sextLow_eq a hw w.toNat.succ_pos) f rd ra h
    · exact State.rri_next (fun a => zextLow_eq a hw) f rd ra h
    · exact State.issueOwn_next f.gd f.len rd (fun st => st.reg ra + imm.signExtend 64) h
    · exact State.issueOwn_next f.gd f.len rd (fun st => st.reg ra &&& imm.signExtend 64) h
    · exact State.issueOwn_next f.gd f.len rd (fun st => st.reg ra ||| imm.signExtend 64) h
    · exact State.issueOwn_next f.gd f.len rd (fun st => st.reg ra ^^^ imm.signExtend 64) h
    · exact State.rri_next (fun a => shiftLeft_eq_ofNat a n.toNat) f rd ra h
    · exact State.rri_next (fun a => ushiftRight_eq_ofNat a n.toNat) f rd ra h
    · exact State.rri_next (fun a => sshiftRight_eq_ofInt a n.toNat) f rd ra h
    · exact State.issueOwn_next f.gd f.len rd (fun st => (st.reg ra).rotateRight n.toNat) h
    · exact State.rri_next (fun a => (sextLow_eq _ hw w.toNat.succ_pos).trans
        (congrArg _ (setWidth_ushiftRight a n.toNat (w.toNat + 1)))) f rd ra h
    · exact State.rri_next (fun a => (zextLow_eq _ hw).trans (congrArg _ (ushiftRight_toNat_mod a n.toNat (w.toNat + 1)))) f rd ra h
    · exact State.rri_next (fun a => congrArg (a ||| ·) (oneBit_eq bit.toNat)) f rd ra h
    · exact State.rri_next (fun a => congrArg (a &&& ~~~·) (oneBit_eq bit.toNat)) f rd ra h
    · exact State.rri_next (fun a => congrArg (a ^^^ ·) (oneBit_eq bit.toNat)) f rd ra h
    · exact State.rri_next setGen_inc f rd ra h
    · exact State.rri_next block_eq_ofNat f rd ra h
    · exact State.rri_next (fun a => padd49_eq a (imm.signExtend 64)) f rd ra h
  case constant =>
    intro f rd ra rb sel pos len1 bit imm lit
    have hbfi (st : Strand) : bitInsert (st.reg rd) (st.reg ra) pos.toNat (len1.toNat + 1) = BitVec.ofFnLE fun i : Fin 64 =>
        if pos.toNat ≤ i.val ∧ i.val < pos.toNat + len1.toNat + 1 then (st.reg ra).getLsbD (i.val - pos.toNat)
        else (st.reg rd).getLsbD i.val := BitVec.eq_of_getLsbD_eq fun i hi => by
      rw [bitInsert_getLsbD _ _ (Nat.succ_le_of_lt len1.isLt) hi, BitVec.getLsbD_ofFnLE, dif_pos hi]
      rfl
    simp only [List.forall_mem_cons, List.not_mem_nil, false_implies, implies_true, and_true]
    and_intros
    all_goals intro s r st h
    · exact State.issueOwn_next f.gd f.litLen rd (fun st => st.reg ra + lit) h
    · exact State.issueOwn_next f.gd f.litLen rd (fun st => st.reg ra &&& lit) h
    · exact State.issueOwn_next f.gd f.litLen rd (fun st => st.reg ra ||| lit) h
    · exact State.issueOwn_next f.gd f.litLen rd (fun st => st.reg ra ^^^ lit) h
    · exact State.issueOwn_next f.gd f.litLen rd (fun _ => lit) h
    · exact State.issueOwn_next f.gd f.len rd (fun _ => imm.signExtend 64) h
    · exact State.rri_next (fun a => append_low_eq imm a) f rd rd h
    · rw [← hbfi]
      exact State.issueOwn_next f.gd f.len rd (fun st => bitInsert (st.reg rd) (st.reg ra) pos.toNat (len1.toNat + 1)) h
    · exact State.issueOwn_next f.gd f.len rd (fun st => if (st.reg rd).getLsbD bit.toNat then st.reg ra else st.reg rb) h
    · exact State.rri_next (fun a => handleField_eq a sel) f rd ra h

end Sys2Proof.Machine
end

section
/-!
PROOF. O8. Accesses to the core-private store, and the laws of a byte memory.
-/
namespace Sys2Proof.Machine

/-! ### The data of a memory (R2) -/

theorem Memory.wf_tail {a : Nat} {w : Byte} {r : Memory} (h : Memory.wf ((a, w) :: r) = true) :
    Maps.above a r ∧ w ≠ 0 ∧ Memory.wf r = true := by
  obtain ⟨hkeys, hbytes⟩ := (Memory.wf_iff _).1 h
  obtain ⟨ha, hr⟩ := (Maps.wf_cons a w r).1 hkeys
  exact ⟨ha, hbytes _ (List.mem_cons_self ..), (Memory.wf_iff r).2 ⟨hr, fun c hc => hbytes c (List.mem_cons_of_mem _ hc)⟩⟩

theorem Mem.byte_above {r : Memory} {a k : Nat} (h : Maps.above a r) (hk : k ≤ a) : Mem.byte r k = 0 := by
  rw [Mem.byte, Maps.getD, Maps.above_get r a k h hk]
  rfl
theorem Mem.byte_cons_same (a : Nat) (w : Byte) (r : Memory) : Mem.byte ((a, w) :: r) a = w := by
  simp [Mem.byte, Maps.getD, Maps.get]
theorem Mem.byte_cons_other {a k : Nat} (w : Byte) (r : Memory) (h : a ≠ k) : Mem.byte ((a, w) :: r) k = Mem.byte r k := by
  simp [Mem.byte, Maps.getD, Maps.get, h]
theorem Mem.byte_cons_below {a k : Nat} {w : Byte} {r : Memory} (h : Memory.wf ((a, w) :: r) = true) (hk : k < a) :
    Mem.byte ((a, w) :: r) k = 0 := by
  rw [Mem.byte_cons_other w r (Nat.ne_of_gt hk)]
  exact Mem.byte_above (Memory.wf_tail h).1 hk.le

/-- A memory in canonical form is given by its bytes. -/
theorem Memory.ext_byte {m m' : Memory} (h : Memory.wf m = true) (h' : Memory.wf m' = true) (he : ∀ k, Mem.byte m k = Mem.byte m' k) :
    m = m' := by
  induction m generalizing m' with
  | nil =>
    cases m' with
    | nil => rfl
    | cons p r' => exact absurd ((Mem.byte_cons_same p.1 p.2 r').symm.trans (he p.1).symm) (Memory.wf_tail h').2.1
  | cons p r ih =>
    obtain ⟨a, w⟩ := p
    obtain ⟨habove, hw, hr⟩ := Memory.wf_tail h
    cases m' with
    | nil => exact absurd ((Mem.byte_cons_same a w r).symm.trans (he a)) hw
    | cons p' r' =>
      obtain ⟨a', w'⟩ := p'
      obtain ⟨habove', hw', hr'⟩ := Memory.wf_tail h'
      have hkey : a = a' := by
        rcases Nat.lt_trichotomy a a' with hlt | heq | hgt
        · exact absurd ((Mem.byte_cons_same a w r).symm.trans ((he a).trans (Mem.byte_cons_below h' hlt))) hw
        · exact heq
        · exact absurd ((Mem.byte_cons_same a' w' r').symm.trans ((he a').symm.trans (Mem.byte_cons_below h hgt))) hw'
      subst hkey
      have hbyte : w = w' := by simpa [Mem.byte_cons_same] using he a
      have htail : r = r' := ih hr hr' fun k => by
        by_cases hk : a = k
        · rw [← hk, Mem.byte_above habove le_rfl, Mem.byte_above habove' le_rfl]
        · rw [← Mem.byte_cons_other w r hk, he k, Mem.byte_cons_other w' r' hk]
      rw [hbyte, htail]

/-! ### Accesses (R127) -/

section
variable {s : State} {r : Nat} {st : Strand} {a : Word} {n : Nat} (go : Core → State)

theorem State.localAccess_ok (h : a.toNat % n = 0 ∧ (s.core st.home).xb.toNat ≤ a.toNat ∧ a.toNat + n ≤ 0x8000) :
    s.localAccess r st a n go = go (s.core st.home) := by
  obtain ⟨hal, hxb, htop⟩ := h
  simp [State.localAccess, hal, Nat.not_lt.2 hxb, Nat.not_lt.2 htop]
theorem State.localAccess_align (h : a.toNat % n ≠ 0) : s.localAccess r st a n go = s.raise r 3 a := by
  simp [State.localAccess, h]
theorem State.localAccess_priv (hal : a.toNat % n = 0)
    (h : ¬(a.toNat % n = 0 ∧ (s.core st.home).xb.toNat ≤ a.toNat ∧ a.toNat + n ≤ 0x8000)) :
    s.localAccess r st a n go = s.raise r 1 a := by
  have hout : a.toNat < (s.core st.home).xb.toNat ∨ 0x8000 < a.toNat + n := by omega
  simp [State.localAccess, hal, hout]

end

/-- A window instruction whose one index is in range goes on. -/
theorem State.issueW_index {s : State} {r : Nat} {st : Strand} {f : WForm} {ixs : Strand → List Word} {i : Word} (eff : Nat → Strand → State)
    (h : s.issuing = some (r, st)) (hg : st.guardOk f.gd = true) (hi : ixs st = [i]) (hw : i.toNat < st.words) :
    s.issueW f ixs eff = .next (eff r st) := by
  rw [State.issueW, State.issue_true f.len _ h hg, hi]
  simp [Strand.badIndex, hw]

/-- Settles O8: each access by the three cases of `State.localAccess`, the memory by `Mem.byte_setBytes` and `Memory.ext_byte`. -/
theorem coreStoreAccessAndReadBack : Obligations.CoreStoreAccessAndReadBack := by
  unfold Obligations.CoreStoreAccessAndReadBack
  refine ⟨?access, ?memory⟩
  case access =>
    intro f wf sz rd ra wd imm s r st h a k n w past wpast legal
    simp only [List.forall_mem_cons, List.not_mem_nil, false_implies, implies_true, and_true]
    refine ⟨fun hg => ?register, fun hg hw => ?window⟩
    case register =>
      refine ⟨fun hl => ⟨?_, ?_, ?_⟩, fun ha => ⟨?_, ?_, ?_⟩, fun ha hl => ⟨?_, ?_, ?_⟩⟩
      iterate 3 exact (State.issue_true f.len _ h hg).trans (congrArg _ (State.localAccess_ok _ hl))
      iterate 3 exact (State.issue_true f.len _ h hg).trans (congrArg _ (State.localAccess_align _ ha))
      iterate 3 exact (State.issue_true f.len _ h hg).trans (congrArg _ (State.localAccess_priv _ ha hl))
    case window =>
      refine ⟨fun hl => ⟨?_, ?_⟩, fun ha => ⟨?_, ?_⟩, fun ha hl => ⟨?_, ?_⟩⟩
      iterate 2 exact (State.issueW_index _ h hg rfl hw).trans (congrArg _ (State.localAccess_ok _ hl))
      iterate 2 exact (State.issueW_index _ h hg rfl hw).trans (congrArg _ (State.localAccess_align _ ha))
      iterate 2 exact (State.issueW_index _ h hg rfl hw).trans (congrArg _ (State.localAccess_priv _ ha hl))
  case memory =>
    intro m a bs hm
    refine ⟨fun i hi => ?_, fun k hk => ?_, Mem.wf_setBytes m a bs hm, fun m' hm' he => Memory.ext_byte hm hm' he⟩
    · rw [Mem.byte_setBytes bs m a _ hm, if_pos (by omega), Nat.add_sub_cancel_left, List.getD_eq_getElem _ _ hi]
    · rw [Mem.byte_setBytes bs m a k hm, if_neg (by omega)]

end Sys2Proof.Machine
end

section
/-!
PROOF. O9. Each posting instruction is `State.posted` of its operations, once its checks have passed.
-/
namespace Sys2Proof.Machine

/-- What a posting instruction leaves, as `State.posted_spec` says. -/
def State.PostsAll (s t : State) (r : Nat) (st : Strand) (p : Place) (b : BitVec 2) (ra : BitVec 4) (upd : Word)
    (ops : List (OpKind × Word)) (len : Nat) : Prop :=
  t.strand r = some { st with regs := st.regs.set ra.toNat upd ra.isLt, pc := st.pc + BitVec.ofNat 32 len,
                              opens := st.opens ||| (1#4 <<< b.toNat) } ∧
  (∀ k (hk : k < ops.length), t.onWay (s.fresh + k)
    { kind := ops[k].1, h := ops[k].2, place := p, unit := unitCore st.home,
      seq := Maps.getD s.seqs (unitCore st.home) 0 + BitVec.ofNat 64 k, asker := .batch, tracker := st.tracker, batch := b,
      ordinal := BitVec.ofNat 32 (((Maps.getD s.trackers st.tracker Tracker.zero).get b).next + k), node := st.node }) ∧
  (∀ q, q ≠ r → t.strand q = s.strand q) ∧ t.hbm = s.hbm ∧ t.cores = s.cores ∧ t.clusters = s.clusters

/-- The row index of an offset. -/
theorem Handle.row_toNat (h : Word) : ((Handle.off h).extractLsb' 7 5).toNat = (Handle.off h).toNat / 128 := by
  have := (Handle.off h).isLt
  rw [BitVec.extractLsb'_toNat, Nat.shiftRight_eq_div_pow]
  omega

/-- The pattern in every 8-byte unit of a row (R214). -/
def fillPattern (w : Word) : Payload := BitVec.ofNat 32768 ((List.range 16).map fun j => w.toNat * 2 ^ (64 * j)).sum

/-- The writes of a fill, one for each row (R214). -/
def fillOps (h w : Word) (rows : Nat) : List (OpKind × Word) := (List.range rows).map fun k =>
  (.write (Handle.off (padd49 h (BitVec.ofNat 64 (128 * k)))) 128 (fillPattern w) false, padd49 h (BitVec.ofNat 64 (128 * k)))

section
variable {s : State} {r : Nat} {st : Strand} {p : Place} {o : XOp} {len : Nat} {perm : BitVec 4} (h : s.issuing = some (r, st))
include h

/-- `ea` aligned, translated and with room at the home: the operations are posted. -/
theorem State.withEa_posts {size : Nat} (ops : Ea → List (OpKind × Word)) (hne : ops (st.ea o size) ≠ [])
    (ha : (Handle.off (st.ea o size).h).toNat % size = 0) (hx : s.xlate (coreCluster st.home) true (st.ea o size).h perm = .ok p)
    (hr : s.roomFor (unitCore st.home) (homeOf p) (ops (st.ea o size)).length = true) :
    s.PostsAll (s.withEa r st o size fun e => s.posted r st o e perm (ops e) len) r st p (st.batchFor o) o.ra (st.ea o size).upd
      (ops (st.ea o size)) len := by
  rw [State.withEa_ok _ ha]
  exact State.posted_spec s r st o (st.ea o size) perm _ len p h hne hx hr

/-- A fill whose rows lie in the block posts one write for each. -/
theorem State.fillRows_posts (w : Word) (hin : (Handle.off (st.ea o 128).h).toNat / 128 + (o.imm6.toNat + 1) ≤ 32)
    (ha : (Handle.off (st.ea o 128).h).toNat % 128 = 0) (hx : s.xlate (coreCluster st.home) true (st.ea o 128).h permW = .ok p)
    (hr : s.roomFor (unitCore st.home) (homeOf p) (fillOps (st.ea o 128).h w (o.imm6.toNat + 1)).length = true) :
    s.PostsAll (s.fillRows r st o w len) r st p (st.batchFor o) o.ra
      (if o.am = 2 then padd49 (st.reg o.ra) (BitVec.ofNat 64 (128 * (o.imm6.toNat + 1))) else (st.ea o 128).upd)
      (fillOps (st.ea o 128).h w (o.imm6.toNat + 1)) len := by
  have hne : fillOps (st.ea o 128).h w (o.imm6.toNat + 1) ≠ [] := by simp [fillOps]
  rw [State.fillRows, State.withEa_ok _ ha, Handle.row_toNat, if_neg (Nat.not_lt.2 hin), pattern_eq]
  exact State.posted_spec s r st o _ permW _ len p h hne hx hr

end

/-- Settles O9: row by row, the checks of the instruction, then `State.posted_spec`. -/
theorem postedOperations : Obligations.PostedOperations := by
  unfold Obligations.PostedOperations
  intro o lit s r st p h hg b rows e row pattern fill src tag q
  simp only [List.forall_mem_cons, List.not_mem_nil, false_implies, implies_true, and_true]
  and_intros
  case _ => -- ST
    intro _ ha hx hr
    exact ⟨_, State.issueX_true _ h hg, State.withEa_posts h _ (List.cons_ne_nil _ _) ha hx hr⟩
  case _ => -- STV
    intro ht ha hx hr
    exact ⟨_, (State.issueX_true _ h hg).trans (congrArg _ (if_neg (bne_iff_ne.1 ht))), State.withEa_posts h _ (List.cons_ne_nil _ _) ha hx hr⟩
  case _ => -- FILL
    intro hin ha hx hr
    exact ⟨_, State.issueX_true _ h hg, State.fillRows_posts h (st.reg o.rb) (of_decide_eq_true hin) ha hx hr⟩
  case _ => -- FILL with a literal
    intro hin ha hx hr
    exact ⟨_, State.issue_true 20 _ h hg, State.fillRows_posts h lit (of_decide_eq_true hin) ha hx hr⟩
  iterate 3 -- SEAL, SEALE, REL
    intro _ ha hx hr
    exact ⟨_, State.issueX_true _ h hg, State.withEa_posts h _ (List.cons_ne_nil _ _) ha hx hr⟩
  case _ => -- ACC
    intro ht ha hx hr
    obtain ⟨hset, htag⟩ := Bool.and_eq_true_iff.1 ht
    have hmis : ¬(st.tag (low3 o.rd) != tagOf o.fmt 0) = true := ne_of_eq_of_ne (bne_eq_false_iff_eq.2 (eq_of_beq htag)) Bool.false_ne_true
    exact ⟨_, (State.issueX_true _ h hg).trans (congrArg _ ((if_neg (bne_iff_ne.1 hset)).trans (if_neg hmis))),
      State.withEa_posts h _ (List.cons_ne_nil _ _) ha hx hr⟩

end Sys2Proof.Machine
end

section
/-!
PROOF. O27. Each block access is one checked access: ALIGN, translation, room at the home; and the traps of its reply.
-/
namespace Sys2Proof.Machine

/-! ### The checks before an access (R91, R229, R231, R255) -/

/-- The block access of an instruction: ALIGN unless the handle is aligned and the access `fits`, then the translation, then the room
for `n` operations. -/
def State.checkedAccess (s : State) (r : Nat) (st : Strand) (h : Word) (size : Nat) (perm : BitVec 4) (fits : Bool) (n : Nat)
    (go : Place → State) : State :=
  if (Handle.off h).toNat % size ≠ 0 ∨ fits = false then s.raise r 3 h
  else s.access r st h perm fun p => s.ifRoom r st p n (go p)

section
variable {s : State} {r : Nat} {st : Strand} {h : Word} {size n : Nat} {perm : BitVec 4} {fits : Bool} {go : Place → State}

theorem State.checkedAccess_align (ha : (Handle.off h).toNat % size ≠ 0 ∨ fits = false) :
    s.checkedAccess r st h size perm fits n go = s.raise r 3 h := if_pos ha

theorem State.checkedAccess_fits (ha : (Handle.off h).toNat % size = 0) (hf : fits = true) :
    s.checkedAccess r st h size perm fits n go = s.access r st h perm fun p => s.ifRoom r st p n (go p) :=
  if_neg (by simp [ha, hf])

theorem State.access_miss {go : Place → State} (hx : s.xlate (coreCluster st.home) true h perm = .miss) :
    s.access r st h perm go = s.setStrand r { st with wait := .walk h perm } := by
  rw [State.access, hx]
theorem State.access_fault {go : Place → State} (hx : s.xlate (coreCluster st.home) true h perm = .fault) :
    s.access r st h perm go = s.toFaultQueue r h (.perm perm) := by
  rw [State.access, hx]
theorem State.access_migrate {go : Place → State} {c : BitVec 9} (hx : s.xlate (coreCluster st.home) true h perm = .migrate c) :
    s.access r st h perm go = if st.anch then s.raise r 10#5 h else if s.migrationBlocked st then s.retry r else s.migrate r c := by
  rw [State.access, hx]

theorem State.retry_eq (hr : s.strand r = some st) : s.retry r =
    s.setCore st.home { s.core st.home with perf0 := (s.core st.home).perf0 - 1, perf1 := (s.core st.home).perf1 + 1 } := by
  rw [State.retry, hr]

/-- A handle of another cluster's scratchpad names a cluster in service (R20). -/
theorem State.inService_of_migrate {k c : BitVec 9} (hx : s.xlate k true h perm = .migrate c) : s.inService c = true := by
  unfold State.xlate at hx
  split at hx
  · split at hx
    · rw [State.granted] at hx
      split at hx <;> cases hx
    · cases hx
  · split at hx
    · split at hx
      · cases hx
      · next d slot hp =>
        split at hx
        · cases hx
        · cases hx
          unfold State.padPlace at hp
          simp only [Option.ite_none_right_eq_some, Bool.and_eq_true] at hp
          obtain ⟨⟨⟨_, hin⟩, _⟩, hpad⟩ := hp
          cases hpad
          exact hin
      · cases hx
    · cases hx

/-- A strand that migrates to a cluster in service leaves its slot, its pc unchanged, and no other strand moves (R231). -/
theorem State.migrate_strand {c : BitVec 9} (hr : s.strand r = some st) (hin : s.inService c = true) :
    (s.migrate r c).strand r = some { st with loc := .migrating c st.home, wait := .run, bound := false, core := st.home } ∧
      ∀ q, q ≠ r → (s.migrate r c).strand q = s.strand q := by
  have hmig : s.migrate r c =
      (s.unlist r).setStrand r { st with loc := .migrating c st.home, wait := .run, bound := false, core := st.home } := by
    rw [State.migrate, hr]
    simp only [State.standIn, hin, if_true]
  rw [hmig]
  exact ⟨State.strand_setStrand_same .., fun q hq => State.strand_setStrand_other _ _ _ _ hq⟩

end

/-! ### The instructions as checked accesses -/

/-- `t` is what a checked access leaves, whatever follows the translation. -/
def State.Accesses (s : State) (r : Nat) (st : Strand) (h : Word) (size : Nat) (perm : BitVec 4) (fits : Bool) (n : Nat) (t : State) : Prop :=
  ∃ go, t = s.checkedAccess r st h size perm fits n go

section
variable {s : State} {r : Nat} {st : Strand} {o : XOp}

theorem State.withEa_accesses {size n : Nat} {perm : BitVec 4} {eff : Ea → State} (go : Ea → Place → State)
    (heff : ∀ e, eff e = s.access r st e.h perm fun p => s.ifRoom r st p n (go e p)) :
    s.Accesses r st (st.ea o size).h size perm true n (s.withEa r st o size eff) := by
  refine ⟨go (st.ea o size), ?_⟩
  by_cases ha : (Handle.off (st.ea o size).h).toNat % size = 0
  · rw [State.withEa_ok _ ha, heff, State.checkedAccess_fits ha rfl]
  · rw [State.withEa_align _ ha, State.checkedAccess_align (.inl ha)]

theorem State.withEa_fits {size n : Nat} {perm : BitVec 4} {eff : Ea → State} {out : Ea → Prop} [∀ e, Decidable (out e)] {fits : Bool}
    (go : Ea → Place → State) (hout : out (st.ea o size) ↔ fits = false)
    (heff : ∀ e, eff e = if out e then s.raise r 3#5 e.h else s.access r st e.h perm fun p => s.ifRoom r st p n (go e p)) :
    s.Accesses r st (st.ea o size).h size perm fits n (s.withEa r st o size eff) := by
  refine ⟨go (st.ea o size), ?_⟩
  by_cases ha : (Handle.off (st.ea o size).h).toNat % size = 0
  · rw [State.withEa_ok _ ha, heff]
    by_cases ho : out (st.ea o size)
    · rw [if_pos ho, State.checkedAccess_align (.inr (hout.1 ho))]
      rfl
    · rw [if_neg ho, State.checkedAccess_fits ha (by simpa [hout] using ho)]
  · rw [State.withEa_align _ ha, State.checkedAccess_align (.inl ha)]

/-- A synchronous operation (R103, R262). -/
theorem State.synchronous_accesses (size : Nat) (perm : BitVec 4) (kind : OpKind) (i : Instr) :
    s.Accesses r st (st.ea o size).h size perm true 1 (s.withEa r st o size fun e => s.synchronous r st e perm kind i) :=
  State.withEa_accesses _ fun _ => rfl

/-- A data read (R204, R213). -/
theorem State.dataRead_accesses (size : Nat) (consume : Bool) (i : Instr) :
    s.Accesses r st (st.ea o size).h size (if consume then 3 else 1) true 1
      (s.withEa r st o size fun e => s.dataRead r st e consume i) :=
  State.withEa_accesses (eff := fun e => s.dataRead r st e consume i) _ fun _ => rfl

/-- One posted operation (R94, R262). -/
theorem State.posted_accesses (size : Nat) (perm : BitVec 4) (op : Ea → OpKind × Word) (len : Nat) :
    s.Accesses r st (st.ea o size).h size perm true 1 (s.withEa r st o size fun e => s.posted r st o e perm [op e] len) :=
  State.withEa_accesses _ fun _ => rfl

/-- The words that a WLD reads lie in its block (R213). -/
theorem State.wld_accesses :
    s.Accesses r st (st.ea o 4).h 4 (if o.mod.getLsbD 1 then 3 else 1)
      (decide ((Handle.off (st.ea o 4).h).toNat + 4 * (o.bit.toNat + 1) ≤ 4096)) 1
      (s.withEa r st o 4 fun e => if 4096 < (Handle.off e.h).toNat + 4 * (o.bit.toNat + 1) then s.raise r 3#5 e.h
        else s.dataRead r st { e with upd := if o.am = 2 then padd49 (st.reg o.ra) (BitVec.ofNat 64 (4 * (o.bit.toNat + 1))) else e.upd }
          (o.mod.getLsbD 1) (.wld o)) :=
  State.withEa_fits (out := fun e => 4096 < (Handle.off e.h).toNat + 4 * (o.bit.toNat + 1)) _ (by simp) fun _ => rfl

/-- Posted operations, `n` of them whatever the handle. -/
theorem State.posted_fits {size n : Nat} {perm : BitVec 4} {out : Ea → Prop} [∀ e, Decidable (out e)] {fits : Bool}
    {ops : Ea → List (OpKind × Word)} (upd : Ea → Word) (len : Nat) (hout : out (st.ea o size) ↔ fits = false)
    (hlen : ∀ e, (ops e).length = n) :
    s.Accesses r st (st.ea o size).h size perm fits n
      (s.withEa r st o size fun e => if out e then s.raise r 3#5 e.h else s.posted r st o { e with upd := upd e } perm (ops e) len) :=
  State.withEa_fits (fun e p => ((ops e).foldl (fun t k => t.post r k.1 k.2 p (st.batchFor o)) s).updStrand r fun st =>
    (st.setReg o.ra (upd e)).next len) hout fun e => by simp only [State.posted, hlen]

/-- The rows of a fill lie in its block (R214). -/
theorem State.fillRows_accesses (w : Word) (len : Nat) :
    s.Accesses r st (st.ea o 128).h 128 permW (decide ((Handle.off (st.ea o 128).h).toNat / 128 + (o.imm6.toNat + 1) ≤ 32)) (o.imm6.toNat + 1)
      (s.fillRows r st o w len) := by
  rw [State.fillRows]
  exact State.posted_fits (out := fun e => 32 < ((Handle.off e.h).extractLsb' 7 5).toNat + (o.imm6.toNat + 1)) _ len
    (by rw [Handle.row_toNat]; simp) fun e => by rw [List.length_map, List.length_range]

theorem Strand.badIndex_none {l : List Word} (h : ∀ i ∈ l, i.toNat < st.words) : st.badIndex l = none := by
  induction l with
  | nil => rfl
  | cons i l ih =>
    rw [Strand.badIndex, if_pos (h i (List.mem_cons_self ..))]
    exact ih fun j hj => h j (List.mem_cons_of_mem _ hj)

end

/-! ### What a checked access comes to -/

/-- The outcomes of a block access that does not go on (R91, R229, R231, R255). -/
structure State.AccessOutcome (s : State) (r : Nat) (st : Strand) (h : Word) (size : Nat) (perm : BitVec 4) (fits : Bool) (n : Nat)
    (t : State) : Prop where
  align : (Handle.off h).toNat % size ≠ 0 ∨ fits = false → t = s.raise r 3 h
  miss : (Handle.off h).toNat % size = 0 → fits = true → s.xlate (coreCluster st.home) true h perm = .miss →
    t = s.setStrand r { st with wait := .walk h perm }
  fault : (Handle.off h).toNat % size = 0 → fits = true → s.xlate (coreCluster st.home) true h perm = .fault →
    t = s.toFaultQueue r h (.perm perm)
  noRoom : (Handle.off h).toNat % size = 0 → fits = true → ∀ p, s.xlate (coreCluster st.home) true h perm = .ok p →
    s.roomFor (unitCore st.home) (homeOf p) n = false → t = s.retry r
  anchored : (Handle.off h).toNat % size = 0 → fits = true → ∀ c, s.xlate (coreCluster st.home) true h perm = .migrate c →
    st.anch = true → t = s.raise r 10 h
  blocked : (Handle.off h).toNat % size = 0 → fits = true → ∀ c, s.xlate (coreCluster st.home) true h perm = .migrate c →
    st.anch = false → (s.core st.home).outbuf ≠ [] → t = s.retry r
  migrates : (Handle.off h).toNat % size = 0 → fits = true → ∀ c, s.xlate (coreCluster st.home) true h perm = .migrate c →
    st.anch = false → (s.core st.home).outbuf = [] → t = s.migrate r c

theorem State.Accesses.outcome {s : State} {r : Nat} {st : Strand} {h : Word} {size n : Nat} {perm : BitVec 4} {fits : Bool} {t : State}
    (ht : s.Accesses r st h size perm fits n t) : s.AccessOutcome r st h size perm fits n t := by
  obtain ⟨go, rfl⟩ := ht
  constructor
  case align => exact State.checkedAccess_align
  all_goals
    intro ha hf
    rw [State.checkedAccess_fits ha hf]
  case miss => exact State.access_miss
  case fault => exact State.access_fault
  case noRoom =>
    intro p hx hroom
    rw [State.access_ok _ hx, State.ifRoom, hroom, if_neg Bool.false_ne_true]
  all_goals
    intro c hx hanch
    rw [State.access_migrate hx, hanch]
  case anchored => rfl
  case blocked =>
    intro hout
    simp [State.migrationBlocked, hout]
  case migrates =>
    intro hout
    simp [State.migrationBlocked, hout]

/-- The same, for the instruction that makes the access. -/
theorem State.Accesses.exec_next {s : State} {r : Nat} {st : Strand} {h : Word} {size n : Nat} {perm : BitVec 4} {fits : Bool} {t : State}
    (hr : s.strand r = some st) (i : Instr) (hi : exec i s = .next t) (ht : s.Accesses r st h size perm fits n t) :
    let c := s.core st.home
    let unused := Host.Outcome.next (s.setCore st.home { c with perf0 := c.perf0 - 1, perf1 := c.perf1 + 1 })
    let x0 := s.xlate (coreCluster st.home) true h perm
    ((Handle.off h).toNat % size ≠ 0 ∨ fits = false → exec i s = .next (s.raise r 3 h)) ∧
    ((Handle.off h).toNat % size = 0 → fits = true →
      (x0 = .miss → exec i s = .next (s.setStrand r { st with wait := .walk h perm })) ∧
      (x0 = .fault → exec i s = .next (s.toFaultQueue r h (.perm perm))) ∧
      (∀ p, x0 = .ok p → s.roomFor (unitCore st.home) (homeOf p) n = false → exec i s = unused) ∧
      ∀ c, x0 = .migrate c →
        (st.anch = true → exec i s = .next (s.raise r 10 h)) ∧
        (st.anch = false → (s.core st.home).outbuf ≠ [] → exec i s = unused) ∧
        (st.anch = false → (s.core st.home).outbuf = [] → ∃ t, exec i s = .next t ∧
          t.strand r = some { st with loc := .migrating c st.home, wait := .run, bound := false, core := st.home } ∧
          ∀ q, q ≠ r → t.strand q = s.strand q)) := by
  intro c unused x0
  have ho := ht.outcome
  have hret : Host.Outcome.next (s.retry r) = unused := congrArg Host.Outcome.next (State.retry_eq hr)
  rw [hi, ← hret]
  exact ⟨fun ha => congrArg _ (ho.align ha), fun ha hf => ⟨fun hx => congrArg _ (ho.miss ha hf hx), fun hx => congrArg _ (ho.fault ha hf hx),
    fun p hx hroom => congrArg _ (ho.noRoom ha hf p hx hroom),
    fun c hx => ⟨fun hanch => congrArg _ (ho.anchored ha hf c hx hanch), fun hanch hout => congrArg _ (ho.blocked ha hf c hx hanch hout),
      fun hanch hout => ⟨t, rfl, ho.migrates ha hf c hx hanch hout ▸ State.migrate_strand hr (State.inService_of_migrate hx)⟩⟩⟩⟩

/-! ### Replies (R204, R260) -/

/-- The awaited reply of a waiting strand. -/
theorem State.replyFor_eq {s : State} {m u : Nat} {q : Op} {x : Reply} {i : Instr} {w : Strand} {h upd : Word}
    (hm : Maps.get s.net m = some (.reply q x)) (hu : q.asker = .strand u) (hs : s.strand u = some w) (hw : w.wait = .reply i h upd)
    (ha : s.awaited q = true) : s.replyFor m = some (q, x, u, w, i, h, upd) := by
  simp only [State.replyFor, hm, hu, hs, hw, ha, if_true]

theorem tagOf_zero_toNat (fmt : BitVec 4) : (tagOf fmt 0).toNat = 16 * fmt.toNat := by
  rw [tagOf, toNat_append_add]
  split <;> rfl

theorem tagMisVal_eq (v : BitVec 3) (fmt : BitVec 4) (found : BitVec 8) : tagMisVal v (tagOf fmt 0) found =
    BitVec.ofNat 64 (2 ^ 63 + 2 ^ 16 * v.toNat + 2 ^ 12 * fmt.toNat + found.toNat) := by
  have hval : (tagMisVal v (tagOf fmt 0) found).toNat = 2 ^ 63 + 2 ^ 16 * v.toNat + 2 ^ 12 * fmt.toNat + found.toNat := by
    rw [tagMisVal, toNat_append_add, toNat_append_add, toNat_append_add, toNat_append_add, tagOf_zero_toNat]
    simp only [BitVec.toNat_ofNat]
    omega
  exact BitVec.eq_of_toNat_eq (by rw [BitVec.toNat_ofNat, ← hval, Nat.mod_eq_of_lt (tagMisVal v (tagOf fmt 0) found).isLt])

/-- A tag is EMPTY when its class is 0 (R151). -/
theorem tagClass_eq_zero_iff (t : BitVec 8) : tagClass t = 0 ↔ ¬16 ≤ t.toNat := by
  have hclass : (tagClass t).toNat = t.toNat / 16 := by
    rw [tagClass, BitVec.extractLsb'_toNat, Nat.shiftRight_eq_div_pow]
    omega
  rw [← BitVec.toNat_inj, hclass]
  exact ⟨fun h => by simp at h; omega, fun h => by simp; omega⟩

/-- Settles O27: each row is a checked access, whose outcomes `State.Accesses.outcome` says. -/
theorem blockAccessTraps : Obligations.BlockAccessTraps := by
  unfold Obligations.BlockAccessTraps
  intro o lit s r st h hg e desc words rows inWindow inBlock inRows load v tag own full c unused
  have hr := State.strand_of_issuing h
  refine ⟨?rows, ?empty, ?mismatch, ?reply⟩
  case rows =>
    repeat' refine List.forall_mem_cons.2 ⟨?_, ?_⟩
    case _ => -- LD
      exact fun _ => State.Accesses.exec_next hr (.ld o) (State.issueX_true _ h hg) (State.dataRead_accesses _ _ _)
    case _ => -- LDV
      intro hdesc
      have hbad : ¬(decide (o.fmt = 0xB#4) && !descOk (st.desc o.fd)) = true := by
        have hd : o.fmt ≠ 11#4 ∨ descOk (st.desc o.fd) = true := by simpa [desc] using hdesc
        rcases hd with hd | hd <;> simp [hd]
      exact State.Accesses.exec_next hr (.ldv o) ((State.issueX_true _ h hg).trans (congrArg _ (if_neg hbad))) (State.dataRead_accesses 128 _ _)
    case _ => -- WLD
      intro hin
      have hbad : st.badIndex ((List.range words).map fun i => BitVec.ofNat 64 (o.imm6.toNat + i)) = none :=
        Strand.badIndex_none fun i hi => by
          obtain ⟨k, hk, rfl⟩ := List.mem_map.1 hi
          have hlt := List.mem_range.1 hk
          have hle : o.imm6.toNat + words ≤ st.words := of_decide_eq_true hin
          have hbit := o.bit.isLt
          have himm := o.imm6.isLt
          rw [BitVec.toNat_ofNat, Nat.mod_eq_of_lt (by omega)]
          omega
      refine State.Accesses.exec_next hr (.wld o) ((State.issueX_true _ h hg).trans (congrArg _ ?_)) State.wld_accesses
      dsimp only
      rw [hbad]
    · exact fun _ => State.Accesses.exec_next hr (.wait o) (State.issueX_true _ h hg) (State.synchronous_accesses 1 _ _ _)
    · exact fun _ => State.Accesses.exec_next hr (.probe o) (State.issueX_true _ h hg) (State.synchronous_accesses 1 _ _ _)
    · exact fun _ => State.Accesses.exec_next hr (.genr o) (State.issueX_true _ h hg) (State.synchronous_accesses 1 _ _ _)
    · exact fun _ => State.Accesses.exec_next hr (.arm o) (State.issueX_true _ h hg) (State.synchronous_accesses 1 _ _ _)
    · exact fun _ => State.Accesses.exec_next hr (.clr o) (State.issueX_true _ h hg) (State.synchronous_accesses 1 _ _ _)
    · exact fun _ => State.Accesses.exec_next hr (.clrx o) (State.issueX_true _ h hg) (State.synchronous_accesses 1 _ _ _)
    · exact fun _ => State.Accesses.exec_next hr (.discard o) (State.issueX_true _ h hg) (State.synchronous_accesses 1 _ _ _)
    · exact fun _ => State.Accesses.exec_next hr (.acnt o) (State.issueX_true _ h hg) (State.synchronous_accesses 1 _ _ _)
    case _ => -- ST
      exact fun _ => State.Accesses.exec_next hr (.st o) (State.issueX_true _ h hg) (State.posted_accesses 8 _ _ _)
    case _ => -- STV
      intro hfull
      have hclass : tagClass (st.tag v) ≠ 0 := fun e => (tagClass_eq_zero_iff _).1 e (of_decide_eq_true hfull)
      exact State.Accesses.exec_next hr (.stv o) ((State.issueX_true _ h hg).trans (congrArg _ (if_neg hclass))) (State.posted_accesses 128 _ _ _)
    case _ => -- FILL
      exact fun _ => State.Accesses.exec_next hr (.fill o) (State.issueX_true _ h hg) (State.fillRows_accesses _ _)
    case _ => -- FILL with a literal
      exact fun _ => State.Accesses.exec_next hr (.fillLiteral o lit) (State.issue_true 20 _ h hg) (State.fillRows_accesses lit 20)
    · exact fun _ => State.Accesses.exec_next hr (.seal o) (State.issueX_true _ h hg) (State.posted_accesses 1 _ _ _)
    · exact fun _ => State.Accesses.exec_next hr (.seale o) (State.issueX_true _ h hg) (State.posted_accesses 1 _ _ _)
    · exact fun _ => State.Accesses.exec_next hr (.rel o) (State.issueX_true _ h hg) (State.posted_accesses 1 _ _ _)
    case _ => -- ACC
      intro hboth
      obtain ⟨hfull, hown⟩ := Bool.and_eq_true_iff.1 hboth
      have hclass : tagClass (st.tag v) ≠ 0 := fun e => (tagClass_eq_zero_iff _).1 e (of_decide_eq_true hfull)
      have htag : ¬(st.tag v != tagOf o.fmt 0) = true := by
        have heq : st.tag v = tagOf o.fmt 0 := BitVec.eq_of_toNat_eq ((of_decide_eq_true hown).trans (tagOf_zero_toNat o.fmt).symm)
        simp [heq]
      exact State.Accesses.exec_next hr (.acc o) ((State.issueX_true _ h hg).trans (congrArg _ ((if_neg hclass).trans (if_neg htag))))
        (State.posted_accesses 128 _ _ _)
    case _ => exact List.forall_mem_nil _
  case empty =>
    intro hfull
    have hclass : tagClass (st.tag v) = 0 := (tagClass_eq_zero_iff _).2 (of_decide_eq_false hfull)
    simp only [List.forall_mem_cons, List.not_mem_nil, false_implies, implies_true, and_true]
    have hval : BitVec.ofNat 64 v.toNat = v.zeroExtend 64 :=
      BitVec.eq_of_toNat_eq (by rw [BitVec.zeroExtend, BitVec.toNat_setWidth, BitVec.toNat_ofNat])
    rw [hval]
    refine ⟨?_, ?_⟩
    all_goals exact (State.issueX_true _ h hg).trans (congrArg _ (if_pos hclass))
  case mismatch =>
    intro hfull hown
    have hclass : tagClass (st.tag v) ≠ 0 := fun e => (tagClass_eq_zero_iff _).1 e (of_decide_eq_true hfull)
    have htag : (st.tag v != tagOf o.fmt 0) = true := bne_iff_ne.2 fun e =>
      of_decide_eq_false hown ((congrArg BitVec.toNat e).trans (tagOf_zero_toNat o.fmt))
    rw [← tagMisVal_eq]
    exact (State.issueX_true _ h hg).trans (congrArg _ ((if_neg hclass).trans (if_pos htag)))
  case reply =>
    intro m q i u w upd hs hw hslot hask hawait t
    have found {x : Reply} (hm : Maps.get s.net m = some (.reply q x)) : s.replyFor m = some (q, x, u, w, i, q.h, upd) :=
      State.replyFor_eq hm hask hs hw hawait
    refine ⟨fun hi => ⟨fun hm => ?_, fun hm => ?_⟩, ?_⟩
    · change execReadReply m s = _
      simp only [execReadReply, found hm, hi, hslot, Bool.and_self, if_true, State.deliver, State.replied]
      rfl
    · change execReadReply m s = _
      simp only [execReadReply, found hm, hi, hslot, Bool.and_self, if_true, State.deliver, State.replied]
      rfl
    · rintro rfl hm
      change execStatusReply m s = _
      simp only [execStatusReply, found hm, readsData, hslot, Bool.not_false, Bool.and_self, if_true, State.deliver, State.replied]
      rfl

end Sys2Proof.Machine
end

section
/-!
PROOF. O30. The park of a reader at the home of its block, and its wake.
-/
namespace Sys2Proof.Machine

/-! ### The read at the home (R200, R204) -/

theorem Handle.block_eq_iff (g h : Word) : Handle.block g = Handle.block h ↔ g.toNat / 4096 = h.toNat / 4096 := by
  have hval (w : Word) : (Handle.block w).toNat = 4096 * (w.toNat / 4096) := by
    have := w.isLt
    rw [Handle.block, toNat_append_add, BitVec.extractLsb'_toNat, Nat.shiftRight_eq_div_pow, BitVec.toNat_ofNat]
    omega
  rw [← BitVec.toNat_inj, hval, hval]
  omega

/-- A read at the generation of a block that is not full leaves its stub there. -/
theorem Block.act_read_parks {b : Block} {o : Op} {c : Bool} (hk : o.kind = .read c) (hg : Handle.gen o.h = b.gen)
    (hst : b.st.toNat % 2 = 0) (hu : o.unit < 8192) : b.act false o =
      { Act.only { b with st := 2, stubs := b.stubs ++ [.reader o.asker b.gen o.h] } none with parks := true } := by
  have hfull : b.full = false := by
    rw [Block.full, BitVec.getLsbD, Nat.testBit_zero]
    simp [hst]
  have hport : o.ofPort = false := by
    rw [Op.ofPort, Nat.mod_eq_of_lt (by omega), decide_eq_false (by omega), Bool.false_and]
  simp only [Block.act, hk, Block.readOp, hg, hfull, hport, bne_self_eq_false, Bool.not_false, Bool.and_false, Bool.false_eq_true, if_false,
    if_true]

/-- A strand that waits for a reply parks, and leaves its slot unless it is anchored (R93, R61). -/
theorem State.park_reply {s : State} {r : Nat} {st : Strand} {i : Instr} {g upd : Word} {k : BitVec 13} {n : BitVec 3} (p : Place) (h : Word)
    (hs : s.strand r = some st) (hw : st.wait = .reply i g upd) (hl : st.loc = .slot k n) :
    s.park r p h = if st.anch then s.setStrand r { st with wait := .parked p h }
      else ((s.setStrand r { st with wait := .parked p h }).setCore k
        { s.core k with slots := (s.core k).slots.set n.toNat none n.isLt, idleSince := s.tick }).setStrand r
          { st with wait := .parked p h, loc := .store (coreCluster k), core := k } := by
  simp only [State.park, hs, hw, State.vacate, State.strand_setStrand_same, hl]
  rfl

section
variable {s : State} {m : Nat} {cl : BitVec 9} {blk : Nat} {x : Resident} {o : Op}

/-- An operation of the wanted kind, new to its home, at a resident block. -/
theorem State.homeEvent_resident {want : OpKind → Bool} (hm : Maps.get s.net m = some (.op o)) (hk : want o.kind = true)
    (hp : o.place = .dom cl blk) (hx : Maps.get (s.cluster cl).res blk = some x) (hf : Maps.get (s.cluster cl).fills blk = none)
    (hnew : ∀ w, Maps.get (s.cluster cl).windows o.unit = some w → w.seen.find? (fun z => z.1 == o.seq) = none) :
    s.homeEvent m want = ((s.rouse (clusterDie cl)).take m).applyResident cl blk x o := by
  have hcl : (s.rouse (clusterDie cl)).cluster cl = s.cluster cl := by
    obtain ⟨ds, mo, hr⟩ := s.rouse_spec (clusterDie cl)
    rw [hr]
    rfl
  have hseen : (s.rouse (clusterDie cl)).seen cl o = none := by
    rw [State.seen, hcl]
    split
    · rfl
    · next w hw => rw [hnew w hw]; rfl
  rw [State.homeEvent, hm]
  simp only [hk, hp, if_true, State.arriveAt, hseen, hcl, hf, hx, Option.isSome_none, Bool.false_eq_true, if_false]

/-- A park is counted at the cluster of the block (R328). -/
theorem State.countPark_read {c : Bool} (hk : o.kind = .read c) (hu : o.unit < 8192) :
    s.countPark cl o = s.setCluster cl { s.cluster cl with perf4 := (s.cluster cl).perf4 + 1 } := by
  have heng : o.ofEngine = false := by
    rw [Op.ofEngine, Nat.mod_eq_of_lt (by omega), decide_eq_false (by omega), Bool.false_and]
  simp only [State.countPark, hk, heng, Bool.false_eq_true, if_false]

/-- The home's side of a read that parks: its summary, the dedupe window, the count, the acknowledgement; then the reader parks. -/
theorem State.settle_parks {b before : Block} {p : Place} {r : Nat} (hr : o.asker = .strand r)
    (haw : (((s.readTally before o).record cl o (.report 0 0)).countPark cl o).awaited o = true) :
    s.settle cl p o before { Act.only b none with parks := true } =
      ((((s.readTally before o).record cl o (.report 0 0)).countPark cl o).unack o.unit o.seq).park r o.place o.h := by
  have hask (t : State) (ht : t.awaited o = true) : t.parkAsker o = (t.unack o.unit o.seq).park r o.place o.h := by
    simp only [State.parkAsker, hr, ht, if_true]
  exact hask _ haw

/-- A read that parks leaves its block with the stub, written back at the home. -/
theorem State.applyResident_settles {b : Block} {c : Bool} (hk : o.kind = .read c)
    (ha : x.b.act false o = { Act.only b none with parks := true }) (hroom : (s.cluster cl).tableRoom x.b b = true) :
    ∃ y : Resident, y.b = b ∧ s.applyResident cl blk x o =
      (s.setCluster cl { s.cluster cl with res := Maps.put (s.cluster cl).res blk y }).settle cl (.dom cl blk) o x.b
        { Act.only b none with parks := true } := by
  have hq : s.stampQueued cl x.b o = o := by rw [State.stampQueued, hk]
  have hdis : (o.kind == .discard) = false := by rw [hk]; rfl
  refine ⟨{ b := b, used := s.tick, dirty := x.dirty || { b with stubs := [] } != { x.b with stubs := [] } }, rfl, ?_⟩
  simp only [State.applyResident, hq, ha, Act.only, hroom, hdis, Bool.or_false, Bool.not_true, Bool.and_false, Bool.false_eq_true, if_false]

end

/-- A step that changes only blocks, counters and summaries of homes: strands, cores, HBM and the units' operations stay. -/
structure SameReaders (s t : State) : Prop where
  strands : t.strands = s.strands
  cores : t.cores = s.cores
  hbm : t.hbm = s.hbm
  units : t.units = s.units

theorem SameReaders.trans {s t u : State} (h : SameReaders s t) (h' : SameReaders t u) : SameReaders s u :=
  ⟨h'.strands.trans h.strands, h'.cores.trans h.cores, h'.hbm.trans h.hbm, h'.units.trans h.units⟩

section
variable (s : State) (cl : BitVec 9) (o : Op)

theorem State.setCluster_sameReaders (c : Cluster) : SameReaders s (s.setCluster cl c) := ⟨rfl, rfl, rfl, rfl⟩

/-- Counting in the summaries changes the summaries alone. -/
theorem State.readTally_sameReaders (b : Block) : SameReaders s (s.readTally b o) ∧ (s.readTally b o).clusters = s.clusters := by
  unfold State.readTally
  split
  · unfold State.tallyOp State.tally
    split
    · split <;> exact ⟨⟨rfl, rfl, rfl, rfl⟩, rfl⟩
    · exact ⟨⟨rfl, rfl, rfl, rfl⟩, rfl⟩
  · exact ⟨⟨rfl, rfl, rfl, rfl⟩, rfl⟩

/-- Recording an outcome changes the window of its unit alone (R255). -/
theorem State.record_sameReaders (x : Reply) : SameReaders s (s.record cl o x) ∧
    ((s.record cl o x).cluster cl).res = (s.cluster cl).res ∧ ((s.record cl o x).cluster cl).perf4 = (s.cluster cl).perf4 := by
  refine ⟨⟨rfl, rfl, rfl, rfl⟩, ?_⟩
  rw [State.record, State.cluster_setCluster_same]
  exact ⟨rfl, rfl⟩

end

/-- The home's side of a read that parks, before its reader parks: the block with its stub, the park counted. -/
theorem State.homeRead_counted {s : State} {cl : BitVec 9} {blk : Nat} {o : Op} {c : Bool} (hk : o.kind = .read c) (hu : o.unit < 8192)
    (y : Resident) (before : Block) (x : Reply) :
    let t := (((s.setCluster cl { s.cluster cl with res := Maps.put (s.cluster cl).res blk y }).readTally before o).record cl o x).countPark cl o
    SameReaders s t ∧ Maps.get (t.cluster cl).res blk = some y ∧ (t.cluster cl).perf4 = (s.cluster cl).perf4 + 1 := by
  have h1 := s.setCluster_sameReaders cl { s.cluster cl with res := Maps.put (s.cluster cl).res blk y }
  have hc1 := s.cluster_setCluster_same cl { s.cluster cl with res := Maps.put (s.cluster cl).res blk y }
  generalize s.setCluster cl { s.cluster cl with res := Maps.put (s.cluster cl).res blk y } = s1 at h1 hc1
  obtain ⟨h2, hc2⟩ := s1.readTally_sameReaders o before
  generalize s1.readTally before o = s2 at h2 hc2
  obtain ⟨h3, hres, hperf⟩ := s2.record_sameReaders cl o x
  generalize s2.record cl o x = s3 at h3 hres hperf
  have hcl : s2.cluster cl = s1.cluster cl := by rw [State.cluster, hc2]; rfl
  rw [State.countPark_read hk hu]
  dsimp only
  rw [State.cluster_setCluster_same]
  refine ⟨((h1.trans h2).trans h3).trans (State.setCluster_sameReaders ..), ?_, ?_⟩
  · change Maps.get (s3.cluster cl).res blk = some y
    rw [hres, hcl, hc1]
    exact Maps.get_put_same ..
  · change (s3.cluster cl).perf4 + 1 = _
    rw [hperf, hcl, hc1]

theorem State.awaited_congr {s t : State} (h : t.units = s.units) (o : Op) : t.awaited o = s.awaited o := by
  rw [State.awaited, State.awaited, h]

/-- HOME_READ of a read that parks: all but the park of its reader. -/
theorem State.applyResident_parks {s : State} {cl : BitVec 9} {blk : Nat} {x : Resident} {o : Op} {b : Block} {c : Bool} {r : Nat}
    (hk : o.kind = .read c) (ha : x.b.act false o = { Act.only b none with parks := true })
    (hroom : (s.cluster cl).tableRoom x.b b = true) (hu : o.unit < 8192) (hr : o.asker = .strand r) (haw : s.awaited o = true) :
    ∃ t : State, s.applyResident cl blk x o = t.park r o.place o.h ∧ t.strands = s.strands ∧ t.cores = s.cores ∧ t.hbm = s.hbm ∧
      (Maps.get (t.cluster cl).res blk).map Resident.b = some b ∧ (t.cluster cl).perf4 = (s.cluster cl).perf4 + 1 := by
  obtain ⟨y, hy, happ⟩ := State.applyResident_settles (blk := blk) hk ha hroom
  obtain ⟨hsame, hres, hperf⟩ := State.homeRead_counted (s := s) (cl := cl) (blk := blk) hk hu y x.b (.report 0 0)
  refine ⟨_, happ.trans (State.settle_parks hr ((State.awaited_congr hsame.units o).trans haw)), hsame.strands, hsame.cores, hsame.hbm, ?_, hperf⟩
  exact (congrArg (Option.map Resident.b) hres).trans (congrArg some hy)

/-- What the park of a waiting reader leaves. -/
theorem State.park_spec {s : State} {r : Nat} {st : Strand} {i : Instr} {g upd : Word} {k : BitVec 13} {n : BitVec 3} (p : Place) (h : Word)
    (hs : s.strand r = some st) (hw : st.wait = .reply i g upd) (hl : st.loc = .slot k n) :
    (s.park r p h).strand r = some (if st.anch then { st with wait := .parked p h }
      else { st with wait := .parked p h, loc := .store (coreCluster k), core := k }) ∧
    (∀ j, j ≠ k → (s.park r p h).core j = s.core j) ∧
    ((s.park r p h).core k).slots[n.toNat]'n.isLt = (if st.anch then (s.core k).slots[n.toNat]'n.isLt else none) ∧
    (∀ q, q ≠ r → (s.park r p h).strand q = s.strand q) ∧ (s.park r p h).hbm = s.hbm ∧ (s.park r p h).clusters = s.clusters := by
  rw [State.park_reply p h hs hw hl]
  cases st.anch
  · refine ⟨State.strand_setStrand_same .., fun j hj => State.core_setCore_other _ _ _ _ hj, ?_, fun q hq => ?_, rfl, rfl⟩
    · rw [if_neg Bool.false_ne_true, if_neg Bool.false_ne_true, State.core_setStrand, State.core_setCore_same]
      simp
    · rw [if_neg Bool.false_ne_true, State.strand_setStrand_other _ _ _ _ hq, State.strand_setCore, State.strand_setStrand_other _ _ _ _ hq]
  · exact ⟨State.strand_setStrand_same .., fun _ _ => rfl, rfl, fun q hq => State.strand_setStrand_other _ _ _ _ hq, rfl, rfl⟩

/-! ### Wakes (R201) -/

/-- A wake delivered to a strand that is parked on its block. -/
theorem execWakeDeliver_parked {s : State} {m r : Nat} {st : Strand} {p : Place} {g h : Word} {cause : Option (BitVec 5)}
    (hm : Maps.get s.net m = some (.wake r p cause h)) (hs : s.strand r = some st) (hw : st.wait = .parked p g)
    (hb : Handle.block g = Handle.block h) :
    ∃ t : State, execWakeDeliver m s = .next (t.unpark r cause h) ∧ t.strands = s.strands ∧ (∀ st, t.victim st = s.victim st) ∧
      t.cores = s.cores ∧ t.clusters = s.clusters ∧ t.hbm = s.hbm := by
  have hearly : s.wakeEarly r p h = false := by
    unfold State.wakeEarly
    split
    · next hs' =>
      cases hs.symm.trans hs'
      rw [hw]
    · rfl
  obtain ⟨ds, mo, hr⟩ := (s.take m).rouse_spec (clusterDie ((s.strand r).elim 0 Strand.clusterOf))
  have hs' : State.strand { s.take m with dies := ds, modState := mo } r = some st := hs
  refine ⟨{ s.take m with dies := ds, modState := mo }, ?_, rfl, fun _ => rfl, rfl, rfl, rfl⟩
  simp only [execWakeDeliver, hm, hearly, Bool.false_eq_true, if_false, hr, State.wakeStrand, hs', hw, parkedOn, hb, beq_self_eq_true,
    Bool.and_self, if_true]

/-- A strand of no quenched instance goes back to a dispatcher, or on in its slot. -/
theorem State.toDispatcher_free {s : State} {r : Nat} {st : Strand} (c : BitVec 9) (hs : s.strand r = some st) (hv : s.victim st = false) :
    s.toDispatcher r c = s.setStrand r (if st.inSlot then { st with wait := .run } else { st with loc := .arriving c, wait := .run }) := by
  rw [State.toDispatcher, hs]
  dsimp only
  rw [hv, if_neg Bool.false_ne_true]
  split <;> rfl

/-- A woken strand without a cause runs again. -/
theorem State.unpark_none {s : State} {r : Nat} {st : Strand} (h : Word) (hs : s.strand r = some st) (hv : s.victim st = false) :
    s.unpark r none h = (s.setStrand r { st with wait := .run }).setStrand r
      (if st.inSlot then { st with wait := .run } else { st with wait := .run, loc := .arriving st.clusterOf }) := by
  rw [State.unpark, State.updStrand_some s r st _ hs, State.strand_setStrand_same]
  exact State.toDispatcher_free (st := { st with wait := .run }) st.clusterOf (State.strand_setStrand_same ..) hv

/-- The record of a strand whose trap has been entered (R316). -/
def State.trapped (s : State) (st : Strand) (cause : BitVec 5) (v : Word) : Strand :=
  { st with tpc := st.pc, tcause := 0x80#8 ||| cause.zeroExtend 8, tval := v, pc := s.trapbaseOf st + 16#32 * cause.zeroExtend 32,
            wait := .run }

/-- A strand woken with a cause has entered its trap, and runs again. -/
theorem State.unpark_some {s : State} {r : Nat} {st : Strand} (cause : BitVec 5) (h : Word) (hs : s.strand r = some st)
    (hv : s.victim st = false) (ha : st.tcause.getLsbD 7 = false) :
    s.unpark r (some cause) h = ((s.setStrand r { st with wait := .run }).setStrand r (s.trapped st cause h)).setStrand r
      (if st.inSlot then s.trapped st cause h else { s.trapped st cause h with loc := .arriving st.clusterOf }) := by
  rw [State.unpark, State.updStrand_some s r st _ hs]
  dsimp only
  rw [State.raise_enter cause h (State.strand_setStrand_same s r { st with wait := .run }) ha, State.strand_setStrand_same]
  exact State.toDispatcher_free (st := s.trapped st cause h) st.clusterOf (State.strand_setStrand_same ..) hv

/-- Settles O30: the home's read by `State.applyResident_parks` and `State.park_spec`, the wakes by `execWakeDeliver_parked`. -/
theorem readersParkAndWake : Obligations.ReadersParkAndWake := by
  unfold Obligations.ReadersParkAndWake
  intro s m r st hs
  refine ⟨?parks, ?early, ?wakes⟩
  case parks =>
    intro o cl blk x i upd k slot c hm hp hk hask hw hl hx hf hnew hg hst hu haw b hroom
    have hact : x.b.act false o = { Act.only b none with parks := true } := by
      rw [Block.act_read_parks hk hg hst hu, hask]
    have hev : exec (.homeRead m) s = .next (((s.rouse (clusterDie cl)).take m).applyResident cl blk x o) :=
      congrArg _ (State.homeEvent_resident hm (by rw [hk]) hp hx hf hnew)
    obtain ⟨ds, mo, hr⟩ := s.rouse_spec (clusterDie cl)
    rw [hr] at hev
    obtain ⟨t, happ, hstrands, hcores, hhbm, hres, hperf⟩ :=
      State.applyResident_parks (s := State.take { s with dies := ds, modState := mo } m) (blk := blk) hk hact hroom hu hask haw
    have hts : t.strand r = some st := by rw [State.strand, hstrands]; exact hs
    have hcore (j : BitVec 13) : t.core j = s.core j := by rw [State.core, hcores]; rfl
    obtain ⟨h1, h2, h3, h4, h5, h6⟩ := State.park_spec o.place o.h hts hw hl
    have hcl : (t.park r o.place o.h).cluster cl = t.cluster cl := by rw [State.cluster, h6]; rfl
    refine ⟨_, hev.trans (congrArg _ happ), by rw [hcl]; exact hres, by rw [hcl]; exact hperf, h5.trans hhbm, h1,
      fun j hj => (h2 j hj).trans (hcore j), ?_, fun q hq => (h4 q hq).trans (congrArg (Maps.get · q) hstrands)⟩
    rw [h3, hcore]
  case early =>
    intro i h g upd b hw hgh hm
    have hearly : s.wakeEarly r (.off b) h = true := by
      simp only [State.wakeEarly, hs, hw, (Handle.block_eq_iff g h).2 hgh, beq_self_eq_true]
    change execWakeDeliver m s = .next s
    simp only [execWakeDeliver, hm, hearly, if_true]
  case wakes =>
    intro p g h hw hgh hv
    have hb := (Handle.block_eq_iff g h).2 hgh
    refine ⟨fun hm => ?_, fun cause ha hm => ?_⟩
    · obtain ⟨t, he, hstrands, hvic, hcores, hclusters, hhbm⟩ := execWakeDeliver_parked hm hs hw hb
      rw [State.unpark_none h ((congrArg (Maps.get · r) hstrands).trans hs) ((hvic st).trans hv)] at he
      exact ⟨_, he, State.strand_setStrand_same .., hcores, hclusters, hhbm, fun q hq =>
        ((State.strand_setStrand_other _ _ _ _ hq).trans (State.strand_setStrand_other _ _ _ _ hq)).trans (congrArg (Maps.get · q) hstrands)⟩
    · obtain ⟨t, he, hstrands, hvic, hcores, hclusters, hhbm⟩ := execWakeDeliver_parked hm hs hw hb
      rw [State.unpark_some cause h ((congrArg (Maps.get · r) hstrands).trans hs) ((hvic st).trans hv) ha] at he
      refine ⟨_, _, he, State.strand_setStrand_same .., ?_⟩
      cases st.inSlot <;> exact ⟨rfl, rfl, rfl, rfl, rfl, hhbm⟩

end Sys2Proof.Machine
end

section
/-!
PROOF. O37. TADDR of a format that no tile has: `exec` makes the tag check of the tile's own type (R190), the statement's premise asks
for the tag of the instruction's format. The decoder reads no such instruction; the statement covers it.
-/
namespace Sys2Proof.Machine
open Sys2Proof

/-- A TADDR of tile a0 and vector v0 under FMT 9 (F16). -/
def taddrF16 : XOp :=
  { rd := 0, ra := 0, rb := 0, imm12 := 0, gd := none, fmt := 9, fd := 0, rm := 0, mod := 0, rc := 0, re := 0, lme := false, lmr := 0,
    scope := 0, bx := false, bn := 0, am := 0, bit := 0, imm6 := 0 }

/-- A strand that holds F32 tiles and vectors tagged F16. -/
def strandOfF16 : Strand :=
  { regs := Vector.replicate 16 0, fd := Vector.replicate 8 0, pc := 0, image := 0, prio := 0, win := 0, steal := 0, tpc := 0, tcause := 0,
    tval := 0, fflags := 0, rmode := 0, batch := 0, opens := 0, node := 0, window := Vector.replicate 64 0,
    tags := Vector.replicate 8 0x90, vecs := Vector.replicate 8 0,
    tiles := Vector.replicate 8 (some { isInt := false, phys := 0, reserved := false, data := 0 }), tracker := 0, core := 0, bound := false,
    root := false, loaded := [], handing := none, ended := false, loc := .slot 0 0, wait := .run }

/-- The state after reset in which that strand issues. -/
def State.issuesF16 : State := { State.reset with cur := some 0, strands := [(0, strandOfF16)] }

/-- An F32 tile asks for the tag of F32. -/
theorem exec_taddrF16 : exec (.taddr taddrF16) State.issuesF16 = .next (State.issuesF16.raise 0 6 (tagMisVal 0 0x80 0x90)) := rfl

/-- Refutes O37: the row of TADDR says that the command is queued, where the strand takes TAGMIS and runs on. -/
theorem not_commandsIssue : ¬ Obligations.CommandsIssue := by
  unfold Obligations.CommandsIssue
  intro h
  have hrow := h taddrF16 0 State.issuesF16 0 strandOfF16 (.dom 0 0) rfl rfl (.taddr taddrF16, true, none)
    (List.mem_of_getElem? (i := 38) rfl) rfl
  have hqueued := hrow.1 (by decide)
  rw [exec_taddrF16, State.raise_enter (st := strandOfF16) 6 _ rfl rfl] at hqueued
  have hwait := congrArg (fun t : State => (t.strand 0).map Strand.wait) (Host.Outcome.next.inj hqueued)
  simp only [State.strand_setStrand_same, Option.map_some, Option.some.injEq, reduceCtorEq] at hwait

end Sys2Proof.Machine
end

section
/-!
PROOF. O39. The arbiters of an Anvil: who wins a cycle, and what one dispatched command leaves.
-/
namespace Sys2Proof.Machine

theorem State.setAnvil_setAnvil (s : State) (a : BitVec 11) (v w : Anvil) : (s.setAnvil a v).setAnvil a w = s.setAnvil a w := by
  simp only [State.setAnvil, Maps.put_put_same]

/-! ### The arbiters (R157, R180) -/

/-- Core `m` of the circular order after the pointer `p`. -/
def quadAfter (a : BitVec 11) (p : BitVec 2) (m : Nat) : BitVec 13 := a ++ (p + 1 + BitVec.ofNat 2 m)

theorem quadAfter_number (a : BitVec 11) (p : BitVec 2) (m : Nat) : (quadAfter a p m).extractLsb' 0 2 = p + 1 + BitVec.ofNat 2 m :=
  BitVec.extractLsb'_append_eq_right

theorem State.arbitrate_eq {s : State} {a : BitVec 11} (hf : s.fencedAnvil a = false) (mx : Bool) (p : BitVec 2) :
    s.arbitrate a mx p = ((List.range 4).map (quadAfter a p)).findSome? (s.headOf mx) := by
  have hnum : [p + 1#2, p + 2#2, p + 3#2, p] = (List.range 4).map fun m => p + 1 + BitVec.ofNat 2 m := by
    revert p
    decide
  have hcores : [a ++ (p + 1#2), a ++ (p + 2#2), a ++ (p + 3#2), a ++ p] = (List.range 4).map (quadAfter a p) :=
    congrArg (List.map fun b : BitVec 2 => (a ++ b : BitVec 13)) hnum
  rw [State.arbitrate, hf, if_neg Bool.false_ne_true, hcores]

/-- The first core after the pointer whose head is of the class wins the cycle. -/
theorem State.arbitrate_first {s : State} {a : BitVec 11} {mx : Bool} {p : BitVec 2} {n : Fin 4}
    {x : BitVec 13 × Nat × Strand × Instr × List Pin × Option Place} (hf : s.fencedAnvil a = false)
    (hbefore : ∀ m < n.val, s.headOf mx (quadAfter a p m) = none) (hn : s.headOf mx (quadAfter a p n.val) = some x) :
    s.arbitrate a mx p = some x := by
  have hsplit : (List.range 4).map (quadAfter a p) =
      (List.range n.val).map (quadAfter a p) ++ quadAfter a p n.val :: (List.range' (n.val + 1) (3 - n.val)).map (quadAfter a p) := by
    fin_cases n <;> rfl
  rw [State.arbitrate_eq hf, List.findSome?_eq_some_iff]
  refine ⟨_, _, _, hsplit, hn, fun k hk => ?_⟩
  obtain ⟨m, hm, rfl⟩ := List.mem_map.1 hk
  exact hbefore m (List.mem_range.1 hm)

/-- The head of a core's queue takes part once its operands are pinned. -/
theorem State.headOf_ready {s : State} {k : BitVec 13} {r : Nat} {q : List Nat} {st : Strand} {i : Instr} {pins : List Pin} {d : Option Place}
    (hq : (s.core k).cmdq = r :: q) (hs : s.strand r = some st) (hw : st.wait = .command i false pins d)
    (hpins : pins.all Pin.isData = true) (hlen : pins.length = (tongsHandles st i).length) :
    s.headOf (isMatrix i) k = some (k, r, st, i, pins, d) := by
  simp only [State.headOf, hq, hs, hw, hpins, hlen, beq_self_eq_true, Bool.and_self, if_true]

/-- The state that a dispatch leaves, but for the Anvil: the command is out of its queue and runs. -/
def State.gone (s : State) (k : BitVec 13) (r : Nat) : State :=
  s.setCore k { s.core k with cmdq := (s.core k).cmdq.filter (· != r) }

theorem State.dispatched_eq {s : State} {r : Nat} {st : Strand} (k : BitVec 13) (i : Instr) (pins : List Pin) (d : Option Place)
    (hs : s.strand r = some st) :
    s.dispatched k r i pins d = (s.gone k r).setStrand r { st with wait := .command i true pins d } :=
  State.updStrand_some _ r st _ hs

/-! ### Tiles at the dispatch (R177, R184) -/

/-- The reservation of the node comes first. -/
theorem Anvil.grantTile_some {v : Anvil} {node : BitVec 32} (h : ∃ j : Fin 16, v.tiles[j] = .free ∨ v.tiles[j] = .reserved node) :
    ∃ j res, v.grantTile node = some (j, res) ∧
      if res then v.tiles[j] = .reserved node else v.tiles[j] = .free ∧ ∀ m : Fin 16, v.tiles[m] ≠ .reserved node := by
  rw [Anvil.grantTile]
  cases hres : (List.finRange 16).find? fun k => v.tiles[k] == .reserved node with
  | some k => exact ⟨k, true, rfl, by simpa using List.find?_some hres⟩
  | none =>
    have hnone : ∀ m : Fin 16, v.tiles[m] ≠ .reserved node := by simpa using hres
    cases hfree : (List.finRange 16).find? fun k => v.tiles[k] == .free with
    | some k => exact ⟨k, false, rfl, by simpa using List.find?_some hfree, hnone⟩
    | none =>
      obtain ⟨j, hj | hj⟩ := h
      · exact absurd hj (by simpa using List.find?_eq_none.1 hfree j (List.mem_finRange j))
      · exact absurd hj (hnone j)

theorem Anvil.grantTile_none {v : Anvil} {node : BitVec 32} (h : ∀ j : Fin 16, v.tiles[j] ≠ .free ∧ v.tiles[j] ≠ .reserved node) :
    v.grantTile node = none := by
  have hres : ((List.finRange 16).find? fun k => v.tiles[k] == .reserved node) = none := by simpa using fun j => (h j).2
  have hfree : ((List.finRange 16).find? fun k => v.tiles[k] == .free) = none := by simpa using fun j => (h j).1
  rw [Anvil.grantTile, hres, hfree]
  rfl

/-! ### One cycle of an arbiter -/

section
variable {s : State} {a : BitVec 11} {k : BitVec 13} {r : Nat} {st : Strand} {i : Instr} {pins : List Pin} {d : Option Place}

/-- A strand whose command is dispatched. -/
def Strand.dispatched (st : Strand) (i : Instr) (pins : List Pin) (d : Option Place) : Strand :=
  { st with wait := .command i true pins d }

/-- The state in which the vector arbiter has taken a command, before its tiles are settled. -/
def State.taken (s : State) (a : BitVec 11) (k : BitVec 13) (r : Nat) (dis : Strand) : State :=
  ((s.gone k r).setStrand r dis).setAnvil a { s.anvil a with vptr := k.extractLsb' 0 2 }

theorem State.anvil_taken (dis : Strand) : (s.taken a k r dis).anvil a = { s.anvil a with vptr := k.extractLsb' 0 2 } :=
  State.anvil_setAnvil_same ..

theorem State.strand_taken (dis : Strand) : (s.taken a k r dis).strand r = some dis := State.strand_setStrand_same ..

theorem execVectorDispatch_eq (ht : s.tongsQuad a = s) (ha : s.arbitrate a false (s.anvil a).vptr = some (k, r, st, i, pins, d))
    (hs : s.strand r = some st) :
    execVectorDispatch a s = match (s.taken a k r (st.dispatched i pins d)).tileDispatch a r st i with
      | none => .next ((s.taken a k r (st.dispatched i pins d)).raise r 11 (tileTrap st i))
      | some t => .next (t.setAnvil a { t.anvil a with lanes := (t.anvil a).lanes ++ [r] }) := by
  simp only [execVectorDispatch, ht, ha, State.dispatched_eq k i pins d hs]
  rfl

/-- A command without a tile of its own to settle goes to the lanes. -/
theorem execVectorDispatch_lanes (ht : s.tongsQuad a = s) (ha : s.arbitrate a false (s.anvil a).vptr = some (k, r, st, i, pins, d))
    (hs : s.strand r = some st) (hd : ∀ t : State, t.tileDispatch a r st i = some t) :
    execVectorDispatch a s = .next (((s.gone k r).setStrand r (st.dispatched i pins d)).setAnvil a
      { s.anvil a with vptr := k.extractLsb' 0 2, lanes := (s.anvil a).lanes ++ [r] }) := by
  rw [execVectorDispatch_eq ht ha hs, hd]
  simp only [State.taken, State.anvil_setAnvil_same, State.setAnvil_setAnvil]

/-- The tiles of the Anvil and the record of the strand after TACQ or TREL. -/
def State.retiled (s : State) (a : BitVec 11) (tiles : Vector TileUse 16) (r : Nat) (st : Strand) : State :=
  (s.setAnvil a { s.anvil a with tiles := tiles }).setStrand r st

/-- A command that settles a tile first. -/
theorem execVectorDispatch_retiled (ht : s.tongsQuad a = s) (ha : s.arbitrate a false (s.anvil a).vptr = some (k, r, st, i, pins, d))
    (hs : s.strand r = some st) {tiles : Vector TileUse 16} {st' : Strand}
    (hd : (s.taken a k r (st.dispatched i pins d)).tileDispatch a r st i =
      some ((s.taken a k r (st.dispatched i pins d)).retiled a tiles r st')) :
    execVectorDispatch a s = .next (((s.gone k r).setStrand r st').setAnvil a
      { s.anvil a with vptr := k.extractLsb' 0 2, lanes := (s.anvil a).lanes ++ [r], tiles := tiles }) := by
  rw [execVectorDispatch_eq ht ha hs, hd]
  simp only [State.retiled, State.anvil_taken, State.anvil_setStrand, State.anvil_setAnvil_same]
  simp only [State.taken, State.setAnvil, State.setStrand, Maps.put_put_same]

/-- A command whose tile check fails at the dispatch traps with TILE. -/
theorem execVectorDispatch_traps (ht : s.tongsQuad a = s) (ha : s.arbitrate a false (s.anvil a).vptr = some (k, r, st, i, pins, d))
    (hs : s.strand r = some st) (hd : (s.taken a k r (st.dispatched i pins d)).tileDispatch a r st i = none) :
    execVectorDispatch a s = .next ((s.taken a k r (st.dispatched i pins d)).raise r 11 (tileTrap st i)) := by
  simp only [execVectorDispatch_eq ht ha hs, hd]

theorem execMatrixDispatch_held (ht : s.tongsQuad a = s) (ha : s.arbitrate a true (s.anvil a).mptr = some (k, r, st, i, pins, d))
    (hroom : (s.anvil a).array.length < 2) (hb : (s.die (clusterDie (anvilCluster a))).budget ≤ (s.anvil a).spent) :
    execMatrixDispatch a s = .next (s.setAnvil a { s.anvil a with perf3 := (s.anvil a).perf3 + 1 }) := by
  simp only [execMatrixDispatch, ht, ha, Nat.not_le.2 hroom, hb, if_false, if_true]

theorem execMatrixDispatch_array (ht : s.tongsQuad a = s) (ha : s.arbitrate a true (s.anvil a).mptr = some (k, r, st, i, pins, d))
    (hs : s.strand r = some st) (hroom : (s.anvil a).array.length < 2)
    (hb : (s.anvil a).spent < (s.die (clusterDie (anvilCluster a))).budget) :
    execMatrixDispatch a s = .next (((s.gone k r).setStrand r (st.dispatched i pins d)).setAnvil a
      { s.anvil a with mptr := k.extractLsb' 0 2, array := (s.anvil a).array ++ [r], spent := (s.anvil a).spent + 1,
                       perf2 := (s.anvil a).perf2 + 1 }) := by
  simp only [execMatrixDispatch, ht, ha, Nat.not_le.2 hroom, Nat.not_le.2 hb, if_false, State.dispatched_eq k i pins d hs]
  rfl

/-! ### What TACQ and TREL settle -/

theorem State.acquire_granted {t : State} {a : BitVec 11} {r : Nat} {st st' : Strand} {o : XOp} {j : Fin 16} {res : Bool}
    (hfree : st.tile (low3 o.rd) = none) (hcnt : st.tcnt < 7) (hg : (t.anvil a).grantTile st.node = some (j, res))
    (hs : t.strand r = some st') :
    t.acquire a r st o = some (t.retiled a ((t.anvil a).tiles.set j (.held r (if res then some st.node else none))) r
      (st'.setTile (low3 o.rd) (some { isInt := o.fmt == 6, phys := BitVec.ofNat 4 j.val, reserved := res, data := 0 }))) := by
  simp only [State.acquire, hfree, Option.isSome_none, Bool.false_eq_true, if_false, Nat.not_le.2 hcnt, hg, Option.map_some]
  exact congrArg some (State.updStrand_some _ r st' _ hs)

theorem TileUse.release_held (r : Nat) (w : Option (BitVec 32)) (alive : BitVec 32 → Bool) :
    (TileUse.held r w).release r alive = match w with
      | some z => if alive z then .reserved z else .free
      | none => .free := if_pos rfl

theorem State.releaseTile_eq {t : State} {a : BitVec 11} {r : Nat} {st' : Strand} {n : BitVec 3} {x : Tile} {u : TileUse}
    (hu : (t.anvil a).tiles[x.phys.toNat]'(x.phys.isLt) = u) (hs : t.strand r = some st') :
    t.releaseTile a r n x = t.retiled a
      ((t.anvil a).tiles.set x.phys.toNat (u.release r fun z => (t.node z).isSome) x.phys.isLt) r (st'.setTile n none) := by
  simp only [State.releaseTile, hu]
  exact State.updStrand_some _ r st' _ hs

/-- Only TACQ, TREL and TZERO have a tile to settle. -/
theorem State.tileDispatch_other {i : Instr} (h : ∀ o, i ≠ .tacq o ∧ i ≠ .trel o ∧ i ≠ .tzero o) (t : State) (a : BitVec 11) (r : Nat)
    (st : Strand) : t.tileDispatch a r st i = some t := by
  unfold State.tileDispatch
  split
  case h_1 o => exact absurd rfl (h o).1
  case h_2 o => exact absurd rfl (h o).2.1
  case h_3 o => exact absurd rfl (h o).2.2
  case h_4 => rfl

theorem tileVal_eq (a : BitVec 3) (reason : BitVec 4) : tileVal a reason = BitVec.ofNat 64 (a.toNat + 2 ^ 8 * reason.toNat) := by
  refine BitVec.eq_of_toNat_eq ?_
  rw [tileVal, toNat_append_add, toNat_append_add, toNat_append_add]
  simp only [BitVec.toNat_ofNat]
  omega

theorem execVectorDispatch_tacq {o : XOp} {j : Fin 16} {res : Bool} (ht : s.tongsQuad a = s)
    (ha : s.arbitrate a false (s.anvil a).vptr = some (k, r, st, .tacq o, pins, d)) (hs : s.strand r = some st)
    (hfree : st.tile (low3 o.rd) = none) (hcnt : st.tcnt < 7) (hg : (s.anvil a).grantTile st.node = some (j, res)) :
    execVectorDispatch a s = .next (((s.gone k r).setStrand r ((st.dispatched (.tacq o) pins d).setTile (low3 o.rd)
        (some { isInt := o.fmt == 6, phys := BitVec.ofNat 4 j.val, reserved := res, data := 0 }))).setAnvil a
      { s.anvil a with vptr := k.extractLsb' 0 2, lanes := (s.anvil a).lanes ++ [r],
                       tiles := (s.anvil a).tiles.set j (.held r (if res then some st.node else none)) }) := by
  refine execVectorDispatch_retiled ht ha hs ?_
  rw [State.tileDispatch, State.acquire_granted hfree hcnt (by rw [State.anvil_taken]; exact hg) (State.strand_taken _),
    State.anvil_taken]

theorem execVectorDispatch_trel {o : XOp} {x : Tile} {u : TileUse} (ht : s.tongsQuad a = s)
    (ha : s.arbitrate a false (s.anvil a).vptr = some (k, r, st, .trel o, pins, d)) (hs : s.strand r = some st)
    (htile : st.tile (low3 o.rd) = some x) (hheld : (s.anvil a).tiles[x.phys.toNat]'(x.phys.isLt) = u) :
    execVectorDispatch a s = .next (((s.gone k r).setStrand r ((st.dispatched (.trel o) pins d).setTile (low3 o.rd) none)).setAnvil a
      { s.anvil a with vptr := k.extractLsb' 0 2, lanes := (s.anvil a).lanes ++ [r],
                       tiles := (s.anvil a).tiles.set x.phys.toNat (u.release r fun z => (s.node z).isSome) x.phys.isLt }) := by
  refine execVectorDispatch_retiled ht ha hs ?_
  rw [State.tileDispatch, htile, Option.map_some, State.releaseTile_eq (u := u) (by simp only [State.anvil_taken]; exact hheld)
    (State.strand_taken _), State.anvil_taken]
  rfl

end

/-- TACQ fails with reason 2, 3 or 4 (R178, R184). -/
theorem State.acquire_fails {t : State} {a : BitVec 11} (r : Nat) {st : Strand} {o : XOp} {reason : Nat}
    (h : reason = 2 ∧ (st.tile (low3 o.rd)).isSome = true ∨ reason = 3 ∧ st.tile (low3 o.rd) = none ∧ 7 ≤ st.tcnt ∨
      reason = 4 ∧ st.tile (low3 o.rd) = none ∧ st.tcnt < 7 ∧ (t.anvil a).grantTile st.node = none) :
    t.acquire a r st o = none ∧ (acquireReason st (low3 o.rd)).toNat = reason := by
  rcases h with ⟨rfl, h⟩ | ⟨rfl, h, hcnt⟩ | ⟨rfl, h, hcnt, hg⟩
  · simp [State.acquire, acquireReason, h]
  · simp [State.acquire, acquireReason, h, hcnt]
  · simp [State.acquire, acquireReason, h, hg, Nat.not_le.2 hcnt]

/-- Settles O39: the cycle goes to the first core by `State.arbitrate_first`; each clause is what one taken command leaves. -/
theorem commandsDispatch : Obligations.CommandsDispatch := by
  unfold Obligations.CommandsDispatch
  intro s a n r st i pins d q v at_ first mx p k gone dis t num ht hf hfirst hs hw hpins hlen
  obtain ⟨hq, hbefore⟩ := hfirst
  have ha : s.arbitrate a mx p = some (k, r, st, i, pins, d) :=
    State.arbitrate_first hf hbefore (State.headOf_ready hq hs hw hpins hlen)
  have hnum : k.extractLsb' 0 2 = num := quadAfter_number a p n.val
  have hmat (h : mx = true) : s.arbitrate a true v.mptr = some (k, r, st, i, pins, d) := by
    rw [← ha, h, show p = v.mptr from if_pos h]
  have hvec (h : mx = false) : s.arbitrate a false v.vptr = some (k, r, st, i, pins, d) := by
    rw [← ha, h, show p = v.vptr from if_neg (by rw [h]; exact Bool.false_ne_true)]
  refine ⟨fun h hroom hb => ?array, fun h hroom hb => ?held, fun h hi => ?lanes, ?zero, ?acquire, ?release, ?traps⟩
  case array => rw [← hnum]; exact execMatrixDispatch_array ht (hmat h) hs hroom hb
  case held => exact execMatrixDispatch_held ht (hmat h) hroom hb
  case lanes => rw [← hnum]; exact execVectorDispatch_lanes ht (hvec h) hs fun t => State.tileDispatch_other hi t a r st
  case zero =>
    intro o hi htile
    obtain ⟨x, hx⟩ := Option.isSome_iff_exists.1 htile
    rw [← hnum]
    exact execVectorDispatch_lanes ht (hvec (by subst hi; rfl)) hs fun t => by
      rw [hi, State.tileDispatch, hx, Option.map_some]
  case acquire =>
    rintro o rfl htile hcnt hfree
    obtain ⟨j, res, hg, hres⟩ := Anvil.grantTile_some hfree
    refine ⟨j, res, hres, ?_⟩
    rw [← hnum]
    exact execVectorDispatch_tacq ht (hvec rfl) hs htile hcnt hg
  case release =>
    rintro o x w rfl htile hheld back
    rw [← hnum, show back = _ from (TileUse.release_held r w _).symm]
    exact execVectorDispatch_trel ht (hvec rfl) hs htile hheld
  case traps =>
    intro o reason h
    obtain ⟨hclass, hval, hnone⟩ : mx = false ∧ tileTrap st i = BitVec.ofNat 64 ((low3 o.rd).toNat + 2 ^ 8 * reason) ∧
        (s.taken a k r dis).tileDispatch a r st i = none := by
      rcases h with ⟨rfl, h⟩ | ⟨rfl | rfl, rfl, htile⟩
      · have hgrant (hno : ∀ j : Fin 16, v.tiles[j] ≠ .free ∧ v.tiles[j] ≠ .reserved st.node) :
            ((s.taken a k r dis).anvil a).grantTile st.node = none := by
          rw [State.anvil_taken]
          exact Anvil.grantTile_none hno
        obtain ⟨hfails, hreason⟩ := State.acquire_fails (t := s.taken a k r dis) (a := a) r
          (h.imp_right <| .imp_right fun ⟨h4, htile, hcnt, hno⟩ => ⟨h4, htile, hcnt, hgrant hno⟩)
        exact ⟨rfl, by rw [← hreason]; exact tileVal_eq .., hfails⟩
      · exact ⟨rfl, tileVal_eq .., by rw [State.tileDispatch, htile]; rfl⟩
      · exact ⟨rfl, tileVal_eq .., by rw [State.tileDispatch, htile]; rfl⟩
    rw [← hval, ← hnum]
    exact execVectorDispatch_traps ht (hvec hclass) hs hnone

end Sys2Proof.Machine
end

section
/-!
PROOF. O41, O42. Codes packed into a vector, the lane-wise map of the vector unit (R163), and the completion of a vector command (R158):
what is said once of every command that writes a vector lane by lane.
-/
namespace Sys2Proof.Machine

/-! ### Codes packed into a vector (R150, R163) -/

/-- Field `k` of packed codes; past the last code the fields are zero. -/
theorem packCodes_field (w : Nat) (l : List Nat) (k : Nat) : packCodes w l / 2 ^ (w * k) % 2 ^ w = l.getD k 0 % 2 ^ w := by
  induction l generalizing k with
  | nil => simp [packCodes]
  | cons c r ih =>
    cases k with
    | zero => simp [packCodes]
    | succ k =>
      have hshift : (c % 2 ^ w + 2 ^ w * packCodes w r) / 2 ^ w = packCodes w r := by
        rw [Nat.add_mul_div_left _ _ (Nat.two_pow_pos w), Nat.div_eq_of_lt (Nat.mod_lt _ (Nat.two_pow_pos w)), Nat.zero_add]
      rw [packCodes, Nat.mul_succ, Nat.add_comm (w * k), Nat.pow_add, ← Nat.div_div_eq_div_mul, hshift, ih, List.getD_cons_succ]

/-- A field of a number that is cut above it. -/
theorem field_ofNat {n p w k : Nat} (h : p + w ≤ k) : (BitVec.ofNat k n).toNat / 2 ^ p % 2 ^ w = n / 2 ^ p % 2 ^ w := by
  obtain ⟨j, rfl⟩ := Nat.exists_eq_add_of_le (show p ≤ k by omega)
  rw [BitVec.toNat_ofNat, Nat.pow_add, Nat.mod_mul_right_div_self, Nat.mod_mod_of_dvd _ (Nat.pow_dvd_pow 2 (by omega))]

theorem lane_eq (v : Vec) (w l : Nat) : lane v w l = v.toNat / 2 ^ (w * l) % 2 ^ w := by
  rw [lane, BitVec.extractLsb'_toNat, Nat.shiftRight_eq_div_pow]

theorem lane_lt (v : Vec) (w l : Nat) : lane v w l < 2 ^ w := (v.extractLsb' (w * l) w).isLt

theorem lane_vecOf {w : Nat} (l : List Nat) {k : Nat} (hk : k < 1024 / w) : lane (vecOf w l) w k = l.getD k 0 % 2 ^ w := by
  have hin : w * k + w ≤ 1024 := (Nat.mul_succ w k).symm.le.trans ((Nat.mul_le_mul_left w hk).trans (Nat.mul_div_le 1024 w))
  rw [lane_eq, vecOf, field_ofNat hin, packCodes_field]

/-! ### The width of an element -/

theorem elemOf_w (fmt : BitVec 4) (d : BitVec 32) : (elemOf fmt d).w ∈ [4, 8, 16, 32] := by
  have hdesc : (descFmt d).container ∈ [4, 8, 16, 32] := by
    rw [FloatFmt.container]
    split <;> decide
  unfold elemOf
  split
  case h_10 => exact hdesc
  all_goals decide

theorem mapLanes_lane (st : Strand) (o : XOp) {w : Nat} (fn : Nat → Nat × BitVec 5) {l : Nat} (hl : l < 1024 / w) :
    lane (st.mapLanes o w fn).1 w l = if st.active o w l then (fn l).1 % 2 ^ w else lane (st.vec (low3 o.rd)) w l := by
  rw [Strand.mapLanes, lane_vecOf _ hl]
  simp only [List.map_map, List.getD_eq_getElem?_getD, List.getElem?_map, List.getElem?_range hl, Option.map_some, Option.getD_some,
    Function.comp]
  split
  · rfl
  · exact Nat.mod_eq_of_lt (lane_lt ..)

theorem mapLanes_flags (st : Strand) (o : XOp) (w : Nat) (fn : Nat → Nat × BitVec 5) :
    (st.mapLanes o w fn).2 = (List.range (1024 / w)).foldl (fun a l => if st.active o w l then a ||| (fn l).2 else a) 0 := by
  refine List.foldl_map.trans (congrArg (fun f => List.foldl f 0 (List.range (1024 / w))) ?_)
  funext a l
  split
  · rfl
  · exact BitVec.or_zero

theorem mapLanes_extract (st : Strand) (o : XOp) {w : Nat} (fn : Nat → Nat × BitVec 5) {l : Nat} (hl : l < 1024 / w) :
    (st.mapLanes o w fn).1.extractLsb' (w * l) w =
      if st.active o w l then BitVec.ofNat w (fn l).1 else (st.vec (low3 o.rd)).extractLsb' (w * l) w := by
  refine BitVec.eq_of_toNat_eq ((mapLanes_lane st o fn hl).trans ?_)
  split
  · exact (BitVec.toNat_ofNat ..).symm
  · rfl

/-! ### The completion of a vector command (R158) -/

theorem vectorDone_class {st st' : Strand} {i : Instr} (h : st.vectorDone i = some st') : isMatrix i = false := by
  unfold isMatrix
  split
  case h_6 => rfl
  all_goals cases h

/-- A unit is done with a strand that keeps its place. -/
theorem State.unitDone_stays {s : State} {r : Nat} {st st' : Strand} (hstay : s.stays st) (hend : st'.ended = st.ended)
    (hhome : st'.home = st.home) : ((s.leaveAnvil r).setStrand r st').unitDone r = (s.leaveAnvil r).setStrand r st' := by
  obtain ⟨hended, hcore, hcluster, hanvil⟩ := hstay
  have hleave : ((s.leaveAnvil r).setStrand r st').mustLeave st' = false := by
    change (st'.inSlot && st'.wait == .run && (s.fenced st'.home || !s.inService (coreCluster st'.home) ||
      (decide (0 < st'.tcnt) && s.fencedAnvil (coreAnvil st'.home)))) = false
    simp [hhome, hcore, hcluster, hanvil]
  simp only [State.unitDone, State.strand_setStrand_same, hend, hended, hleave, Bool.false_eq_true, if_false]

/-- The result of a vector command is written and the command leaves the Anvil. -/
theorem execVectorResult_done {s : State} {r : Nat} {st st' : Strand} {i : Instr} {pins : List Pin} {d : Option Place}
    (hs : s.strand r = some st) (hw : st.wait = .command i true pins d) (hstay : s.stays st) (hd : st.vectorDone i = some st')
    (hend : st'.ended = st.ended) (hhome : st'.home = st.home) :
    execVectorResult r s = .next ((s.leaveAnvil r).setStrand r st') := by
  have hrun : s.running r = some (st, i, pins.map Pin.payload, d) := by simp only [State.running, hs, hw]
  simp only [execVectorResult, hrun, vectorDone_class hd, hd, Bool.false_eq_true, if_false, State.unitDone_stays hstay hend hhome]

theorem tagOf_eq (fmt : BitVec 4) (fd : BitVec 3) : tagOf fmt fd = fmt ++ (0#1 ++ (if fmt = 0xB then fd else 0)) := by
  by_cases h : fmt = 0xB
  · subst h
    rfl
  · exact (congrArg (fmt ++ ·) (if_neg h)).trans (by rw [if_neg h]; rfl)

/-- A code of a lane as `w` bits, with its flags. -/
def laneCode (w : Nat) (x : Nat × BitVec 5) : BitVec w × BitVec 5 := (BitVec.ofNat w x.1, x.2)

/-- A command that computes lane by lane: if each lane's code is the formula's, the result is what R163 says. -/
theorem vectorResult_lanes {s : State} {r : Nat} {st : Strand} {i : Instr} {pins : List Pin} {d : Option Place} {o : XOp} {len : BitVec 32}
    {fn : Nat → Nat × BitVec 5} {row : Nat → BitVec (st.elem o).w × BitVec 5}
    (hs : s.strand r = some st) (hstay : s.stays st)
    (hd : st.vectorDone i = some { st.putVec o (st.mapLanes o (st.elem o).w fn) with pc := st.pc + len })
    (hrow : ∀ l < 1024 / (st.elem o).w, laneCode _ (fn l) = row l) (hw : st.wait = .command i true pins d) :
    ∃ v : Vec, (∀ l < 1024 / (st.elem o).w, v.extractLsb' ((st.elem o).w * l) (st.elem o).w =
        if st.active o (st.elem o).w l then (row l).1 else (st.vec (low3 o.rd)).extractLsb' ((st.elem o).w * l) (st.elem o).w) ∧
      execVectorResult r s = .next ((s.leaveAnvil r).setStrand r { st with
        vecs := st.vecs.set (low3 o.rd).toNat v (low3 o.rd).isLt
        tags := st.tags.set (low3 o.rd).toNat (o.fmt ++ (0#1 ++ (if o.fmt = 0xB then o.fd else 0))) (low3 o.rd).isLt
        fflags := st.fflags ||| (List.range (1024 / (st.elem o).w)).foldl
          (fun a l => if st.active o (st.elem o).w l then a ||| (row l).2 else a) 0
        pc := st.pc + len, wait := .run }) := by
  refine ⟨(st.mapLanes o (st.elem o).w fn).1, fun l hl => ?_, ?_⟩
  · rw [mapLanes_extract st o fn hl, ← hrow l hl]
    rfl
  · rw [execVectorResult_done hs hw hstay hd rfl rfl]
    have hflags : (st.mapLanes o (st.elem o).w fn).2 = (List.range (1024 / (st.elem o).w)).foldl
        (fun a l => if st.active o (st.elem o).w l then a ||| (row l).2 else a) 0 := by
      rw [mapLanes_flags]
      refine List.foldl_ext _ _ _ fun a l hl => ?_
      rw [← hrow l (List.mem_range.1 hl)]
      rfl
    rw [← hflags, ← tagOf_eq]
    rfl

end Sys2Proof.Machine
end

section
/-!
PROOF. O41. The integers of a lane, and each function of an element (R163 to R166) as a function of the bits of its lanes.
-/
namespace Sys2Proof.Machine

/-! ### Integers of a lane -/

/-- The integer that the bits of a lane stand for. -/
def laneInt (g : Bool) {w : Nat} (a : BitVec w) : Int := if g then a.toInt else (a.toNat : Int)

theorem intOf_toNat (g : Bool) {w : Nat} (a : BitVec w) : intOf g w a.toNat = laneInt g a := by
  cases g
  · rfl
  · rw [intOf, Bool.true_and, laneInt, if_pos rfl, BitVec.toInt_eq_msb_cond, BitVec.msb_eq_getLsbD_last]
    rfl

theorem ofNat_intCode (w : Nat) (x : Int) : BitVec.ofNat w (intCode w x) = BitVec.ofInt w x :=
  BitVec.eq_of_toNat_eq (by
    have hpos : (0 : Int) < (2 ^ w : Nat) := by positivity
    rw [BitVec.toNat_ofNat, BitVec.toNat_ofInt, intCode, Nat.mod_eq_of_lt]
    exact (Int.toNat_lt' (by positivity)).2 (Int.emod_lt_of_pos _ hpos))

/-- A lane that wraps, or with `.s` clamps and raises overflow (R163). -/
def narrowed (w : Nat) (sat g : Bool) (x : Int) : BitVec w × BitVec 5 :=
  let lo : Int := if g then -(2 ^ (w - 1)) else 0
  let hi : Int := if g then 2 ^ (w - 1) - 1 else 2 ^ w - 1
  let y := if sat then max lo (min hi x) else x
  (BitVec.ofInt w y, if y = x then (0 : BitVec 5) else 4)

theorem intLow_eq (g : Bool) (w : Nat) : intLow g w = if g then -(2 ^ (w - 1)) else 0 := by
  rw [intLow]; push_cast; rfl
theorem intHigh_eq (g : Bool) (w : Nat) : intHigh g w = if g then 2 ^ (w - 1) - 1 else 2 ^ w - 1 := by
  rw [intHigh]; push_cast; rfl

theorem laneCode_wrapsat (g : Bool) (w : Nat) (sat : Bool) (x : Int) : laneCode w (wrapsat g w sat x) = narrowed w sat g x := by
  cases sat
  · simp only [wrapsat, laneCode, narrowed, ofNat_intCode, Bool.false_eq_true, if_false, if_true]
  · simp only [wrapsat, laneCode, narrowed, clampInt, ofNat_intCode, intLow_eq, intHigh_eq, if_true]
    rfl

/-! ### The lane functions, by the kind of element -/

/-- One value for an integer element, another for a floating one. -/
def Elem.pick {α : Type} (e : Elem) (int : Bool → Nat → α) (flt : FloatFmt → Nat → α) : α :=
  match e with
  | .int g w => int g w
  | .flt f w => flt f w

/-- A rounded result as a lane. -/
def laneRound (w : Nat) (mode : BitVec 2) (f : FloatFmt) (x : Num × BitVec 5) : BitVec w × BitVec 5 :=
  (BitVec.ofNat w (roundTo f mode x).1, (roundTo f mode x).2)

section
variable {e : Elem} {w : Nat} (hw : e.w = w) (mode : BitVec 2) (sat : Bool) (a b c : BitVec w)
include hw

theorem Elem.arith2_lane (flt : Num → Num → Num × BitVec 5) (int : Int → Int → Int) :
    laneCode w (e.arith2 mode sat flt int a.toNat b.toNat) =
      e.pick (fun g _ => narrowed w sat g (int (laneInt g a) (laneInt g b)))
        fun f _ => laneRound w mode f (flt (f.decode a.toNat) (f.decode b.toNat)) := by
  cases e with
  | int g v =>
    obtain rfl : v = w := hw
    exact (laneCode_wrapsat ..).trans (by rw [intOf_toNat, intOf_toNat]; rfl)
  | flt f v => rfl

theorem Elem.fused_lane (minus : Bool) :
    laneCode w (e.fused mode sat minus a.toNat b.toNat c.toNat) =
      e.pick (fun g _ => narrowed w sat g (laneInt g a * laneInt g b + if minus then -laneInt g c else laneInt g c))
        fun f _ => laneRound w mode f ((f.decode a.toNat).fma mode (f.decode b.toNat)
          (if minus then (f.decode c.toNat).negate else f.decode c.toNat)) := by
  cases e with
  | int g v =>
    obtain rfl : v = w := hw
    exact (laneCode_wrapsat ..).trans (by rw [intOf_toNat, intOf_toNat, intOf_toNat]; rfl)
  | flt f v => rfl

theorem Elem.minMax_lane (max? : Bool) :
    laneCode w (e.minMax max? a.toNat b.toNat) =
      e.pick (fun g _ => (if (if max? then laneInt g a < laneInt g b else laneInt g b < laneInt g a) then b else a, 0))
        fun f _ => laneCode w (Sys2Proof.Machine.minMax f max? (f.plain a.toNat) (f.plain b.toNat)) := by
  cases e with
  | int g v =>
    obtain rfl : v = w := hw
    change laneCode v (if max? then (if intOf g v a.toNat < intOf g v b.toNat then b.toNat else a.toNat) else _, 0) = _
    rw [intOf_toNat, intOf_toNat]
    cases max? <;> simp only [laneCode, Elem.pick, Bool.false_eq_true, if_false, if_true] <;> split <;> simp
  | flt f v => rfl

theorem Elem.absLane_lane :
    laneCode w (e.absLane sat a.toNat) = e.pick (fun g _ => narrowed w sat g |laneInt g a|)
      fun f _ => (BitVec.ofNat w (a.toNat % 2 ^ (f.e + f.m)), 0) := by
  cases e with
  | int g v =>
    obtain rfl : v = w := hw
    exact (laneCode_wrapsat ..).trans (by rw [intOf_toNat, Int.natCast_natAbs]; rfl)
  | flt f v => rfl

theorem Elem.negLane_lane :
    laneCode w (e.negLane mode sat a.toNat) = e.pick (fun g _ => narrowed w sat g (-laneInt g a))
      fun f _ => if f.sgn then (BitVec.ofNat w (a.toNat % 2 ^ f.bits) ^^^ BitVec.ofNat w (2 ^ (f.e + f.m)), 0)
        else laneRound w mode f ((f.decode a.toNat).negate, sigFlag (f.decode a.toNat)) := by
  cases e with
  | int g v =>
    obtain rfl : v = w := hw
    exact (laneCode_wrapsat ..).trans (by rw [intOf_toNat]; rfl)
  | flt f v =>
    cases hs : f.sgn
    · simp only [Elem.negLane, Elem.pick, hs, Bool.false_eq_true, if_false]
      rfl
    · simp only [Elem.negLane, Elem.pick, hs, if_true, laneCode, BitVec.ofNat_xor]

theorem Elem.clean_lane (x : BitVec w) :
    BitVec.ofNat w (e.clean x.toNat) = e.pick (fun _ _ => x) fun f _ => BitVec.ofNat w (x.toNat % 2 ^ f.bits) := by
  cases e with
  | int g v =>
    obtain rfl : v = w := hw
    exact BitVec.eq_of_toNat_eq (Nat.mod_eq_of_lt x.isLt)
  | flt f v => rfl

theorem Elem.code_lane (x : Word) :
    BitVec.ofNat w (e.code x) = e.pick (fun _ _ => BitVec.ofNat w x.toNat) fun f _ => BitVec.ofNat w (x.toNat % 2 ^ f.bits) := by
  cases e with
  | int g v =>
    obtain rfl : v = w := hw
    exact BitVec.eq_of_toNat_eq (by simp [Elem.code, Elem.pick])
  | flt f v => rfl

end

/-! ### Shifts (R165) -/

section
variable {w : Nat} (a : BitVec w) (n : Nat)

theorem shiftLeft_lane : BitVec.ofNat w (if w ≤ n then 0 else (a.toNat <<< n) % 2 ^ w) = a <<< n := by
  split
  next h => exact (BitVec.shiftLeft_eq_zero h).symm
  next h => exact BitVec.eq_of_toNat_eq (by rw [BitVec.toNat_ofNat, Nat.mod_mod, BitVec.toNat_shiftLeft])

theorem ushiftRight_lane : BitVec.ofNat w (if w ≤ n then 0 else a.toNat >>> n) = a >>> n := by
  split
  next h => exact (BitVec.ushiftRight_eq_zero h).symm
  next h =>
    exact BitVec.eq_of_toNat_eq (by
      rw [BitVec.toNat_ofNat, BitVec.toNat_ushiftRight, Nat.mod_eq_of_lt ((Nat.shiftRight_le ..).trans_lt a.isLt)])

/-- From its width on, a shift leaves the sign alone. -/
theorem toInt_ediv_two_pow {m : Nat} (h : w ≤ m) : a.toInt / (2 ^ m : Nat) = if a.toInt < 0 then -1 else 0 := by
  have hle : 2 ^ w ≤ 2 ^ m := Nat.pow_le_pow_right (by omega) h
  have hlo := a.le_two_mul_toInt
  have hhi := BitVec.two_mul_toInt_lt (x := a)
  split
  next hneg => exact Int.ediv_eq_neg_one_of_neg_of_le hneg (by zify at hle ⊢; omega)
  next hneg => exact Int.ediv_eq_zero_of_lt (by omega) (by zify at hle ⊢; omega)

theorem sshiftRight_lane : BitVec.ofNat w (intCode w (intOf true w a.toNat / (2 ^ min n w : Nat))) = a.sshiftRight n := by
  rw [ofNat_intCode, intOf_toNat, laneInt, if_pos rfl, BitVec.sshiftRight, Int.shiftRight_eq_div_pow]
  rcases Nat.le_total n w with h | h
  · rw [Nat.min_eq_left h]
  · rw [Nat.min_eq_right h, toInt_ediv_two_pow a (Nat.le_refl w), toInt_ediv_two_pow a h]

end

end Sys2Proof.Machine
end

section
/-!
PROOF. O41. Each row of the statement is an instruction whose lane function computes the row's formula; the completion then is the same
for all of them.
-/
namespace Sys2Proof.Machine

theorem vectorDone_of_laneFn {st : Strand} {i : Instr} {o : XOp} {fn : Nat → Nat × BitVec 5} (h : st.laneFn i = some (o, fn)) :
    st.vectorDone i = some { st.putVec o (st.mapLanes o (st.elem o).w fn) with pc := st.pc + BitVec.ofNat 32 12 } := by
  simp only [Strand.vectorDone, h]
  rfl

/-- A row of the statement: an instruction, its length and the formula of its lanes, which its command computes. -/
def Strand.LaneRow (st : Strand) (o : XOp) (w : Nat) (x : Instr × Nat × (Nat → BitVec w × BitVec 5)) : Prop :=
  ∃ fn : Nat → Nat × BitVec 5, st.vectorDone x.1 = some { st.putVec o (st.mapLanes o w fn) with pc := st.pc + BitVec.ofNat 32 x.2.1 } ∧
    ∀ l < 1024 / w, laneCode w (fn l) = x.2.2 l

theorem Strand.laneRow_of_laneFn {st : Strand} {i : Instr} {o : XOp} {w : Nat} {fn : Nat → Nat × BitVec 5} {f : Nat → BitVec w × BitVec 5}
    (h : st.laneFn i = some (o, fn)) (hw : (st.elem o).w = w) (hf : ∀ l < 1024 / w, laneCode w (fn l) = f l) : st.LaneRow o w (i, 12, f) := by
  subst hw
  exact ⟨fn, vectorDone_of_laneFn h, hf⟩

/-! ### The other lane functions (R167, R168, R171, R172, R174) -/

/-- Twice as wide lanes, half as many. -/
theorem lanes_le_two_mul {w : Nat} (h : w ∈ [4, 8, 16, 32]) : 1024 / w ≤ 2 * (1024 / (2 * w)) := by
  revert w
  decide

/-- The special function of an instruction. -/
def specialOf (i : Instr) (x : Num) : Num × BitVec 5 :=
  match i with
  | .vrcp _ => x.recip
  | .vrsq _ => x.rsqrt
  | .vexp2 _ => x.exp2
  | .vlog2 _ => x.log2
  | _ => x.tanh

section
variable {st : Strand} {o : XOp} {w : Nat} (hw : (st.elem o).w = w) (l : Nat)
include hw

theorem Strand.specialLane_lane (i : Instr) : laneCode w (st.specialLane i o l) = (st.elem o).pick (fun _ _ => (0, 0)) fun f _ =>
    laneRound w (st.mode o.rm) f (specialOf i (f.decode ((st.vec (low3 o.ra)).extractLsb' (w * l) w).toNat)) := by
  unfold Strand.specialLane
  generalize st.elem o = e at hw
  cases e with
  | int g v => rfl
  | flt f v =>
    obtain rfl : v = w := hw
    rfl

/-- The scale of a lane of VSCL: one byte for 32, 16 or one lanes. -/
theorem Strand.vsclLane_lane : laneCode w (st.vsclLane o l) = (st.elem o).pick (fun _ _ => (0, 0)) fun f _ =>
    let c := ((st.vec (low3 o.rb)).toNat / 2 ^ (8 * (l / (if o.imm6.toNat % 4 = 0 then 32 else if o.imm6.toNat % 4 = 1 then 16 else 1) % 128))) % 256
    let x := f.decode ((st.vec (low3 o.ra)).extractLsb' (w * l) w).toNat
    if c = 255 then laneRound w (st.mode o.rm) f (.nan false, 1)
    else laneRound w (st.mode o.rm) f (x.scale (if o.imm6.getLsbD 5 then 127 - (c : Int) else c - 127), sigFlag x) := by
  have hgroup : (o.imm6.extractLsb' 0 2).toNat = o.imm6.toNat % 4 := by
    rw [BitVec.extractLsb'_toNat, Nat.shiftRight_zero]
  unfold Strand.vsclLane
  generalize st.elem o = e at hw
  cases e with
  | int g v => rfl
  | flt f v =>
    obtain rfl : v = w := hw
    have hbody (c : Nat) (x : Num) : laneCode v (if c = 0xFF then roundTo f (st.mode o.rm) (.nan false, fInvalid)
        else roundTo f (st.mode o.rm) (x.scale (if o.imm6.getLsbD 5 then 127 - (c : Int) else (c : Int) - 127), sigFlag x)) =
        if c = 255 then laneRound v (st.mode o.rm) f (.nan false, 1)
        else laneRound v (st.mode o.rm) f (x.scale (if o.imm6.getLsbD 5 then 127 - (c : Int) else c - 127), sigFlag x) := by
      split <;> rfl
    refine (hbody ..).trans ?_
    rw [hgroup, lane_eq]
    generalize o.imm6.toNat % 4 = k
    match k with
    | 0 | 1 | _ + 2 => rfl

theorem Strand.vpackLane_lane (hl : l < 1024 / w) : laneCode w (st.vpackLane o l) = (BitVec.ofNat w
    ((st.vec (low3 (if l < 1024 / (2 * w) then o.ra else o.rb))).toNat / 2 ^ (2 * w * (l % (1024 / (2 * w))))), 0) := by
  have hcode (v : Vec) (k : Nat) : BitVec.ofNat w (lane v (2 * w) k % 2 ^ w) = BitVec.ofNat w (v.toNat / 2 ^ (2 * w * k)) :=
    BitVec.eq_of_toNat_eq (by
      rw [BitVec.toNat_ofNat, BitVec.toNat_ofNat, lane_eq, Nat.mod_mod, Nat.mod_mod_of_dvd _ (Nat.pow_dvd_pow 2 (by omega))])
  have hhalf : 1024 / w ≤ 2 * (1024 / (2 * w)) := lanes_le_two_mul (hw ▸ elemOf_w o.fmt (st.desc o.fd))
  subst hw
  by_cases h : l < 1024 / (2 * (st.elem o).w)
  · simp only [Strand.vpackLane, laneCode, if_pos h, Nat.mod_eq_of_lt h, hcode]
  · have hmod : l % (1024 / (2 * (st.elem o).w)) = l - 1024 / (2 * (st.elem o).w) := by
      rw [Nat.mod_eq_sub_mod (by omega), Nat.mod_eq_of_lt (by omega)]
    simp only [Strand.vpackLane, laneCode, if_neg h, hmod, hcode]

theorem Strand.vunpkLane_lane : laneCode w (st.vunpkLane o l) = (st.srcElem (low3 o.ra)).pick
    (fun g v => (BitVec.ofInt w (laneInt g ((st.vec (low3 o.ra)).extractLsb' (v * (1024 / w * (o.imm6.toNat % 2) + l)) v)), 0))
    fun _ _ => (0, 0) := by
  subst hw
  have hpart : (o.imm6.extractLsb' 0 1).toNat = o.imm6.toNat % 2 := by
    rw [BitVec.extractLsb'_toNat, Nat.shiftRight_zero]
  unfold Strand.vunpkLane
  rw [hpart]
  cases st.srcElem (low3 o.ra) with
  | int g v => exact Prod.ext ((ofNat_intCode ..).trans (by rw [lane, intOf_toNat]; rfl)) rfl
  | flt f v => rfl

theorem Strand.vsel_lane (c : Bool) : laneCode w ((st.elem o).clean (lane (st.vec (if c then low3 o.ra else low3 o.rb)) w l), 0) =
    ((st.elem o).pick (fun _ _ => if c then (st.vec (low3 o.ra)).extractLsb' (w * l) w else (st.vec (low3 o.rb)).extractLsb' (w * l) w)
      fun f _ => BitVec.ofNat w ((if c then (st.vec (low3 o.ra)).extractLsb' (w * l) w
        else (st.vec (low3 o.rb)).extractLsb' (w * l) w).toNat % 2 ^ f.bits), 0) := by
  cases c <;> exact Prod.ext (Elem.clean_lane hw _) rfl

theorem Strand.vins_lane (c : Prop) [Decidable c] (x : Word) (old : BitVec w) :
    laneCode w (if c then (st.elem o).code x else old.toNat, 0) =
      (if c then (st.elem o).pick (fun _ _ => BitVec.ofNat w x.toNat) fun f _ => BitVec.ofNat w (x.toNat % 2 ^ f.bits) else old, 0) := by
  refine Prod.ext ?_ rfl
  simp only [laneCode]
  split
  · exact Elem.code_lane hw x
  · exact BitVec.eq_of_toNat_eq (Nat.mod_eq_of_lt old.isLt)

end

/-- Settles O41: every row is computed lane by lane (`Strand.LaneRow`), and what a lane-wise command leaves follows once for all rows. -/
theorem vectorLaneResults : Obligations.VectorLaneResults := by
  unfold Obligations.VectorLaneResults
  intro o lit s rec st pins d hs hstay e w mode active bits free val narrow num rnd arith mm plain special codeOf clean x hx
  suffices hrow : st.LaneRow o w x by
    obtain ⟨fn, hd, hf⟩ := hrow
    exact vectorResult_lanes hs hstay hd hf
  revert x
  rw [List.forall_mem_append]
  refine ⟨?_, ?_⟩
  · simp only [List.forall_mem_cons]
    refine ⟨?vadd, ?vsub, ?vmul, ?vfma, ?vfms, ?vmin, ?vmax, ?vabs, ?vneg, ?vand, ?vor, ?vxor, ?vshl, ?vshr, ?vsra, ?vscl, ?vrcp, ?vrsq,
      ?vexp2, ?vlog2, ?vtanh, ?vsel, ?vbcast, ?vbcastLiteral, ?vins, ?viota, ?vpack, ?vunpk, List.forall_mem_nil _⟩
    case vadd => exact Strand.laneRow_of_laneFn rfl rfl fun l _ => Elem.arith2_lane rfl ..
    case vsub => exact Strand.laneRow_of_laneFn rfl rfl fun l _ => Elem.arith2_lane rfl ..
    case vmul => exact Strand.laneRow_of_laneFn rfl rfl fun l _ => Elem.arith2_lane rfl ..
    case vfma => exact Strand.laneRow_of_laneFn rfl rfl fun l _ => Elem.fused_lane rfl ..
    case vfms => exact Strand.laneRow_of_laneFn rfl rfl fun l _ => Elem.fused_lane rfl ..
    case vmin => exact Strand.laneRow_of_laneFn rfl rfl fun l _ => Elem.minMax_lane rfl ..
    case vmax => exact Strand.laneRow_of_laneFn rfl rfl fun l _ => Elem.minMax_lane rfl ..
    case vabs => exact Strand.laneRow_of_laneFn rfl rfl fun l _ => Elem.absLane_lane rfl ..
    case vneg => exact Strand.laneRow_of_laneFn rfl rfl fun l _ => Elem.negLane_lane rfl ..
    case vand => exact Strand.laneRow_of_laneFn rfl rfl fun l _ => Prod.ext (Elem.clean_lane rfl (bits o.ra l &&& bits o.rb l)) rfl
    case vor => exact Strand.laneRow_of_laneFn rfl rfl fun l _ => Prod.ext (Elem.clean_lane rfl (bits o.ra l ||| bits o.rb l)) rfl
    case vxor => exact Strand.laneRow_of_laneFn rfl rfl fun l _ => Prod.ext (Elem.clean_lane rfl (bits o.ra l ^^^ bits o.rb l)) rfl
    case vshl => exact Strand.laneRow_of_laneFn rfl rfl fun l _ => Prod.ext (shiftLeft_lane ..) rfl
    case vshr => exact Strand.laneRow_of_laneFn rfl rfl fun l _ => Prod.ext (ushiftRight_lane ..) rfl
    case vsra => exact Strand.laneRow_of_laneFn rfl rfl fun l _ => Prod.ext (sshiftRight_lane ..) rfl
    case vbcast => exact Strand.laneRow_of_laneFn rfl rfl fun l _ => Prod.ext (Elem.code_lane rfl _) rfl
    case vbcastLiteral => exact ⟨_, rfl, fun l _ => Prod.ext (Elem.code_lane rfl lit) rfl⟩
    case vscl => exact Strand.laneRow_of_laneFn rfl rfl fun l _ => Strand.vsclLane_lane rfl l
    case vrcp => exact Strand.laneRow_of_laneFn rfl rfl fun l _ => Strand.specialLane_lane rfl l (.vrcp o)
    case vrsq => exact Strand.laneRow_of_laneFn rfl rfl fun l _ => Strand.specialLane_lane rfl l (.vrsq o)
    case vexp2 => exact Strand.laneRow_of_laneFn rfl rfl fun l _ => Strand.specialLane_lane rfl l (.vexp2 o)
    case vlog2 => exact Strand.laneRow_of_laneFn rfl rfl fun l _ => Strand.specialLane_lane rfl l (.vlog2 o)
    case vtanh => exact Strand.laneRow_of_laneFn rfl rfl fun l _ => Strand.specialLane_lane rfl l (.vtanh o)
    case vsel => exact Strand.laneRow_of_laneFn rfl rfl fun l _ => Strand.vsel_lane rfl l _
    case vins => exact Strand.laneRow_of_laneFn rfl rfl fun l _ => Strand.vins_lane rfl _ (st.reg o.ra) (bits o.rd l)
    case viota => exact Strand.laneRow_of_laneFn rfl rfl fun l _ => Prod.ext (BitVec.eq_of_toNat_eq (Nat.mod_mod ..)) rfl
    case vpack => exact Strand.laneRow_of_laneFn rfl rfl fun l hl => Strand.vpackLane_lane rfl l hl
    case vunpk => exact Strand.laneRow_of_laneFn rfl rfl fun l _ => Strand.vunpkLane_lane rfl l
  · split
    · exact List.forall_mem_nil _
    · next hfmt =>
      rw [List.forall_mem_singleton]
      exact ⟨_, if_neg hfmt, fun _ _ => rfl⟩

end Sys2Proof.Machine
end

section
/-!
PROOF. O42. The reductions, compares, permutes and conversions of the vector unit: what each leaves, lane by lane or bit by bit.
-/
namespace Sys2Proof.Machine

/-! ### Codes and integers of a lane -/

theorem testBit_last {w code : Nat} (h : code < 2 ^ w) : code.testBit (w - 1) = decide (2 ^ (w - 1) ≤ code) := by
  cases w with
  | zero => simp_all
  | succ w =>
    rw [Nat.add_sub_cancel, Nat.testBit_eq_decide_div_mod_eq]
    have hhalf : code / 2 ^ w < 2 := Nat.div_lt_of_lt_mul (by rwa [← Nat.pow_succ])
    have hdiv : 1 ≤ code / 2 ^ w ↔ 2 ^ w ≤ code := by
      rw [Nat.le_div_iff_mul_le (Nat.two_pow_pos w), Nat.one_mul]
    refine decide_eq_decide.2 (Iff.trans ?_ hdiv)
    generalize code / 2 ^ w = q at hhalf
    omega

theorem intOf_eq (g : Bool) {w code : Nat} (h : code < 2 ^ w) :
    intOf g w code = if g && decide (2 ^ (w - 1) ≤ code) then (code : Int) - 2 ^ w else code := by
  rw [intOf, testBit_last h]

theorem intCode_intOf (g : Bool) {w code : Nat} (h : code < 2 ^ w) : intCode w (intOf g w code) = code := by
  have hmod : intOf g w code % (2 ^ w : Nat) = code := by
    rw [intOf]
    split
    · push_cast
      rw [Int.sub_emod_right]
      exact Int.emod_eq_of_lt (by omega) (by exact_mod_cast h)
    · exact Int.emod_eq_of_lt (by omega) (by exact_mod_cast h)
  rw [intCode, hmod, Int.toNat_natCast]

theorem intOf_mem_range (g : Bool) {w code : Nat} (h : code < 2 ^ w) :
    intLow g w ≤ intOf g w code ∧ intOf g w code ≤ intHigh g w := by
  have hpow : 2 ^ w ≤ 2 * 2 ^ (w - 1) := by
    rw [← Nat.pow_succ']
    exact Nat.pow_le_pow_right (by omega) (by omega)
  have hpos : 0 < 2 ^ (w - 1) := Nat.two_pow_pos _
  rw [intOf_eq g h, intLow, intHigh]
  have hcast : (2 : Int) ^ w = (2 ^ w : Nat) := by push_cast; rfl
  rw [hcast]
  generalize 2 ^ (w - 1) = half at *
  generalize 2 ^ w = full at *
  cases g
  · simp only [Bool.false_and, Bool.false_eq_true, if_false]
    omega
  · simp only [Bool.true_and, if_true, decide_eq_true_eq]
    split <;> omega

theorem vecOf_singleton (w c : Nat) : vecOf w [c] = BitVec.ofNat 1024 (c % 2 ^ w) := by
  rw [vecOf, packCodes, packCodes, Nat.mul_zero, Nat.add_zero]

theorem intCode_lt (w : Nat) (x : Int) : intCode w x < 2 ^ w :=
  (Int.toNat_lt' (by positivity)).2 (Int.emod_lt_of_pos _ (by positivity))

theorem vecOf_intCode (w : Nat) (x : Int) : vecOf w [intCode w x] = BitVec.ofNat 1024 (x % 2 ^ w).toNat := by
  rw [vecOf_singleton, Nat.mod_eq_of_lt (intCode_lt w x), intCode]
  push_cast
  rfl

/-! ### Lanes that a conversion reaches (R166) -/

section
variable (st : Strand) (o : XOp) {w : Nat} (c : Nat → Prop) [DecidablePred c] (fn : Nat → Nat × BitVec 5)

theorem mapLanes_where_lane {l : Nat} (hl : l < 1024 / w) :
    lane (st.mapLanes o w fun l => if c l then fn l else (lane (st.vec (low3 o.rd)) w l, 0)).1 w l =
      if st.active o w l && decide (c l) then (fn l).1 % 2 ^ w else lane (st.vec (low3 o.rd)) w l := by
  rw [mapLanes_lane _ _ _ hl]
  by_cases hc : c l
  · simp only [if_pos hc, decide_eq_true hc, Bool.and_true]
  · simp only [if_neg hc, decide_eq_false hc, Bool.and_false, Bool.false_eq_true, if_false, Nat.mod_eq_of_lt (lane_lt ..), ite_self]

theorem mapLanes_where_flags :
    (st.mapLanes o w fun l => if c l then fn l else (lane (st.vec (low3 o.rd)) w l, 0)).2 =
      (List.range (1024 / w)).foldl (fun a l => if st.active o w l && decide (c l) then a ||| (fn l).2 else a) 0 := by
  rw [mapLanes_flags]
  refine List.foldl_ext _ _ _ fun a l _ => ?_
  by_cases hc : c l
  · simp only [if_pos hc, decide_eq_true hc, Bool.and_true]
  · simp only [if_neg hc, decide_eq_false hc, Bool.and_false, Bool.false_eq_true, if_false]
    exact (ite_congr rfl (fun _ => BitVec.or_zero) fun _ => rfl).trans (ite_self a)

end

/-! ### Reductions (R169) -/

/-- The codes of the active lanes of a source. -/
def Strand.activeCodes (st : Strand) (o : XOp) : List Nat :=
  ((List.range (1024 / (st.elem o).w)).filter (st.active o (st.elem o).w)).map (lane (st.vec (low3 o.ra)) (st.elem o).w)

theorem Strand.activeCodes_lt {st : Strand} {o : XOp} : ∀ c ∈ st.activeCodes o, c < 2 ^ (st.elem o).w := by
  intro c hc
  obtain ⟨l, _, rfl⟩ := List.mem_map.1 hc
  exact lane_lt ..

/-- The greatest or least of some codes, with the flags of its steps. -/
def Elem.extreme (e : Elem) (max? : Bool) (a : Nat × BitVec 5) (xs : List Nat) : Nat × BitVec 5 :=
  xs.foldl (fun a y => let z := e.minMax max? a.1 y; (z.1, a.2 ||| z.2)) a

theorem Elem.extreme_cons (e : Elem) (max? : Bool) (a : Nat × BitVec 5) (x : Nat) (r : List Nat) :
    e.extreme max? a (x :: r) = e.extreme max? ((e.minMax max? a.1 x).1, a.2 ||| (e.minMax max? a.1 x).2) r := rfl

/-- What VRED folds, with a code for no active lane. -/
def Elem.extremeOr (e : Elem) (max? : Bool) (none : Nat) (xs : List Nat) : Nat × BitVec 5 :=
  match xs with
  | [] => (none, 0)
  | x :: _ => e.extreme max? (x, 0) xs

section
variable {st : Strand} {o : XOp} {g : Bool} {w : Nat} (he : st.elem o = .int g w)
include he

theorem Strand.vredLane_sum (hi : o.imm6 = 0) :
    st.vredLane o = wrapsat g w (o.mod.getLsbD 0) ((st.activeCodes o).map (intOf g w)).sum := by
  unfold Strand.vredLane Strand.activeCodes
  rw [he, hi]
  rfl

theorem Strand.vredLane_or (hi : o.imm6 = 3) : st.vredLane o = ((st.activeCodes o).foldl (fun a y => a ||| y) 0, 0) := by
  unfold Strand.vredLane Strand.activeCodes
  rw [he, hi]
  rfl

end

section
variable {st : Strand} {o : XOp} {f : FloatFmt} {w : Nat} (he : st.elem o = .flt f w)
include he

theorem Strand.vredLane_floatSum (hi : o.imm6 = 0) :
    let r := sumNums (st.mode o.rm) ((st.activeCodes o).map f.decode)
    st.vredLane o = roundTo f (st.mode o.rm) (r.1, r.2 ||| if r.1.isNan then 1 else 0) := by
  unfold Strand.vredLane Strand.activeCodes
  rw [he, hi]
  rfl

theorem Strand.vredLane_floatExtreme (hi : o.imm6 = 1 ∨ o.imm6 = 2) :
    st.vredLane o = (Elem.flt f w).extremeOr (decide (o.imm6 = 1)) (f.round 0 (.inf (decide (o.imm6 = 1)))).1 (st.activeCodes o) := by
  unfold Strand.vredLane Strand.activeCodes
  rcases hi with hi | hi <;> rw [he, hi] <;> rfl

end

/-! ### Greatest and least of integers (R169) -/

/-- The greater or the lesser of two integers. -/
def intExtreme (max? : Bool) (x y : Int) : Int := if max? then max x y else min x y

theorem intOf_minMax (g max? : Bool) (w a b : Nat) :
    intOf g w ((Elem.int g w).minMax max? a b).1 = intExtreme max? (intOf g w a) (intOf g w b) := by
  cases max?
  · simp only [Elem.minMax, intExtreme, Bool.false_eq_true, if_false]
    split <;> omega
  · simp only [Elem.minMax, intExtreme, if_true]
    split <;> omega

theorem minMax_int_eq (g max? : Bool) (w a b : Nat) :
    (Elem.int g w).minMax max? a b = (a, 0) ∨ (Elem.int g w).minMax max? a b = (b, 0) := by
  cases max? <;> simp only [Elem.minMax, Bool.false_eq_true, if_false, if_true] <;> split <;> simp

theorem extreme_int (g max? : Bool) {w : Nat} {xs : List Nat} {a : Nat} (ha : a < 2 ^ w) (hxs : ∀ x ∈ xs, x < 2 ^ w) :
    (Elem.int g w).extreme max? (a, 0) xs =
      (intCode w ((xs.map (intOf g w)).foldl (intExtreme max?) (intOf g w a)), 0) := by
  induction xs generalizing a with
  | nil => exact Prod.ext (intCode_intOf g ha).symm rfl
  | cons x r ih =>
    obtain ⟨hx, hr⟩ := List.forall_mem_cons.1 hxs
    rw [List.map_cons, List.foldl_cons, ← intOf_minMax, Elem.extreme_cons]
    rcases minMax_int_eq g max? w a x with h | h
    · rw [h, BitVec.or_self]
      exact ih ha hr
    · rw [h, BitVec.or_self]
      exact ih hx hr

theorem extremeOr_int (g max? : Bool) {w : Nat} {xs : List Nat} (hxs : ∀ x ∈ xs, x < 2 ^ w) {b : Int}
    (hb : ∀ x ∈ xs, intExtreme max? b (intOf g w x) = intOf g w x) :
    (Elem.int g w).extremeOr max? (intCode w b) xs = (intCode w ((xs.map (intOf g w)).foldl (intExtreme max?) b), 0) := by
  cases xs with
  | nil => rfl
  | cons x r =>
    have hself : intExtreme max? (intOf g w x) (intOf g w x) = intOf g w x := by
      cases max?
      · exact min_self _
      · exact max_self _
    rw [Elem.extremeOr, extreme_int g max? (hxs x List.mem_cons_self) hxs, List.map_cons, List.foldl_cons, List.foldl_cons, hself,
      hb x List.mem_cons_self]

section
variable {st : Strand} {o : XOp} {g : Bool} {w : Nat} (he : st.elem o = .int g w)
include he

theorem Strand.vredLane_max (hi : o.imm6 = 1) :
    st.vredLane o = (intCode w (((st.activeCodes o).map (intOf g w)).foldl max (intLow g w)), 0) := by
  have hw : (st.elem o).w = w := congrArg Elem.w he
  have hlt : ∀ c ∈ st.activeCodes o, c < 2 ^ w := hw ▸ Strand.activeCodes_lt
  refine Eq.trans ?_ (extremeOr_int g true hlt fun x hx => max_eq_right (intOf_mem_range g (hlt x hx)).1)
  unfold Strand.vredLane Strand.activeCodes
  rw [he, hi]
  rfl

theorem Strand.vredLane_min (hi : o.imm6 = 2) :
    st.vredLane o = (intCode w (((st.activeCodes o).map (intOf g w)).foldl min (intHigh g w)), 0) := by
  have hw : (st.elem o).w = w := congrArg Elem.w he
  have hlt : ∀ c ∈ st.activeCodes o, c < 2 ^ w := hw ▸ Strand.activeCodes_lt
  refine Eq.trans ?_ (extremeOr_int g false hlt fun x hx => min_eq_right (intOf_mem_range g (hlt x hx)).2)
  unfold Strand.vredLane Strand.activeCodes
  rw [he, hi]
  rfl

end

theorem foldl_or_lt {w : Nat} {xs : List Nat} {a : Nat} (ha : a < 2 ^ w) (hxs : ∀ x ∈ xs, x < 2 ^ w) :
    xs.foldl (fun a y => a ||| y) a < 2 ^ w := by
  induction xs generalizing a with
  | nil => exact ha
  | cons x r ih =>
    obtain ⟨hx, hr⟩ := List.forall_mem_cons.1 hxs
    exact ih (Nat.or_lt_two_pow ha hx) hr

theorem clamp_eq_self {lo hi x : Int} (h : lo ≤ hi) : max lo (min hi x) = x ↔ ¬(x < lo ∨ hi < x) := by omega

/-- What `.s` makes of a sum, and its flag (R163). -/
theorem wrapsat_eq (g : Bool) (w : Nat) (sat : Bool) (x : Int) :
    let lo : Int := if g then -(2 ^ (w - 1)) else 0
    let hi : Int := if g then 2 ^ (w - 1) - 1 else 2 ^ w - 1
    wrapsat g w sat x = (intCode w (if sat then max lo (min hi x) else x), if sat = true ∧ (x < lo ∨ hi < x) then 4 else 0) := by
  have hrange : (if g then -(2 ^ (w - 1)) else 0 : Int) ≤ if g then 2 ^ (w - 1) - 1 else 2 ^ w - 1 := by
    have hhalf : (0 : Int) < 2 ^ (w - 1) := by positivity
    have hfull : (0 : Int) < 2 ^ w := by positivity
    split <;> omega
  cases sat
  · simp only [wrapsat, Bool.false_eq_true, if_false, false_and]
  · simp only [wrapsat, clampInt, intLow_eq, intHigh_eq, if_true, true_and, clamp_eq_self hrange, ite_not]
    rfl

end Sys2Proof.Machine
end

section
/-!
PROOF. O42. Greatest and least of floats: after its first step a reduction holds no signalling NaN, so its flag speaks of the lanes alone.
-/
namespace Sys2Proof.Machine

theorem decode_mod_bits (f : FloatFmt) (a : Nat) : f.decode (a % 2 ^ f.bits) = f.decode a := by
  have hs : (f.sgn && (a % 2 ^ f.bits).testBit (f.e + f.m)) = (f.sgn && a.testBit (f.e + f.m)) := by
    cases h : f.sgn
    · rfl
    · rw [Nat.testBit_mod_two_pow, decide_eq_true (by simp only [FloatFmt.bits, h, Bool.toNat_true]; omega), Bool.true_and]
  have he : (a % 2 ^ f.bits) >>> f.m % 2 ^ f.e = a >>> f.m % 2 ^ f.e := by
    obtain ⟨j, hj⟩ := Nat.exists_eq_add_of_le (show f.m + f.e ≤ f.bits by simp only [FloatFmt.bits]; omega)
    rw [Nat.shiftRight_eq_div_pow, Nat.shiftRight_eq_div_pow, hj, Nat.add_assoc, Nat.pow_add, Nat.mod_mul_right_div_self,
      Nat.mod_mod_of_dvd _ (Nat.pow_dvd_pow 2 (by omega))]
  have hm : a % 2 ^ f.bits % 2 ^ f.m = a % 2 ^ f.m :=
    Nat.mod_mod_of_dvd _ (Nat.pow_dvd_pow 2 (by simp only [FloatFmt.bits]; omega))
  simp only [FloatFmt.decode, hs, he, hm]

/-- A signalling NaN: all exponent bits set, the quiet bit of the mantissa clear (R132). -/
theorem isSig_decode (f : FloatFmt) (a : Nat) : (f.decode a).isSig =
    (f.spec == 1 && a >>> f.m % 2 ^ f.e == 2 ^ f.e - 1 && a % 2 ^ f.m != 0 && !(a % 2 ^ f.m).testBit (f.m - 1)) := by
  simp only [FloatFmt.decode]
  by_cases h1 : (f.spec = 1 && a >>> f.m % 2 ^ f.e == 2 ^ f.e - 1) = true
  · rw [if_pos h1]
    have h2 : (f.spec == 1 && a >>> f.m % 2 ^ f.e == 2 ^ f.e - 1) = true := h1
    rw [h2]
    by_cases h0 : a % 2 ^ f.m = 0
    · simp [h0, Num.isSig]
    · simp [h0, Num.isSig]
  · rw [if_neg h1]
    have h2 : (f.spec == 1 && a >>> f.m % 2 ^ f.e == 2 ^ f.e - 1) = false := Bool.eq_false_iff.2 h1
    rw [h2]
    simp only [Bool.false_and]
    split_ifs <;> rfl

theorem decode_signed_zero (f : FloatFmt) (neg : Bool) : (f.decode (f.signed neg 0)).isSig = false := by
  have hm : f.signed neg 0 % 2 ^ f.m = 0 := by
    cases neg
    · exact Nat.zero_mod _
    · rw [FloatFmt.signed, if_pos rfl, Nat.zero_add]
      exact Nat.mod_eq_zero_of_dvd (Nat.pow_dvd_pow 2 (by omega))
  rw [isSig_decode, hm]
  simp

theorem nanCode_quiet {f : FloatFmt} {a : Nat} (h : (f.decode a).isNan = true) : (f.decode (f.nanCode.getD 0)).isSig = false := by
  rw [isSig_decode]
  by_cases hs : f.spec = 1
  · have hm : f.m ≠ 0 := by
      intro hm
      have hmod : a % 2 ^ f.m = 0 := by rw [hm, Nat.pow_zero, Nat.mod_one]
      simp only [FloatFmt.decode, hmod, hs, show decide ((1 : BitVec 2) = 2) = false from rfl, Bool.false_and, Bool.false_eq_true,
        if_false, if_true] at h
      split_ifs at h <;> cases h
    have hq : (f.nanCode.getD 0 % 2 ^ f.m).testBit (f.m - 1) = true := by
      rw [FloatFmt.nanCode, if_pos hs, Option.getD_some, Nat.mul_add_mod_self_right,
        Nat.mod_eq_of_lt (Nat.pow_lt_pow_right (by omega) (by omega)), Nat.testBit_two_pow_self]
    rw [hq]
    simp
  · rw [beq_eq_false_iff_ne.2 hs]
    rfl

theorem minMax_quiet (f : FloatFmt) (max? : Bool) (a b : Nat) : (f.decode (minMax f max? a b).1).isSig = false := by
  have hsig {x : Num} (h : x.isNan = false) : x.isSig = false := by
    cases x with
    | nan s => cases h
    | inf _ => rfl
    | fin _ _ _ => rfl
  cases ha : (f.decode a).isNan <;> cases hb : (f.decode b).isNan <;> simp only [minMax, ha, hb]
  · have hpick {c : Nat} (hc : c = a ∨ c = b) : (f.decode c).isSig = false := by
      rcases hc with rfl | rfl
      · exact hsig ha
      · exact hsig hb
    exact hpick (by split <;> split <;> simp)
  · exact hsig ha
  · exact hsig hb
  · exact nanCode_quiet ha

theorem plain_isSig (f : FloatFmt) (a : Nat) : (f.decode (f.plain a)).isSig = (f.decode a).isSig := by
  rw [FloatFmt.plain]
  split
  next h =>
    rw [decode_signed_zero]
    cases hd : f.decode a with
    | fin _ _ _ => rfl
    | inf _ => rfl
    | nan s => rw [hd] at h; cases h
  · rw [decode_mod_bits]

/-- The reduction of codes from `a` on, without its flags. -/
def FloatFmt.extreme (f : FloatFmt) (max? : Bool) (a : Nat) (xs : List Nat) : Nat :=
  xs.foldl (fun a y => (minMax f max? (f.plain a) (f.plain y)).1) a

section
variable (f : FloatFmt) (max? : Bool) (w : Nat)

theorem minMax_flags (a b : Nat) : ((Elem.flt f w).minMax max? a b).2 =
    (if (f.decode (f.plain a)).isSig then 1 else 0) ||| (if (f.decode (f.plain b)).isSig then 1 else 0) := by
  simp only [Elem.minMax, minMax]
  split <;> rfl

theorem extreme_quiet {a : Nat} (ha : (f.decode (f.plain a)).isSig = false) (fl : BitVec 5) (xs : List Nat) :
    (Elem.flt f w).extreme max? (a, fl) xs =
      (f.extreme max? a xs, fl ||| if xs.any fun y => (f.decode (f.plain y)).isSig then 1 else 0) := by
  induction xs generalizing a fl with
  | nil => exact Prod.ext rfl BitVec.or_zero.symm
  | cons x r ih =>
    have hnext : (f.decode (f.plain ((Elem.flt f w).minMax max? a x).1)).isSig = false :=
      (plain_isSig ..).trans (minMax_quiet ..)
    rw [Elem.extreme_cons, ih hnext, minMax_flags, ha, List.any_cons, BitVec.or_assoc]
    refine Prod.ext rfl (congrArg (fl ||| ·) ?_)
    cases (f.decode (f.plain x)).isSig <;> cases r.any fun y => (f.decode (f.plain y)).isSig <;> rfl

/-- The first lane meets itself; from then on the code held is quiet. -/
theorem extremeOr_float (none : Nat) (xs : List Nat) : (Elem.flt f w).extremeOr max? none xs =
    (match xs with
      | [] => none
      | x :: _ => f.extreme max? x xs, if xs.any fun y => (f.decode (f.plain y)).isSig then 1 else 0) := by
  cases xs with
  | nil => rfl
  | cons x r =>
    have hnext : (f.decode (f.plain ((Elem.flt f w).minMax max? x x).1)).isSig = false :=
      (plain_isSig ..).trans (minMax_quiet ..)
    rw [Elem.extremeOr, Elem.extreme_cons, extreme_quiet f max? w hnext, minMax_flags, List.any_cons, BitVec.or_self]
    refine Prod.ext rfl ?_
    dsimp only
    cases (f.decode (f.plain x)).isSig <;> cases r.any fun y => (f.decode (f.plain y)).isSig <;> rfl

end

end Sys2Proof.Machine
end

section
/-!
PROOF. O42. Compares bit by bit (R170), permutes unit by unit (R172), and the completions that write a vector or a g register (R158).
-/
namespace Sys2Proof.Machine

/-! ### Compares (R170) -/

theorem getD_map_range {n l : Nat} (f : Nat → Nat) (hl : l < n) : ((List.range n).map f).getD l 0 = f l := by
  rw [List.getD_eq_getElem?_getD, List.getElem?_map, List.getElem?_range hl]
  rfl

theorem foldl_flag {α : Type} (p : α → Bool) (xs : List α) (a : BitVec 5) :
    xs.foldl (fun a x => a ||| if p x then 1 else 0) a = a ||| if xs.any p then 1 else 0 := by
  induction xs generalizing a with
  | nil => exact BitVec.or_zero.symm
  | cons x r ih =>
    rw [List.foldl_cons, ih, List.any_cons, BitVec.or_assoc]
    cases p x <;> cases r.any p <;> rfl

/-- The comparison of one lane. -/
def Strand.compareLane (st : Strand) (o : XOp) (l : Nat) : Bool × BitVec 5 :=
  (st.elem o).pick
    (fun g w => (cmpInt o.imm6.toNat (intOf g w (lane (st.vec (low3 o.ra)) (st.elem o).w l))
      (intOf g w (lane (st.vec (low3 o.rb)) (st.elem o).w l)), 0))
    fun f _ => cmpFlt o.imm6.toNat (f.decode (lane (st.vec (low3 o.ra)) (st.elem o).w l))
      (f.decode (lane (st.vec (low3 o.rb)) (st.elem o).w l))

theorem Strand.vcmpBits_eq (st : Strand) (o : XOp) : st.vcmpBits o =
    let r := (List.range (1024 / (st.elem o).w)).map fun l =>
      if st.active o (st.elem o).w l then st.compareLane o l else (false, 0)
    (BitVec.ofNat 64 (packCodes 1 (r.map fun x => x.1.toNat)), r.foldl (fun a x => a ||| x.2) 0) := by
  unfold Strand.vcmpBits Strand.compareLane
  cases st.elem o <;> rfl

theorem getLsbD_packCodes_one (n : Nat) (b : Nat → Bool) {l : Nat} (hl : l < 64) :
    (BitVec.ofNat 64 (packCodes 1 ((List.range n).map fun l => (b l).toNat))).getLsbD l = (decide (l < n) && b l) := by
  have hget : ((List.range n).map fun l => (b l).toNat).getD l 0 = (decide (l < n) && b l).toNat := by
    rw [List.getD_eq_getElem?_getD, List.getElem?_map]
    by_cases h : l < n
    · rw [List.getElem?_range h, decide_eq_true h, Bool.true_and]
      rfl
    · rw [List.getElem?_eq_none (by simpa using h), decide_eq_false h]
      rfl
  have hfield := packCodes_field 1 ((List.range n).map fun l => (b l).toNat) l
  rw [Nat.one_mul, Nat.pow_one, hget] at hfield
  rw [BitVec.getLsbD_ofNat, decide_eq_true hl, Bool.true_and, Nat.testBit_eq_decide_div_mod_eq, hfield]
  cases decide (l < n) && b l <;> rfl

theorem Strand.vcmpBits_bit (st : Strand) (o : XOp) {l : Nat} (hl : l < 64) : (st.vcmpBits o).1.getLsbD l =
    (decide (l < 1024 / (st.elem o).w) && st.active o (st.elem o).w l && (st.compareLane o l).1) := by
  rw [Strand.vcmpBits_eq]
  dsimp only
  rw [List.map_map]
  refine (getLsbD_packCodes_one _ _ hl).trans ?_
  rw [Bool.and_assoc]
  dsimp only
  cases st.active o (st.elem o).w l
  · rw [if_neg Bool.false_ne_true, Bool.false_and]
  · rw [if_pos rfl, Bool.true_and]

theorem Strand.vcmpBits_flags (st : Strand) (o : XOp) : (st.vcmpBits o).2 =
    (List.range (1024 / (st.elem o).w)).foldl (fun a l => a ||| if st.active o (st.elem o).w l then (st.compareLane o l).2 else 0) 0 := by
  rw [Strand.vcmpBits_eq]
  refine List.foldl_map.trans (congrArg (fun f => List.foldl f 0 (List.range _)) ?_)
  funext a l
  split <;> rfl

theorem cmpInt_eq (c : Nat) (a b : Int) : cmpInt c a b = (match c with
    | 0 => decide (a = b)
    | 1 => decide (a ≠ b)
    | 2 => decide (a < b)
    | 3 => decide (a ≤ b)
    | 4 => decide (a > b)
    | _ => decide (a ≥ b)) := by
  match c with
  | 0 => rfl
  | 1 => exact (decide_not ..).symm
  | 2 | 3 | 4 | _ + 5 => rfl

theorem cmpFlt_cond (c : Nat) (a b : Num) : (cmpFlt c a b).1 = (match c with
    | 0 => !(a.isNan || b.isNan) && !a.lt b && !b.lt a
    | 1 => (a.isNan || b.isNan) || a.lt b || b.lt a
    | 2 => !(a.isNan || b.isNan) && a.lt b
    | 3 => !(a.isNan || b.isNan) && !b.lt a
    | 4 => !(a.isNan || b.isNan) && b.lt a
    | 5 => !(a.isNan || b.isNan) && !a.lt b
    | _ => a.isNan || b.isNan) := by
  match c with
  | 0 => simp only [cmpFlt, Num.eq, Bool.not_or]
  | 1 => simp only [cmpFlt, Num.eq, Bool.not_and, Bool.not_not]
  | 2 | 3 | 4 | 5 | _ + 6 => rfl

theorem cmpFlt_flags (c : Nat) (a b : Num) : (cmpFlt c a b).2 =
    if a.isSig || b.isSig || ((a.isNan || b.isNan) && decide (2 ≤ c ∧ c ≤ 5)) then 1 else 0 := by
  rw [Bool.or_comm, ← Bool.or_assoc]
  rfl

section
variable {st : Strand} {o : XOp} {g : Bool} {w : Nat} (he : st.elem o = .int g w)
include he

theorem Strand.compareLane_int (l : Nat) : st.compareLane o l =
    (cmpInt o.imm6.toNat (intOf g w (lane (st.vec (low3 o.ra)) w l)) (intOf g w (lane (st.vec (low3 o.rb)) w l)), 0) := by
  unfold Strand.compareLane
  rw [he]
  rfl

theorem Strand.vcmpBits_flags_int : (st.vcmpBits o).2 = 0 := by
  rw [Strand.vcmpBits_flags]
  refine List.foldl_fixed' (fun l => ?_) _
  rw [Strand.compareLane_int he]
  exact (congrArg _ (ite_self _)).trans BitVec.or_zero

end

section
variable {st : Strand} {o : XOp} {f : FloatFmt} {w : Nat} (he : st.elem o = .flt f w)
include he

theorem Strand.compareLane_flt (l : Nat) : st.compareLane o l =
    cmpFlt o.imm6.toNat (f.decode (lane (st.vec (low3 o.ra)) w l)) (f.decode (lane (st.vec (low3 o.rb)) w l)) := by
  unfold Strand.compareLane
  rw [he]
  rfl

theorem Strand.vcmpBits_flags_flt : (st.vcmpBits o).2 =
    if (List.range (1024 / w)).any fun l => st.active o w l &&
      (let a := f.decode (lane (st.vec (low3 o.ra)) w l)
       let b := f.decode (lane (st.vec (low3 o.rb)) w l)
       a.isSig || b.isSig || ((a.isNan || b.isNan) && decide (2 ≤ o.imm6.toNat ∧ o.imm6.toNat ≤ 5))) then 1 else 0 := by
  have hw : (st.elem o).w = w := congrArg Elem.w he
  rw [Strand.vcmpBits_flags, hw]
  refine Eq.trans ?_ ((foldl_flag _ _ 0).trans BitVec.zero_or)
  refine List.foldl_ext _ _ _ fun a l _ => congrArg (a ||| ·) ?_
  rw [Strand.compareLane_flt he, cmpFlt_flags]
  cases st.active o w l
  · rfl
  · rw [if_pos rfl, Bool.true_and]

end

theorem Strand.vcmpBits_flags_eq (st : Strand) (o : XOp) : (st.vcmpBits o).2 =
    let w := (st.elem o).w
    match st.elem o with
    | .int _ _ => 0
    | .flt f _ => if (List.range (1024 / w)).any fun l => st.active o w l &&
        (let a := f.decode (lane (st.vec (low3 o.ra)) w l)
         let b := f.decode (lane (st.vec (low3 o.rb)) w l)
         a.isSig || b.isSig || ((a.isNan || b.isNan) && decide (2 ≤ o.imm6.toNat ∧ o.imm6.toNat ≤ 5))) then 1 else 0 := by
  cases he : st.elem o with
  | int g w => exact Strand.vcmpBits_flags_int he
  | flt f w => exact Strand.vcmpBits_flags_flt he

/-! ### Permutes (R172) -/

theorem field_mod {n p w k : Nat} (h : p + w ≤ k) : n % 2 ^ k / 2 ^ p % 2 ^ w = n / 2 ^ p % 2 ^ w := by
  rw [← BitVec.toNat_ofNat n k, field_ofNat h]

/-- Lane `l` within its unit of `k` lanes. -/
theorem lane_of_unit (v : Vec) {w k : Nat} (hk : 0 < k) (l : Nat) :
    lane v (w * k) (l / k) / 2 ^ (w * (l % k)) % 2 ^ w = lane v w l := by
  have hin : w * (l % k) + w ≤ w * k := (Nat.mul_succ ..).symm.le.trans (Nat.mul_le_mul_left w (Nat.mod_lt l hk))
  rw [lane_eq, lane_eq, field_mod hin, Nat.div_div_eq_div_mul, ← Nat.pow_add, Nat.mul_assoc, ← Nat.mul_add, Nat.div_add_mod]

/-- Units of at least 8 bits: their lanes, their number, and the mask bit that a unit takes. -/
theorem unit_facts {w : Nat} (h : w ∈ [4, 8, 16, 32]) :
    w * (max w 8 / w) = max w 8 ∧ 0 < max w 8 / w ∧ 1024 / max w 8 * (max w 8 / w) = 1024 / w ∧
      ∀ i, (if w = 4 then 2 * i else i) = i * (max w 8 / w) := by
  simp only [List.mem_cons, List.not_mem_nil, or_false] at h
  rcases h with rfl | rfl | rfl | rfl
  · exact ⟨rfl, by decide, rfl, fun i => Nat.mul_comm 2 i⟩
  all_goals exact ⟨rfl, by decide, rfl, fun i => (Nat.mul_one i).symm⟩

theorem Strand.vpermResult_lane (st : Strand) (o : XOp) {l : Nat} (hl : l < 1024 / (st.elem o).w) :
    lane (st.vpermResult o) (st.elem o).w l =
      let w := (st.elem o).w
      let u := max w 8
      let k := u / w
      if st.active o w (l / k * k) then
        (st.elem o).clean (lane (st.vec (low3 o.ra)) w (lane (st.vec (low3 o.rb)) 8 (l / k) % (1024 / u) * k + l % k)) % 2 ^ w
      else lane (st.vec (low3 o.rd)) w l := by
  obtain ⟨hu, hk, hn, hmask⟩ := unit_facts (w := (st.elem o).w) (elemOf_w o.fmt (st.desc o.fd))
  have hunit : l / (max (st.elem o).w 8 / (st.elem o).w) < 1024 / max (st.elem o).w 8 := (Nat.div_lt_iff_lt_mul hk).2 (hn.symm ▸ hl)
  have hlane := Nat.mod_lt l hk
  have hold := lane_of_unit (st.vec (low3 o.rd)) (w := (st.elem o).w) hk l
  refine (lane_of_unit (st.vpermResult o) hk l).symm.trans ?_
  rw [hu] at hold ⊢
  unfold Strand.vpermResult
  dsimp only
  rw [lane_vecOf _ hunit, getD_map_range _ hunit, hmask]
  split
  · have hin : (st.elem o).w * (l % (max (st.elem o).w 8 / (st.elem o).w)) + (st.elem o).w ≤ max (st.elem o).w 8 :=
      (Nat.mul_succ ..).symm.le.trans ((Nat.mul_le_mul_left _ hlane).trans hu.le)
    rw [field_mod hin, packCodes_field, getD_map_range _ hlane]
  · rw [Nat.mod_eq_of_lt (lane_lt ..)]
    exact hold

/-! ### One lane read (R172) -/

theorem ofInt_intOf_true {w c : Nat} (h : c < 2 ^ w) : BitVec.ofInt 64 (intOf true w c) =
    if 2 ^ (w - 1) ≤ c then BitVec.ofInt 64 ((c : Int) - 2 ^ w) else BitVec.ofNat 64 c := by
  simp only [intOf_eq true h, Bool.true_and, decide_eq_true_eq, apply_ite (BitVec.ofInt 64), BitVec.ofInt_natCast]

theorem Strand.vextResult_eq (st : Strand) (o : XOp) : st.vextResult o =
    let w := (st.elem o).w
    let c := lane (st.vec (low3 o.ra)) w ((st.reg o.rb).toNat % (1024 / w))
    match st.elem o with
    | .int true _ => if 2 ^ (w - 1) ≤ c then BitVec.ofInt 64 ((c : Int) - 2 ^ w) else BitVec.ofNat 64 c
    | .int false _ => BitVec.ofNat 64 c
    | .flt f _ => BitVec.ofNat 64 (c % 2 ^ f.bits) := by
  unfold Strand.vextResult
  cases st.elem o with
  | int g w =>
    cases g
    · exact BitVec.ofInt_natCast ..
    · exact ofInt_intOf_true (lane_lt ..)
  | flt f w => rfl

/-! ### Completions that write a whole vector, or a g register -/

section
variable {s : State} {r : Nat} {st : Strand} {i : Instr} {pins : List Pin} {d : Option Place} {o : XOp}
  (hs : s.strand r = some st) (hstay : s.stays st) (hw : st.wait = .command i true pins d)
include hs hstay hw

theorem vectorResult_vec {v : Vec × BitVec 5} (hd : st.vectorDone i = some (st.putVec o v)) :
    execVectorResult r s = .next ((s.leaveAnvil r).setStrand r { st with
      vecs := st.vecs.set (low3 o.rd).toNat v.1 (low3 o.rd).isLt, fflags := st.fflags ||| v.2
      tags := st.tags.set (low3 o.rd).toNat (o.fmt ++ (0#1 ++ (if o.fmt = 0xB then o.fd else 0))) (low3 o.rd).isLt
      pc := st.pc + 12, wait := .run }) := by
  rw [← tagOf_eq, execVectorResult_done hs hw hstay hd rfl rfl]
  rfl

theorem vectorResult_g {v : Word × BitVec 5} (hd : st.vectorDone i = some (st.putG o v)) :
    execVectorResult r s = .next ((s.leaveAnvil r).setStrand r { st with
      regs := st.regs.set o.rd.toNat v.1 o.rd.isLt, fflags := st.fflags ||| v.2, pc := st.pc + 12, wait := .run }) := by
  rw [execVectorResult_done hs hw hstay hd rfl rfl]
  rfl

end

end Sys2Proof.Machine
end

section
/-!
PROOF. O42. Each clause is one completion (`vectorResult_vec`, `vectorResult_g`) with what its result holds.
-/
namespace Sys2Proof.Machine

/-- Settles O42: each clause is a completion by `vectorResult_vec` or `vectorResult_g`, with the lanes or bits that its result holds. -/
theorem vectorOtherResults : Obligations.VectorOtherResults := by
  unfold Obligations.VectorOtherResults
  intro o s rec st pins d hs hstay e w u mode active bits free ran vec gd runs n ints clean codes
  have hbits : bits = fun k x l => lane (st.vec (low3 k)) x l := by
    funext k x l
    exact (lane_eq ..).symm
  clear_value bits
  subst hbits
  have hvec {i : Instr} {v : Vec × BitVec 5} (hw : runs i) (hd : st.vectorDone i = some (st.putVec o v)) : vec v.1 v.2 :=
    vectorResult_vec hs hstay hw hd
  have hg {i : Instr} {v : Word × BitVec 5} (hw : runs i) (hd : st.vectorDone i = some (st.putG o v)) : gd v.1 v.2 :=
    vectorResult_g hs hstay hw hd
  have hlt : ∀ c ∈ codes, c < 2 ^ w := Strand.activeCodes_lt
  have hred {v : Vec} {f : BitVec 5} (hrun : runs (.vred o)) (hv : vecOf w [(st.vredLane o).1] = v) (hf : (st.vredLane o).2 = f) : vec v f :=
    hf ▸ hv ▸ hvec hrun rfl
  refine ⟨?vcvt, ?vredInt, ?vredSum, ?vredExtreme, ?vcmp, ?vperm, ?vext, ?vzero, ?vtag, ?vsett⟩
  case vcvt =>
    intro hrun src m p from_ lo conv hit
    have hres : st.vcvtResult o = st.mapLanes o w fun l =>
        if lo ≤ l ∧ l < lo + min n m then conv l else (lane (st.vec (low3 o.rd)) w l, 0) := by
      have hp : (o.imm6.extractLsb' 0 3).toNat = p := by rw [BitVec.extractLsb'_toNat, Nat.shiftRight_zero]
      unfold Strand.vcvtResult
      dsimp only
      rw [hp, tagOf_eq]
      simp only [beq_iff_eq]
      rfl
    refine ⟨(st.vcvtResult o).1, ?_, fun l hl => ?_⟩
    · have h := hvec (v := st.vcvtResult o) hrun rfl
      have hflags := (congrArg Prod.snd hres).trans (mapLanes_where_flags ..)
      rwa [hflags] at h
    · rw [← lane_eq, hres]
      exact mapLanes_where_lane _ _ _ _ hl
  case vredInt =>
    intro g x hrun he lo hi total put
    obtain rfl : w = x := congrArg Elem.w he
    have hints : ints g = (st.activeCodes o).map (intOf g w) := by
      rw [Strand.activeCodes, List.map_map]
      exact List.map_congr_left fun l _ => (intOf_eq g (lane_lt ..)).symm
    have hput (y : Int) {f : BitVec 5} (hz : st.vredLane o = (intCode w y, f)) : vec (put y) f :=
      hred hrun (hz ▸ vecOf_intCode w y) (hz ▸ rfl)
    refine ⟨fun h => ?_, fun h => ?_, fun h => ?_, fun h => ?_⟩
    · exact hput _ ((Strand.vredLane_sum he h).trans (hints ▸ wrapsat_eq ..))
    · have hlo : intLow g w = lo := intLow_eq g w
      exact hput _ (hints ▸ hlo ▸ Strand.vredLane_max he h)
    · have hhi : intHigh g w = hi := intHigh_eq g w
      exact hput _ (hints ▸ hhi ▸ Strand.vredLane_min he h)
    · have hor := Strand.vredLane_or he h
      exact hred hrun (hor ▸ (vecOf_singleton ..).trans (congrArg _ (Nat.mod_eq_of_lt (foldl_or_lt (Nat.two_pow_pos w) hlt)))) (hor ▸ rfl)
  case vredSum =>
    intro f x hrun he h r z
    have hz : st.vredLane o = z := by
      rw [Strand.vredLane_floatSum he h, Strand.activeCodes, List.map_map]
      rfl
    exact hred hrun (hz ▸ vecOf_singleton ..) (hz ▸ rfl)
  case vredExtreme =>
    intro f x hrun he h hi z
    have hz : st.vredLane o = (z, if codes.any fun y => (f.decode (f.plain y)).isSig then 1 else 0) := by
      rw [Strand.vredLane_floatExtreme he h, extremeOr_float]
      rfl
    exact hred hrun (hz ▸ vecOf_singleton ..) (hz ▸ rfl)
  case vcmp =>
    intro hrun
    have hcmp {f : BitVec 5} (hf : (st.vcmpBits o).2 = f) : gd (st.vcmpBits o).1 f := hf ▸ hg hrun rfl
    refine ⟨(st.vcmpBits o).1, hcmp ?_, fun l hl => ⟨fun g x he => ?_, fun g x he => ?_⟩⟩
    · exact Strand.vcmpBits_flags_eq st o
    · obtain rfl : w = x := congrArg Elem.w he
      rw [Strand.vcmpBits_bit st o hl, Strand.compareLane_int he, intOf_eq g (lane_lt ..), intOf_eq g (lane_lt ..), cmpInt_eq]
      rfl
    · obtain rfl : w = x := congrArg Elem.w he
      rw [Strand.vcmpBits_bit st o hl, Strand.compareLane_flt he, cmpFlt_cond]
      rfl
  case vperm =>
    intro hrun
    refine ⟨st.vpermResult o, hvec (v := (st.vpermResult o, 0)) hrun rfl, fun l hl => ?_⟩
    exact (lane_eq ..).symm.trans (Strand.vpermResult_lane st o hl)
  case vext =>
    intro hrun c
    have h := hg (v := (st.vextResult o, 0)) hrun rfl
    rwa [Strand.vextResult_eq] at h
  case vzero =>
    intro hrun hfmt
    exact execVectorResult_done hs hrun hstay (if_pos hfmt) rfl rfl
  case vtag => exact fun hrun => hvec (v := (st.vec (low3 o.ra), 0)) hrun rfl
  case vsett =>
    intro hi hok
    refine ⟨?_, ?_⟩
    · have hlow : (st.reg o.ra).extractLsb' 0 32 = BitVec.ofNat 32 (st.reg o.ra).toNat :=
        BitVec.eq_of_toNat_eq (by rw [BitVec.extractLsb'_toNat, Nat.shiftRight_zero, BitVec.toNat_ofNat])
      exact hlow ▸ State.issue_true 12 _ hi hok
    · have hwide : (st.desc (low3 o.ra)).zeroExtend 64 = BitVec.ofNat 64 (st.desc (low3 o.ra)).toNat :=
        BitVec.eq_of_toNat_eq (by rw [BitVec.zeroExtend, BitVec.toNat_setWidth, BitVec.toNat_ofNat])
      exact hwide ▸ State.issue_true 12 _ hi hok

end Sys2Proof.Machine
end

section
/-!
PROOF. O40. The reply of a Tongs operand: what it does to the pins of its command, and the withdrawal of a command that it decides
(R179, R181, R182, R368).
-/
namespace Sys2Proof.Machine

/-! ### Pins after a reply (R181) -/

/-- The pins of a command once reply `x` to operand `i` has come, for every operand of its block. -/
def pinsAfter (hs : List Word) (pins : List Pin) (i : Nat) (x : Pin) : List Pin :=
  (hs.zip pins).map fun q => if Handle.block q.1 == Handle.block (hs.getD i 0) then x else q.2

theorem pinsAfter_eq (hs : List Word) (pins : List Pin) (i : Nat) (x : Pin) : pinsAfter hs pins i x =
    (hs.zip pins).map fun q => if q.1.toNat / 4096 = (hs.getD i 0).toNat / 4096 then x else q.2 := by
  simp only [pinsAfter, beq_iff_eq, Handle.block_eq_iff]

theorem firstBad_none {l : List (Word × Pin)} (h : ∀ q ∈ l, q.2.isData = true ∨ q.2 = .waiting) : firstBad l = none := by
  induction l with
  | nil => rfl
  | cons q l ih =>
    obtain ⟨g, p⟩ := q
    obtain ⟨hp, hl⟩ := List.forall_mem_cons.1 h
    cases p with
    | data _ => exact ih hl
    | waiting => rfl
    | _ => exact absurd hp (by simp [Pin.isData])

/-- Pinned operands are passed over. -/
theorem firstBad_append {l m : List (Word × Pin)} (h : ∀ q ∈ l, q.2.isData = true) : firstBad (l ++ m) = firstBad m := by
  induction l with
  | nil => rfl
  | cons q l ih =>
    obtain ⟨g, p⟩ := q
    obtain ⟨hp, hl⟩ := List.forall_mem_cons.1 h
    cases p with
    | data _ => exact ih hl
    | _ => cases hp

theorem firstBad_cons {x : Pin} (hdata : x.isData = false) (hwait : x ≠ .waiting) (h : Word) (l : List (Word × Pin)) :
    firstBad ((h, x) :: l) = some (h, x) := by
  cases x with
  | data _ => cases hdata
  | waiting => exact absurd rfl hwait
  | _ => rfl

/-- Data decides nothing while every other operand is pinned or awaited. -/
theorem firstBad_data {hs : List Word} {pins : List Pin} (i : Nat) (z : Payload) (h : ∀ y ∈ pins, y.isData = true ∨ y = .waiting) :
    firstBad (hs.zip (pinsAfter hs pins i (.data z))) = none := by
  refine firstBad_none fun q hq => ?_
  obtain ⟨y, hy, hq⟩ := List.mem_map.1 (List.of_mem_zip hq).2
  rw [← hq]
  split
  · exact .inl rfl
  · exact h _ (List.of_mem_zip hy).2

/-- A reply that is not data decides for its operand, when every operand before it is pinned and none of them is of its block. -/
theorem firstBad_reply {hs : List Word} {pins : List Pin} {i : Nat} {x : Pin} (hlen : pins.length = hs.length) (hi : i < hs.length)
    (hpinned : (pins.take i).all Pin.isData = true) (hfirst : ∀ j < i, (hs.getD j 0).toNat / 4096 ≠ (hs.getD i 0).toNat / 4096)
    (hdata : x.isData = false) (hwait : x ≠ .waiting) : firstBad (hs.zip (pinsAfter hs pins i x)) = some (hs.getD i 0, x) := by
  have hl : (hs.zip (pinsAfter hs pins i x)).length = hs.length := by simp [pinsAfter, hlen]
  have hget (j : Nat) (hj : j < hs.length) : (hs.zip (pinsAfter hs pins i x))[j]'(hl ▸ hj) =
      (hs.getD j 0, if (hs.getD j 0).toNat / 4096 = (hs.getD i 0).toNat / 4096 then x else pins[j]'(hlen ▸ hj)) := by
    simp [pinsAfter_eq, hj]
  rw [← List.take_append_drop i (hs.zip (pinsAfter hs pins i x)), firstBad_append, List.drop_eq_getElem_cons (hl ▸ hi), hget i hi, if_pos rfl,
    firstBad_cons hdata hwait]
  intro q hq
  obtain ⟨j, hj, rfl⟩ := List.mem_take_iff_getElem.1 hq
  have hji : j < i := Nat.lt_of_lt_of_le hj (Nat.min_le_left ..)
  rw [hget j (hji.trans hi), if_neg (hfirst j hji)]
  exact List.all_eq_true.1 hpinned _ (List.mem_take_iff_getElem.2 ⟨j, by omega, rfl⟩)

/-! ### The command withdrawn (R181) -/

/-- The command of strand `r` is out of its core's queue, and its requests are abandoned. -/
def State.dequeued (s : State) (r : Nat) (st : Strand) : State :=
  (s.setCore st.home { s.core st.home with cmdq := (s.core st.home).cmdq.filter (· != r) }).abandon r

theorem State.withdraw_eq (s : State) (r : Nat) (st : Strand) (w : Wait) :
    (s.setStrand r { st with wait := w }).withdraw r = (s.dequeued r st).setStrand r { st with wait := .run } := by
  simp only [State.withdraw, State.strand_setStrand_same]
  exact congrArg (fun m => { s.dequeued r st with strands := m }) (Maps.put_put_same ..)

section
variable {s : State} {r i : Nat} {st : Strand} {c : Instr} {pins : List Pin} {d : Option Place}
  (hs : s.strand r = some st) (hw : st.wait = .command c false pins d)
include hs hw

theorem State.pinReply_eq (x : Pin) : s.pinReply r i x =
    (s.setStrand r { st with wait := .command c false (pinsAfter (tongsHandles st c) pins i x) d }).decideTongs r := by
  simp only [State.pinReply, hs, hw, pinsAfter]

/-- An undecided command keeps its place, with its new pins. -/
theorem State.pinReply_undecided {x : Pin} (hb : firstBad ((tongsHandles st c).zip (pinsAfter (tongsHandles st c) pins i x)) = none) :
    s.pinReply r i x = s.setStrand r { st with wait := .command c false (pinsAfter (tongsHandles st c) pins i x) d } := by
  have hh (w : Wait) : tongsHandles { st with wait := w } c = tongsHandles st c := rfl
  rw [State.pinReply_eq hs hw]
  simp only [State.decideTongs, State.strand_setStrand_same, hh, hb]

/-- What a reply that decides leaves (R181, R368). -/
theorem State.pinReply_decides {x : Pin} {h : Word}
    (hb : firstBad ((tongsHandles st c).zip (pinsAfter (tongsHandles st c) pins i x)) = some (h, x)) :
    let out := (s.dequeued r st).setStrand r { st with wait := .run }
    (x = .stale → s.pinReply r i x = out.raise r 8 h) ∧ (x = .poison → s.pinReply r i x = out.raise r 17 h) ∧
      (x = .fault → s.pinReply r i x = out.toFaultQueue r h (.perm 1)) ∧
      ∀ p g, x = .parked p g → s.pinReply r i x = (s.dequeued r st).setStrand r { st with wait := .parked p g } := by
  have hh (w : Wait) : tongsHandles { st with wait := w } c = tongsHandles st c := rfl
  rw [State.pinReply_eq hs hw]
  simp only [State.decideTongs, State.strand_setStrand_same, hh, hb, State.withdraw_eq]
  refine ⟨?_, ?_, ?_, ?_⟩
  · rintro rfl
    rfl
  · rintro rfl
    rfl
  · rintro rfl
    rfl
  · rintro p g rfl
    refine (State.updStrand_some _ _ _ _ (State.strand_setStrand_same ..)).trans ?_
    exact congrArg (fun m => { s.dequeued r st with strands := m }) (Maps.put_put_same ..)

end

/-! ### The event -/

/-- A copy of remote data goes into a slice, and nowhere else (R301, R303). -/
theorem State.keepCopy_sameReaders (s : State) (c : BitVec 9) (o : Op) (d : Payload) (pw : BitVec 16) : SameReaders s (s.keepCopy c o d pw) := by
  unfold State.keepCopy
  split
  · unfold State.placeCopy
    dsimp only
    split
    · exact State.setCluster_sameReaders ..
    · split
      · exact ⟨rfl, rfl, rfl, rfl⟩
      · exact State.setCluster_sameReaders ..
  · exact ⟨rfl, rfl, rfl, rfl⟩

section
variable {s : State} {m r i : Nat} {q : Op} {x : Reply} (hm : Maps.get s.net m = some (.reply q x)) (ha : q.asker = .tongs r i)
include hm ha

theorem State.tongsReply_eq : s.tongsReply m = some (q, x, r, i) := by
  simp only [State.tongsReply, hm, ha]

/-- The reply to an abandoned request is dropped. -/
theorem execTongsOperandReply_drops (hw : s.awaited q = false) :
    execTongsOperandReply m s = .next ((s.take m).unack q.unit q.seq) := by
  rw [execTongsOperandReply, State.tongsReply_eq hm ha]
  exact if_neg (Bool.eq_false_iff.1 hw)

theorem execTongsOperandReply_data (hw : s.awaited q = true) {z : Payload} {pw : BitVec 16} {bits : BitVec 16} (hx : x = .data z pw bits) :
    execTongsOperandReply m s = .next ((((s.take m).unack q.unit q.seq).keepCopy (coreCluster (BitVec.ofNat 13 q.unit)) q z pw).pinReply r i
      (.data z)) := by
  subst hx
  rw [execTongsOperandReply, State.tongsReply_eq hm ha]
  exact if_pos hw

/-- A reply that is not data, as the pin that it leaves. -/
theorem execTongsOperandReply_refuses (hw : s.awaited q = true) :
    let s1 := (s.take m).unack q.unit q.seq
    (x = .stale → execTongsOperandReply m s = .next (s1.pinReply r i .stale)) ∧
      (x = .poison → execTongsOperandReply m s = .next (s1.pinReply r i .poison)) ∧
      ∀ bits cause, x = .report bits cause →
        execTongsOperandReply m s = .next (s1.pinReply r i (if bits = 0 then .parked q.place q.h else .fault)) := by
  rw [execTongsOperandReply, State.tongsReply_eq hm ha]
  refine ⟨?_, ?_, ?_⟩
  · rintro rfl
    exact if_pos hw
  · rintro rfl
    exact if_pos hw
  · rintro bits cause rfl
    exact if_pos hw

end

/-- Settles O40: the event is `execTongsOperandReply_data` or `execTongsOperandReply_refuses`; what the
operand's pin decides says `State.pinReply_undecided` or `State.pinReply_decides`. -/
theorem tongsReplies : Obligations.TongsReplies := by
  unfold Obligations.TongsReplies
  intro s m r i st q x c pins d hs block stands s1 core off hm ha
  refine ⟨execTongsOperandReply_drops hm ha, fun hstands hst hw hlen hi => ⟨?data, ?refused⟩⟩
  case data =>
    intro z pw bits hx hpins now
    have hsame := s1.keepCopy_sameReaders (coreCluster (BitVec.ofNat 13 q.unit)) q z pw
    have hstrand (w : Nat) : (s1.keepCopy (coreCluster (BitVec.ofNat 13 q.unit)) q z pw).strand w = s.strand w :=
      congrArg (Maps.get · w) hsame.strands
    have hnow : pinsAfter hs pins i (.data z) = now := pinsAfter_eq ..
    have hev := execTongsOperandReply_data hm ha hstands hx
    rw [State.pinReply_undecided ((hstrand r).trans hst) hw (firstBad_data i z hpins), hnow] at hev
    exact ⟨_, hev, State.strand_setStrand_same .., fun w hne => (State.strand_setStrand_other _ _ _ _ hne).trans (hstrand w),
      hsame.cores, hsame.hbm, hsame.units⟩
  case refused =>
    intro hpinned hfirst out
    have decides {y : Pin} (hdata : y.isData = false) (hwait : y ≠ .waiting) :=
      State.pinReply_decides (s := s1) hst hw (firstBad_reply hlen hi hpinned hfirst hdata hwait)
    obtain ⟨hstale, hpoison, hreport⟩ := execTongsOperandReply_refuses hm ha hstands
    refine ⟨fun hx => ?_, fun hx => ?_, fun cause hx => ?_, fun bits cause hbits hx => ?_⟩
    · obtain ⟨hout, -⟩ := decides (y := .stale) rfl nofun
      exact (hstale hx).trans (congrArg _ (hout rfl))
    · obtain ⟨-, hout, -⟩ := decides (y := .poison) rfl nofun
      exact (hpoison hx).trans (congrArg _ (hout rfl))
    · obtain ⟨-, -, -, hout⟩ := decides (y := .parked q.place q.h) rfl nofun
      exact (hreport 0 cause hx).trans (congrArg _ (hout _ _ rfl))
    · obtain ⟨-, -, hout, -⟩ := decides (y := .fault) rfl nofun
      have hev := hreport bits cause hx
      rw [if_neg hbits, hout rfl] at hev
      exact hev

end Sys2Proof.Machine
end

section
/-!
PROOF. O43. The words of a tile and of a vector that a tile or matrix command writes (R177, R190), and the rows of top-k (R192, R193).
-/
namespace Sys2Proof.Machine

/-! ### Words of a tile -/

theorem tileWord_tileFrom (l : List Nat) {k : Nat} (hk : k < 1024) : tileWord (tileFrom l) k = BitVec.ofNat 32 (l.getD k 0) := by
  refine BitVec.eq_of_toNat_eq ?_
  rw [tileWord, BitVec.extractLsb'_toNat, Nat.shiftRight_eq_div_pow, tileFrom, field_ofNat (by omega), packCodes_field, BitVec.toNat_ofNat]

theorem getD_map_range_of_lt {α : Type} {n l : Nat} (f : Nat → α) (d : α) (hl : l < n) : ((List.range n).map f).getD l d = f l := by
  rw [List.getD_eq_getElem?_getD, List.getElem?_map, List.getElem?_range hl, Option.map_some, Option.getD_some]

theorem tileBuild_word (fn : Nat → Nat → BitVec 32 × BitVec 5) {i j : Nat} (hi : i < 32) (hj : j < 32) :
    tileWord (tileBuild fn).1 (32 * i + j) = (fn i j).1 := by
  have hrow : (32 * i + j) / 32 = i := by omega
  have hcol : (32 * i + j) % 32 = j := by omega
  rw [tileBuild, tileWord_tileFrom _ (by omega), List.map_map, getD_map_range_of_lt _ _ (by omega)]
  simp only [Function.comp, hrow, hcol, BitVec.ofNat_toNat, BitVec.setWidth_eq]

theorem tileBuild_flags (fn : Nat → Nat → BitVec 32 × BitVec 5) :
    (tileBuild fn).2 = (List.range 1024).foldl (fun a k => a ||| (fn (k / 32) (k % 32)).2) 0 := by
  simp only [tileBuild, List.foldl_map]

theorem tileBuild_congr {f g : Nat → Nat → BitVec 32 × BitVec 5} (h : ∀ i < 32, ∀ j < 32, f i j = g i j) : tileBuild f = tileBuild g := by
  have hmap : ((List.range 1024).map fun k => f (k / 32) (k % 32)) = (List.range 1024).map fun k => g (k / 32) (k % 32) :=
    List.map_congr_left fun k hk => h _ (by have := List.mem_range.1 hk; omega) _ (Nat.mod_lt _ (by decide))
  rw [tileBuild, tileBuild, hmap]

theorem vecBuild_word (fn : Nat → BitVec 32 × BitVec 5) {i : Nat} (hi : i < 32) :
    ((vecBuild fn).1.extractLsb' (32 * i) 32 : BitVec 32) = (fn i).1 := by
  refine BitVec.eq_of_toNat_eq ?_
  refine (lane_vecOf (w := 32) _ (by omega)).trans ?_
  rw [List.map_map, getD_map_range_of_lt _ _ hi]
  exact Nat.mod_eq_of_lt (fn i).1.isLt

theorem vecBuild_flags (fn : Nat → BitVec 32 × BitVec 5) :
    (vecBuild fn).2 = (List.range 32).foldl (fun a k => a ||| (fn k).2) 0 := List.foldl_map

/-! ### Tiles made of rows -/

/-- Element `j` of row `i`, of rows of 32 elements in one list. -/
theorem getD_flatten_rows {rows : List (List (BitVec 32))} (h : ∀ l ∈ rows, l.length = 32) (i : Nat) {j : Nat} (hj : j < 32) :
    rows.flatten.getD (32 * i + j) 0 = (rows.getD i []).getD j 0 := by
  induction rows generalizing i with
  | nil => rfl
  | cons l rows ih =>
    obtain ⟨hl, hrows⟩ := List.forall_mem_cons.1 h
    cases i with
    | zero => rw [List.flatten_cons, List.getD_append _ _ _ _ (by omega), List.getD_cons_zero, Nat.mul_zero, Nat.zero_add]
    | succ i =>
      rw [List.flatten_cons, List.getD_append_right _ _ _ _ (by omega), List.getD_cons_succ, ← ih hrows i]
      congr 1
      omega

theorem tileWord_rows {rows : List (List (BitVec 32))} (h : ∀ l ∈ rows, l.length = 32) {i j : Nat} (hi : i < 32) (hj : j < 32) :
    tileWord (tileFrom (rows.flatten.map BitVec.toNat)) (32 * i + j) = (rows.getD i []).getD j 0 := by
  rw [tileWord_tileFrom _ (by omega), ← getD_flatten_rows h i hj, show (0 : Nat) = BitVec.toNat (0 : BitVec 32) from rfl, List.getD_map,
    BitVec.ofNat_toNat, BitVec.setWidth_eq]

/-- A row of top-k has its 16 scores and 16 indices. -/
theorem topRow_length {isInt asc : Bool} {k : Nat} (hk : k ≤ 16) (free old : List (BitVec 32)) (cand : List (BitVec 32 × BitVec 32)) :
    (topRow isInt asc k free old cand).1.length = 32 := by
  have hbest (l : List (BitVec 32 × BitVec 32)) : (l.take k).length ≤ 16 := (List.length_take_le ..).trans hk
  simp only [topRow, List.length_append, List.length_map, List.length_replicate]
  generalize hl : (List.take k _).length = n
  have hn : n ≤ 16 := hl ▸ hbest _
  omega

theorem emptyRow_getD (isInt asc : Bool) {j : Nat} (hj : j < 32) :
    (emptyRow isInt asc).getD j 0 = if 16 ≤ j then 0xFFFFFFFF#32 else emptyScore isInt asc := by
  unfold emptyRow
  split
  next h => rw [List.getD_append_right _ _ _ _ (by simpa using h), List.getD_replicate _ (by simp; omega)]
  next h => rw [List.getD_append _ _ _ _ (by simp; omega), List.getD_replicate _ (by omega)]

end Sys2Proof.Machine
end

section
/-!
PROOF. O43. The products of the array over the rows of its pinned blocks (R145, R146, R185).
-/
namespace Sys2Proof.Machine

/-! ### Rows of an operand block (R18, R185) -/

/-- A field of a field. -/
theorem extractLsb'_extractLsb'_add {n m w : Nat} (x : BitVec n) (a : Nat) {b : Nat} (h : b + w ≤ m) :
    (x.extractLsb' a m).extractLsb' b w = x.extractLsb' (a + b) w := by
  ext k hk
  rw [BitVec.getElem_extractLsb', BitVec.getElem_extractLsb', BitVec.getLsbD_extractLsb', decide_eq_true (by omega), Bool.true_and, Nat.add_assoc]

/-- Code `k` of row `i` of an operand block. -/
def blockCode (p : Payload) (e : Elem) (i k : Nat) : Nat := p.toNat / 2 ^ (1024 * i + e.w * k) % 2 ^ e.w

theorem rowCodes_eq (p : Payload) (e : Elem) (i : Nat) : rowCodes p e.w i = (List.range (1024 / e.w)).map (blockCode p e i) := by
  refine List.map_congr_left fun k hk => ?_
  have hin : e.w * k + e.w ≤ 1024 :=
    (Nat.mul_succ e.w k).symm.le.trans ((Nat.mul_le_mul_left e.w (List.mem_range.1 hk)).trans (Nat.mul_div_le 1024 e.w))
  rw [lane, extractLsb'_extractLsb'_add _ _ hin, BitVec.extractLsb'_toNat, Nat.shiftRight_eq_div_pow, blockCode]

/-- The exact values of row `i` of an operand block. -/
def blockRow (p : Payload) (e : Elem) (i : Nat) : List Num := (List.range (1024 / e.w)).map fun k => e.num (blockCode p e i k)

theorem blockRow_of_rows (p : Payload) (e : Elem) {i : Nat} (hi : i < 32) :
    ((List.range 32).map fun k => (rowCodes p e.w k).map e.num).getD i [] = blockRow p e i := by
  rw [getD_map_range_of_lt _ _ hi, rowCodes_eq, List.map_map]
  rfl

theorem payloadByte_eq (p : Payload) (k : Nat) : payloadByte p k = p.toNat / 2 ^ (8 * k) % 256 := by
  rw [payloadByte, BitVec.extractLsb'_toNat, Nat.shiftRight_eq_div_pow]

/-- A sum over two rows in step, up to the end of the shorter. -/
theorem foldl_zip_map_range (f : Nat → Nat → Int) (a b : Nat → Nat) (m n : Nat) :
    (((List.range m).map a).zip ((List.range n).map b)).foldl (fun t p => t + f p.1 p.2) 0 =
      ((List.range (min m n)).map fun k => f (a k) (b k)).sum := by
  have hzip : ((List.range m).map a).zip ((List.range n).map b) = (List.range (min m n)).map fun k => (a k, b k) :=
    List.ext_getElem (by simp) fun k _ _ => by simp
  rw [hzip, List.foldl_map, List.sum_eq_foldl, List.foldl_map]

/-! ### One element of a product -/

section
variable (st : Strand) (o : XOp) (pins : List Payload)

/-- The exact product of two integer codes. -/
def Elem.times (a b : Elem) (x y : Nat) : Int :=
  match a, b with
  | .int ga wa, .int gb wb => intOf ga wa x * intOf gb wb y
  | _, _ => 0

/-- MMAI: exact products, added modulo 2^32. -/
theorem Strand.productTile_mmai : st.productTile (.mmai o) o pins =
    let a := st.elem o
    let b := if o.imm6 = 0 then a else elemOf (o.imm6.extractLsb' 0 4) 0
    tileBuild fun i j => (tileWord (st.tileData (low3 o.rd)) (32 * i + j) +
      BitVec.ofInt 32 (((List.range (min (1024 / a.w) (1024 / b.w))).map fun k =>
        a.times b (blockCode (pins.getD 0 0) a i k) (blockCode (pins.getD 1 0) b j k)).sum), 0) := by
  unfold Strand.productTile
  refine tileBuild_congr fun i hi j hj => Prod.ext ?_ rfl
  dsimp only
  rw [BitVec.ofInt_add, BitVec.ofInt_toInt, rowCodes_eq, rowCodes_eq]
  exact congrArg _ (congrArg _ (foldl_zip_map_range (Elem.times _ _) ..))

/-- MMA: the chains of the array, in groups of 32 for MF. -/
theorem Strand.productTile_mma : st.productTile (.mma o) o pins =
    let a := st.elem o
    let b := if o.fmt = 0xB then elemOf 0xB (st.desc (o.imm6.extractLsb' 0 3)) else a
    tileBuild fun i j =>
      if o.fmt = 0xB then productGroups 32 (fun _ => some 0) (blockRow (pins.getD 0 0) a i) (blockRow (pins.getD 1 0) b j)
        (tileWord (st.tileData (low3 o.rd)) (32 * i + j))
      else product16 (blockRow (pins.getD 0 0) a i) (blockRow (pins.getD 1 0) b j) (tileWord (st.tileData (low3 o.rd)) (32 * i + j)) := by
  unfold Strand.productTile
  refine tileBuild_congr fun i hi j hj => ?_
  dsimp only
  rw [blockRow_of_rows _ _ hi, blockRow_of_rows _ _ hj]
  rfl

/-- The exponent of a group: that of its scale byte in each operand. -/
def groupScale (p q : Payload) (a b : Nat) : Option Int :=
  match scaleExp (p.toNat / 2 ^ (8 * a) % 256), scaleExp (q.toNat / 2 ^ (8 * b) % 256) with
  | some y, some z => some (y + z)
  | _, _ => none

/-- MMAS: groups with their scales. -/
theorem Strand.productTile_mmas : st.productTile (.mmas o) o pins =
    let a := st.elem o
    let b := if o.fmt = 0xB then elemOf 0xB (st.desc (o.imm6.extractLsb' 0 3)) else a
    let g := if descScale (st.desc o.fd) = 2 then 16 else 32
    let per := 1024 / a.w / g
    tileBuild fun i j => productGroups g
      (fun q => groupScale (pins.getD 2 0) (pins.getD 3 0) ((st.reg o.rc).toNat % 4096 + i * per + q) ((st.reg o.re).toNat % 4096 + j * per + q))
      (blockRow (pins.getD 0 0) a i) (blockRow (pins.getD 1 0) b j) (tileWord (st.tileData (low3 o.rd)) (32 * i + j)) := by
  unfold Strand.productTile
  refine tileBuild_congr fun i hi j hj => ?_
  dsimp only
  rw [blockRow_of_rows _ _ hi, blockRow_of_rows _ _ hj]
  simp only [payloadByte_eq, Handle.off_toNat]
  rfl

end

/-! ### Pointers that advance (R185) -/

theorem Strand.reg_setReg (st : Strand) (a m : BitVec 4) (v : Word) : (st.setReg a v).reg m = if m = a then v else st.reg m := by
  simp only [Strand.reg, Strand.setReg, Vector.getElem_set, BitVec.toNat_inj, eq_comm]

/-- Post-increments change registers alone. -/
theorem Strand.advanceOnce_eq (st : Strand) (seen : List (BitVec 4)) (l : List (BitVec 4 × Nat)) :
    st.advanceOnce seen l = { st with regs := (st.advanceOnce seen l).regs } := by
  induction l generalizing st seen with
  | nil => rfl
  | cons p l ih =>
    rw [Strand.advanceOnce]
    split
    · exact ih ..
    · exact (ih ..).trans rfl

/-- Each register is advanced once, by the first amount that names it. -/
theorem Strand.reg_advanceOnce (st : Strand) (seen : List (BitVec 4)) (l : List (BitVec 4 × Nat)) (m : BitVec 4) :
    (st.advanceOnce seen l).reg m = if m ∈ seen then st.reg m else
      (l.find? fun p => p.1 == m).elim (st.reg m) fun p => padd49 (st.reg m) (BitVec.ofNat 64 p.2) := by
  induction l generalizing st seen with
  | nil => exact (ite_self _).symm
  | cons p l ih =>
    obtain ⟨a, n⟩ := p
    rw [Strand.advanceOnce, List.find?_cons]
    by_cases ha : a ∈ seen
    · have hne (hm : m ∉ seen) : (a == m) = false := beq_false_of_ne fun h => hm (h ▸ ha)
      rw [if_pos (List.contains_iff_mem.2 ha), ih]
      split
      · rfl
      next hm => rw [hne hm]
    · rw [if_neg (mt List.contains_iff_mem.1 ha), ih, Strand.reg_setReg]
      by_cases hm : m = a
      · subst hm
        simp [ha]
      · have hb : (a == m) = false := beq_false_of_ne fun h => hm h.symm
        simp only [List.mem_cons, hm, false_or, if_false, hb]

end Sys2Proof.Machine
end

section
/-!
PROOF. O43. What each tile or matrix command leaves in its strand, and its completion (R158, R184 to R193).
-/
namespace Sys2Proof.Machine

/-! ### The strand after a command -/

section
variable {st : Strand} {o : XOp} {t : Tile} (ht : st.tile (low3 o.rd) = some t)
include ht

theorem Strand.tileIsInt_of_tile : st.tileIsInt (low3 o.rd) = t.isInt := by
  simp only [Strand.tileIsInt, ht]

theorem Strand.putTile_eq (z : Payload × BitVec 5) : st.putTile (low3 o.rd) z = { st with
    tiles := st.tiles.set (low3 o.rd).toNat (some { t with data := z.1 }) (low3 o.rd).isLt, fflags := st.fflags ||| z.2 } := by
  simp only [Strand.putTile, ht]
  rfl

end

/-- Register `m` after post-increments by the amounts `l`. -/
def Strand.advanced (st : Strand) (l : List (BitVec 4 × Nat)) (m : BitVec 4) : Word :=
  (l.find? fun p => p.1 == m).elim (st.reg m) fun p => padd49 (st.reg m) (BitVec.ofNat 64 p.2)

theorem Strand.advanced_pair (st : Strand) (a b : BitVec 4) (n : Nat) (l : List (BitVec 4 × Nat)) (m : BitVec 4) :
    st.advanced ((a, n) :: (b, n) :: l) m = if m = a ∨ m = b then padd49 (st.reg m) (BitVec.ofNat 64 n) else st.advanced l m := by
  unfold Strand.advanced
  rw [List.find?_cons, List.find?_cons]
  by_cases ha : m = a
  · simp [ha]
  · by_cases hb : m = b
    · subst hb
      simp [beq_false_of_ne (Ne.symm ha)]
    · simp [ha, hb, beq_false_of_ne (Ne.symm ha), beq_false_of_ne (Ne.symm hb)]

/-- The pointers of a product and what each advances by (R185). -/
def Strand.productPointers (st : Strand) (i : Instr) (o : XOp) : List (BitVec 4 × Nat) :=
  [(o.ra, 4096), (o.rb, 4096)] ++ match i with
    | .mmas _ => [(o.rc, scaleRun (st.elem o).w (st.desc o.fd)), (o.re, scaleRun (st.elem o).w (st.desc o.fd))]
    | _ => []

theorem Strand.productDone_spec {st : Strand} {o : XOp} {t : Tile} (ht : st.tile (low3 o.rd) = some t) (i : Instr) (ps : List Payload) :
    ∃ regs : Vector Word 16, st.productDone i o ps = { st with
        tiles := st.tiles.set (low3 o.rd).toNat (some { t with data := (st.productTile i o ps).1 }) (low3 o.rd).isLt
        fflags := st.fflags ||| (st.productTile i o ps).2, regs := regs, pc := st.pc + 12, wait := .run } ∧
      ∀ m : BitVec 4, regs[m.toNat]'(m.isLt) = if o.am = 2 then st.advanced (st.productPointers i o) m else st.reg m := by
  have hdone : st.productDone i o ps = (if o.am = 2 then (st.putTile (low3 o.rd) (st.productTile i o ps)).advanceOnce [] (st.productPointers i o)
      else st.putTile (low3 o.rd) (st.productTile i o ps)).completed := rfl
  rw [hdone, Strand.putTile_eq ht]
  split
  · refine ⟨_, congrArg Strand.completed (Strand.advanceOnce_eq ..), fun m => ?_⟩
    exact (Strand.reg_advanceOnce ..).trans (if_neg List.not_mem_nil)
  · exact ⟨_, rfl, fun m => rfl⟩

/-! ### Top-k (R192, R193) -/

theorem tileRow_zipIdx (d : Payload) (n base : Nat) : ((tileRow d n).zipIdx.map fun p => (p.1, BitVec.ofNat 32 (base + p.2))) =
    (List.range 32).map fun j => (tileWord d (32 * n + j), BitVec.ofNat 32 (base + j)) :=
  List.ext_getElem (by simp [tileRow]) fun j _ _ => by simp [tileRow]

theorem tileRow_halves (d : Payload) (n : Nat) : ((tileRow d n).take 16).zip ((tileRow d n).drop 16) =
    (List.range 16).map fun j => (tileWord d (32 * n + j), tileWord d (32 * n + 16 + j)) :=
  List.ext_getElem (by simp [tileRow]) fun j _ _ => by simp [tileRow, Nat.add_assoc]

theorem tileRow_tail (d : Payload) (n : Nat) : (tileRow d n).tail = (List.range 31).map fun j => tileWord d (32 * n + j + 1) :=
  List.ext_getElem (by simp [tileRow]) fun j _ _ => by simp [tileRow, Nat.add_assoc]

/-- Row `n` of the state tile after TOPK or TOPKM, of the candidates `cand`. -/
def Strand.topRows (st : Strand) (o : XOp) (tick : Nat) (cand : Nat → List (BitVec 32 × BitVec 32)) (n : Nat) : List (BitVec 32) × BitVec 5 :=
  topRow (st.tileIsInt (low3 o.rd)) (o.imm6.getLsbD 4) (o.imm6.toNat % 16 + 1)
    ((List.range 16).map fun j => BitVec.ofNat 32 (Config.free 3 (1024 * tick + 32 * n + j)).toNat) (tileRow (st.tileData (low3 o.rd)) n) (cand n)

/-- A tile of top-k rows, with the flags of all. -/
def topBuild (rows : Nat → List (BitVec 32) × BitVec 5) : Payload × BitVec 5 :=
  (tileFrom ((((List.range 32).map rows).flatMap Prod.fst).map BitVec.toNat), ((List.range 32).map rows).foldl (fun a x => a ||| x.2) 0)

theorem topBuild_word {rows : Nat → List (BitVec 32) × BitVec 5} (h : ∀ n, (rows n).1.length = 32) {i j : Nat} (hi : i < 32) (hj : j < 32) :
    tileWord (topBuild rows).1 (32 * i + j) = (rows i).1.getD j 0 := by
  have hlen : ∀ l ∈ (List.range 32).map fun n => (rows n).1, l.length = 32 := by
    intro l hl
    obtain ⟨n, -, rfl⟩ := List.mem_map.1 hl
    exact h n
  have hword := tileWord_rows hlen hi hj
  rw [getD_map_range_of_lt _ _ hi] at hword
  rw [← hword, topBuild, List.flatMap_def, List.map_map]
  rfl

theorem topBuild_flags (rows : Nat → List (BitVec 32) × BitVec 5) :
    (topBuild rows).2 = (List.range 32).foldl (fun a n => a ||| (rows n).2) 0 := List.foldl_map

theorem Strand.topRows_length (st : Strand) (o : XOp) (tick : Nat) (cand : Nat → List (BitVec 32 × BitVec 32)) (n : Nat) :
    (st.topRows o tick cand n).1.length = 32 := topRow_length (by omega) ..

/-- The low bits of a vector as a number. -/
theorem extractLsb'_zero_eq_ofNat {n : Nat} (x : BitVec n) (w : Nat) : x.extractLsb' 0 w = BitVec.ofNat w x.toNat :=
  BitVec.eq_of_toNat_eq (by rw [BitVec.extractLsb'_toNat, Nat.shiftRight_zero, BitVec.toNat_ofNat])

section
variable (st : Strand) (o : XOp) (tick : Nat)

theorem Strand.topTile_topk : st.topTile (.topk o) o tick = topBuild (st.topRows o tick fun n =>
    (List.range 32).map fun j => (tileWord (st.tileData (low3 o.ra)) (32 * n + j), BitVec.ofNat 32 ((st.reg o.rb).toNat + j))) := by
  simp only [Strand.topTile, tileRow_zipIdx, extractLsb'_zero_eq_ofNat, ← BitVec.ofNat_add, BitVec.toNat_ofNat]
  rfl

theorem Strand.topTile_topkm : st.topTile (.topkm o) o tick = topBuild (st.topRows o tick fun n => (List.range 16).map fun j =>
    (tileWord (st.tileData (low3 o.ra)) (32 * n + j), tileWord (st.tileData (low3 o.ra)) (32 * n + 16 + j))) := by
  simp only [Strand.topTile, tileRow_halves, extractLsb'_zero_eq_ofNat, BitVec.toNat_ofNat]
  rfl

/-! ### TZERO and the lanes of TMAXR, TSUMR and TRDV (R184, R190, R191) -/

theorem Strand.zeroTile_word (h : o.imm6 ≠ 0) {i j : Nat} (hi : i < 32) (hj : j < 32) : tileWord (st.zeroTile o) (32 * i + j) =
    if 16 ≤ j then 0xFFFFFFFF#32 else emptyScore (st.tileIsInt (low3 o.rd)) (o.imm6 == 2#6) := by
  have hlen : ∀ l ∈ List.replicate 32 (emptyRow (st.tileIsInt (low3 o.rd)) (o.imm6 == 2#6)), l.length = 32 := by
    intro l hl
    rw [List.eq_of_mem_replicate hl]
    rfl
  rw [Strand.zeroTile, if_neg h, List.flatMap_id, tileWord_rows hlen hi hj, List.getD_replicate _ hi, emptyRow_getD _ _ hj]

end

end Sys2Proof.Machine
end

section
/-!
PROOF. O43. The completion of tile and matrix commands (R158, R186), and of the two that post (R189, R259).
-/
namespace Sys2Proof.Machine

/-! ### Posts (R94) -/

theorem State.post_steady (s : State) (r : Nat) (kind : OpKind) (h : Word) (p : Place) (b : BitVec 2) : Steady s (s.post r kind h p b) := by
  unfold State.post
  split
  · exact .refl s
  next st hs =>
    dsimp only
    have hopen : Steady s (s.openBatch r b (homeOf p)).2 := by
      simp only [State.openBatch, hs]
      exact (State.setStrand_steady ..).after ⟨rfl, rfl, rfl, rfl, fun _ => .refl _⟩
    refine hopen.trans ?_
    generalize (s.openBatch r b (homeOf p)).2 = t
    obtain ⟨us, sq, fr, nt, out, l, k, np, el, eh, hf⟩ :=
      t.sendOp_frame kind h p (unitCore st.home) .batch st.tracker b (s.openBatch r b (homeOf p)).1 st.node
    rw [hf]
    exact ⟨rfl, rfl, rfl, rfl, fun _ => .refl _⟩

/-- Each post takes the next number. -/
theorem State.fresh_postAll (ops : List (OpKind × Word)) {s : State} {r : Nat} {st : Strand} (p : Place) (b : BitVec 2)
    (hs : s.strand r = some st) : (ops.foldl (fun t k => t.post r k.1 k.2 p b) s).fresh = s.fresh + ops.length := by
  induction ops generalizing s st with
  | nil => rfl
  | cons a l ih =>
    obtain ⟨-, -, hfresh, -, -, -, -, -, hstrands, -⟩ := State.post_spec s r st a.1 a.2 p b hs
    have hnext : (s.post r a.1 a.2 p b).strand r = some { st with opens := st.opens ||| (1#4 <<< b.toNat) } := by
      rw [State.strand, hstrands, Maps.get_put_same]
    rw [List.foldl_cons, ih hnext, hfresh, List.length_cons, Nat.add_assoc, Nat.add_comm 1]

/-! ### A unit is done with a strand that keeps its place -/

theorem Steady.stays {s t : State} (h : Steady s t) {st : Strand} (hst : s.stays st) : t.stays st := by
  obtain ⟨hended, hcore, hcluster, hanvil⟩ := hst
  refine ⟨hended, ?_, (h.inService _).trans hcluster, ?_⟩
  · rw [State.fenced, h.tests]
    exact hcore
  · rw [State.fencedAnvil, h.tests]
    exact hanvil

theorem State.unitDone_eq {s : State} {r : Nat} {st : Strand} (hs : s.strand r = some st) (hst : s.stays st) : s.unitDone r = s := by
  obtain ⟨hended, hcore, hcluster, hanvil⟩ := hst
  have hleave : s.mustLeave st = false := by
    simp [State.mustLeave, hcore, hcluster, hanvil]
  simp only [State.unitDone, hs, hended, hleave, Bool.false_eq_true, if_false]

theorem State.leaveAnvil_steady (s : State) (r : Nat) : Steady s (s.leaveAnvil r) := ⟨rfl, rfl, rfl, rfl, fun _ => .refl _⟩

/-! ### Completion -/

/-- A tile command outside the matrix class is no command of the vector lanes, and is not TST. -/
theorem Strand.tileDone_class {st st' : Strand} {i : Instr} {ps : List Payload} {tick : Nat} (hd : st.tileDone i ps tick = some st') :
    st.vectorDone i = none ∧ ∀ o, i ≠ .tst o := by
  unfold Strand.tileDone at hd
  dsimp only at hd
  split at hd
  case h_18 => cases hd
  all_goals exact ⟨rfl, fun _ h => nomatch h⟩

theorem Pin.payload_getD (pins : List Pin) (k : Nat) : (pins.map Pin.payload).getD k 0 = (pins.getD k .waiting).payload := by
  rw [← List.getD_map (f := Pin.payload)]
  rfl

section
variable {s : State} {r : Nat} {st : Strand} {i : Instr} {pins : List Pin} {d : Option Place}
  (hs : s.strand r = some st) (hw : st.wait = .command i true pins d)
include hs hw

theorem State.running_eq : s.running r = some (st, i, pins.map Pin.payload, d) := by
  simp only [State.running, hs, hw]

section
variable {st' : Strand} (hstay : s.stays st) (hd : st.tileDone i (pins.map Pin.payload) s.tick = some st')
  (hend : st'.ended = st.ended) (hhome : st'.home = st.home)
include hstay hd hend hhome

theorem execVectorResult_tile (hi : isMatrix i = false) : execVectorResult r s = .next ((s.leaveAnvil r).setStrand r st') := by
  obtain ⟨hvector, hother⟩ := Strand.tileDone_class hd
  rw [execVectorResult, State.running_eq hs hw]
  dsimp only
  rw [hi, if_neg Bool.false_ne_true, hvector]
  dsimp only
  split
  next o _ => exact absurd rfl (hother o)
  · rw [hd]
    exact congrArg _ (State.unitDone_stays hstay hend hhome)

theorem execMatrixResult_matrix (hi : isMatrix i = true) : execMatrixResult r s = .next ((s.leaveAnvil r).setStrand r st') := by
  rw [execMatrixResult, State.running_eq hs hw]
  dsimp only
  rw [hi, if_pos rfl, hd]
  exact congrArg _ (State.unitDone_stays hstay hend hhome)

end

end

/-! ### The commands that post (R189, R259) -/

section
variable {s : State} {r : Nat} {st : Strand} {o : XOp} {pins : List Pin} {p : Place}
  (hs : s.strand r = some st)
include hs

theorem execVectorResult_tst (hw : st.wait = .command (.tst o) true pins (some p))
    (hroom : s.roomFor (unitCore st.home) (homeOf p) 32 = true) :
    execVectorResult r s = .next (((s.leaveAnvil r).tstDone r st o p).unitDone r) := by
  have hvector : st.vectorDone (.tst o) = none := rfl
  have hclass : isMatrix (.tst o) = false := rfl
  rw [execVectorResult, State.running_eq hs hw]
  dsimp only
  rw [hclass, if_neg Bool.false_ne_true, hvector]
  exact congrArg Host.Outcome.next (if_pos hroom)

theorem execAcctPost_posts (hw : st.wait = .command (.acct o) true pins (some p))
    (hroom : s.roomFor (unitCore st.home) (homeOf p) 1 = true) :
    execAcctPost r s = .next ((((s.leaveAnvil r).post r
        (.accum 0 4096 o.fmt (o.imm6.extractLsb' 0 2) (o.mod.getLsbD 0) (st.tileData (low3 o.rd))) (st.ea o 4096).h p (st.batchFor o)).updStrand r
      fun st' => (st'.setReg o.ra (st.ea o 4096).upd).completed).unitDone r) := by
  rw [execAcctPost, State.running_eq hs hw]
  exact if_pos hroom

end

theorem Strand.tstWrites_length (st : Strand) (o : XOp) : (st.tstWrites o).1.length = 32 := by
  simp [Strand.tstWrites]

/-- Row `i` of a TST goes 128 bytes further per row. -/
theorem Strand.tstWrites_handle {st : Strand} {o : XOp} (hoff : (st.reg o.ra).toNat % 4096 < 128) {i : Nat} (hi : i < (st.tstWrites o).1.length) :
    ((st.tstWrites o).1[i]).2 = BitVec.ofNat 64 ((st.reg o.ra).toNat + 128 * i) := by
  have hlt : i < 32 := by simpa [Strand.tstWrites] using hi
  have hword := (st.reg o.ra).isLt
  refine BitVec.eq_of_toNat_eq ?_
  simp only [Strand.tstWrites, List.map_map, List.getElem_map, List.getElem_range, Function.comp, toNat_append_add, BitVec.extractLsb'_toNat,
    BitVec.toNat_ofNat, Handle.off_toNat, Nat.shiftRight_eq_div_pow]
  omega

end Sys2Proof.Machine
end

section
/-!
PROOF. O43. Each clause is a completion: of a command whose effect is in its strand alone (`execVectorResult_tile`,
`execMatrixResult_matrix`), or of one that posts (`State.tstDone_spec`, `State.acctDone_spec`).
-/
namespace Sys2Proof.Machine

/-- The pointer of a block access, advanced by a block or left (R91). -/
theorem Strand.advanceBlock_eq (st : Strand) (o : XOp) : (if o.am = 2 then st.advanceOnce [] [(o.ra, 4096)] else st) =
    st.setReg o.ra (if o.am = 2 then padd49 (st.reg o.ra) 4096 else st.reg o.ra) := by
  by_cases h : o.am = 2
  · rw [if_pos h, if_pos h]
    rfl
  · rw [if_neg h, if_neg h]
    exact congrArg (fun g => { st with regs := g }) (Vector.set_getElem_self _).symm

section
variable (st : Strand) (o : XOp) (m : BitVec 4)

theorem Strand.advanced_operands {i : Instr} (hi : st.productPointers i o = [(o.ra, 4096), (o.rb, 4096)]) :
    st.advanced (st.productPointers i o) m = if m = o.ra ∨ m = o.rb then padd49 (st.reg m) 4096 else st.reg m :=
  hi ▸ st.advanced_pair o.ra o.rb 4096 [] m

/-- A register that is an operand and a scale pointer advances by a block (log entry 49). -/
theorem Strand.advanced_mmas : st.advanced (st.productPointers (.mmas o) o) m =
    if m = o.ra ∨ m = o.rb then padd49 (st.reg m) 4096
    else if m = o.rc ∨ m = o.re then padd49 (st.reg m) (BitVec.ofNat 64 (scaleRun (st.elem o).w (st.desc o.fd))) else st.reg m := by
  exact (st.advanced_pair o.ra o.rb 4096 _ m).trans (if_congr Iff.rfl rfl (st.advanced_pair o.rc o.re _ [] m))

end

theorem Strand.tileLanes_tmaxr (st : Strand) (o : XOp) : st.tileLanes (.tmaxr o) o = vecBuild fun l =>
    foldFlags (tileMax (fmtInt o)) (tileWord (st.tileData (low3 o.ra)) (32 * l), 0)
      ((List.range 31).map fun j => tileWord (st.tileData (low3 o.ra)) (32 * l + j + 1)) := by
  simp only [Strand.tileLanes, tileRow_tail]

/-- TST with room: the 32 posts, then the strand moves on. -/
theorem State.tstDone_spec {s : State} {r : Nat} {st : Strand} (hs : s.strand r = some st) (hstay : s.stays st) (o : XOp) (p : Place) :
    (s.tstDone r st o p).unitDone r =
      ((st.tstWrites o).1.foldl (fun t k => t.post r k.1 k.2 p (st.batchFor o)) s).setStrand r { st with
        opens := st.opens ||| (1#4 <<< (st.batchFor o).toNat), fflags := st.fflags ||| (st.tstWrites o).2
        regs := st.regs.set o.ra.toNat (if o.am = 2 then padd49 (st.reg o.ra) 4096 else st.reg o.ra) o.ra.isLt
        pc := st.pc + 12, wait := .run } := by
  have hne : (st.tstWrites o).1 ≠ [] := List.ne_nil_of_length_pos (by rw [Strand.tstWrites_length]; decide)
  obtain ⟨hposted, -⟩ := State.postAll (st.tstWrites o).1 s r st p (st.batchFor o) hs
  have hsteady := Steady.foldl (fun t (k : OpKind × Word) => t.post_steady r k.1 k.2 p (st.batchFor o)) (st.tstWrites o).1 s
  rw [State.tstDone, State.updStrand_some _ _ _ _ (hposted hne), Strand.advanceBlock_eq]
  exact State.unitDone_eq (State.strand_setStrand_same ..) ((hsteady.trans (State.setStrand_steady ..)).stays hstay)

/-- A posted operation on its way stays so, whatever a strand becomes. -/
theorem State.onWay_setStrand {s : State} {k : Nat} {q : Op} (ha : q.asker = .batch) (hq : s.onWay k q) (r : Nat) (st : Strand) :
    (s.setStrand r st).onWay k q := by
  have hb : (s.setStrand r st).opBody q = s.opBody q := by simp only [State.opBody, ha, Asker.clusterOf]
  cases hp : q.place with
  | off m =>
    simp only [State.onWay, hp, hb] at hq ⊢
    exact hq
  | dom _ _ | pad _ _ =>
    simp only [State.onWay, hp] at hq ⊢
    exact hq

/-- The 32 writes that TST posts, on their way under consecutive numbers, whatever its strand becomes. -/
theorem State.tstPosts_onWay {s : State} {r : Nat} {st : Strand} (hs : s.strand r = some st) {o : XOp} (p : Place) (b : BitVec 2)
    (st' : Strand) (hoff : (st.reg o.ra).toNat % 4096 < 128) :
    let u := ((st.tstWrites o).1.foldl (fun t k => t.post r k.1 k.2 p b) s).setStrand r st'
    u.fresh = s.fresh + 32 ∧ ∀ i < 32, ∃ q : Op, u.onWay (s.fresh + i) q ∧ q.place = p ∧
      q.h = BitVec.ofNat 64 ((st.reg o.ra).toNat + 128 * i) ∧ some q.kind = ((st.tstWrites o).1[i]?.map Prod.fst) ∧
      q.unit = unitCore st.home ∧ q.asker = .batch ∧ q.batch = b := by
  obtain ⟨-, -, hway, -⟩ := State.postAll (st.tstWrites o).1 s r st p b hs
  have hfresh := State.fresh_postAll (st.tstWrites o).1 p b hs
  rw [Strand.tstWrites_length] at hfresh
  refine ⟨(State.setStrand_fresh ..).trans hfresh, fun i hi => ?_⟩
  have hlt : i < (st.tstWrites o).1.length := (st.tstWrites_length o).symm ▸ hi
  refine ⟨_, State.onWay_setStrand rfl (hway i hlt) r st', rfl, Strand.tstWrites_handle hoff hlt, ?_, rfl, rfl, rfl⟩
  rw [List.getElem?_eq_getElem hlt, Option.map_some]

/-- ACCT with room: the post, then the strand moves on. -/
theorem State.acctDone_spec {s : State} {r : Nat} {st : Strand} (hs : s.strand r = some st) (hstay : s.stays st) (o : XOp) (p : Place)
    (kind : OpKind) (e : Ea) :
    ((s.post r kind e.h p (st.batchFor o)).updStrand r fun st' => (st'.setReg o.ra e.upd).completed).unitDone r =
      (s.post r kind e.h p (st.batchFor o)).setStrand r { st with
        opens := st.opens ||| (1#4 <<< (st.batchFor o).toNat), regs := st.regs.set o.ra.toNat e.upd o.ra.isLt
        pc := st.pc + 12, wait := .run } := by
  obtain ⟨-, -, -, -, -, -, -, -, hstrands, -⟩ := State.post_spec s r st kind e.h p (st.batchFor o) hs
  have hposted : (s.post r kind e.h p (st.batchFor o)).strand r = some { st with opens := st.opens ||| (1#4 <<< (st.batchFor o).toNat) } := by
    rw [State.strand, hstrands, Maps.get_put_same]
  rw [State.updStrand_some _ _ _ _ hposted]
  exact State.unitDone_eq (State.strand_setStrand_same ..) (((s.post_steady ..).trans (State.setStrand_steady ..)).stays hstay)

/-! ### Results word by word -/

section
variable {s : State} {r : Nat} {st : Strand} {pins : List Pin} {d : Option Place} {o : XOp} (hs : s.strand r = some st) (hstay : s.stays st)
include hs hstay

/-- A command that leaves a formula in every element of its tile. -/
theorem vectorResult_elems (x : Instr × (Nat → Nat → BitVec 32 × BitVec 5)) {t : Tile} (ht : st.tile (low3 o.rd) = some t)
    (hw : st.wait = .command x.1 true pins d) (hi : isMatrix x.1 = false)
    (hd : st.tileDone x.1 (pins.map Pin.payload) s.tick = some (st.putTile (low3 o.rd) (st.tileElems x.1 o)).completed)
    (hfn : st.tileElems x.1 o = tileBuild x.2) :
    ∃ z : Payload, execVectorResult r s = .next ((s.leaveAnvil r).setStrand r { st with
        tiles := st.tiles.set (low3 o.rd).toNat (some { t with data := z }) (low3 o.rd).isLt
        fflags := st.fflags ||| (List.range 1024).foldl (fun a k => a ||| (x.2 (k / 32) (k % 32)).2) 0
        pc := st.pc + 12, wait := .run }) ∧
      ∀ i < 32, ∀ j < 32, tileWord z (32 * i + j) = (x.2 i j).1 := by
  rw [Strand.putTile_eq ht, hfn, tileBuild_flags] at hd
  exact ⟨(tileBuild x.2).1, execVectorResult_tile hs hw hstay hd rfl rfl hi, fun i hi j hj => tileBuild_word x.2 hi hj⟩

theorem vectorResult_tzero {t : Tile} (ht : st.tile (low3 o.rd) = some t) (hw : st.wait = .command (.tzero o) true pins d) :
    execVectorResult r s = .next ((s.leaveAnvil r).setStrand r { st with
      tiles := st.tiles.set (low3 o.rd).toNat (some { t with data := st.zeroTile o }) (low3 o.rd).isLt
      fflags := st.fflags ||| 0, pc := st.pc + 12, wait := .run }) := by
  have hd : st.tileDone (.tzero o) (pins.map Pin.payload) s.tick = some (st.putTile (low3 o.rd) (st.zeroTile o, 0)).completed := rfl
  rw [Strand.putTile_eq ht] at hd
  exact execVectorResult_tile hs hw hstay hd rfl rfl rfl

/-- A command that writes the 32 lanes of a vector. -/
theorem vectorResult_tileLanes (x : Instr × (Nat → BitVec 32 × BitVec 5))
    (hw : st.wait = .command x.1 true pins d) (hi : isMatrix x.1 = false)
    (hd : st.tileDone x.1 (pins.map Pin.payload) s.tick =
      some ((st.setVec (low3 o.rd) (st.tileLanes x.1 o).1 (tileTag o)).orFlags (st.tileLanes x.1 o).2).completed)
    (hfn : st.tileLanes x.1 o = vecBuild x.2) :
    ∃ z : Vec, (∀ i < 32, (z.extractLsb' (32 * i) 32 : BitVec 32) = (x.2 i).1) ∧
      execVectorResult r s = .next ((s.leaveAnvil r).setStrand r { st with
        vecs := st.vecs.set (low3 o.rd).toNat z (low3 o.rd).isLt, tags := st.tags.set (low3 o.rd).toNat (o.fmt ++ 0#4) (low3 o.rd).isLt
        fflags := st.fflags ||| (List.range 32).foldl (fun f i => f ||| (x.2 i).2) 0, pc := st.pc + 12, wait := .run }) := by
  rw [hfn, vecBuild_flags] at hd
  exact ⟨(vecBuild x.2).1, fun i hi => vecBuild_word x.2 hi, execVectorResult_tile hs hw hstay hd rfl rfl hi⟩

section
variable {i : Instr} {t : Tile} (ht : st.tile (low3 o.rd) = some t) (hw : st.wait = .command i true pins d) (hi : isMatrix i = true)
include ht hw hi

/-- A product leaves its formula in every element of its tile, and advances its pointers. -/
theorem matrixResult_product (elem : Nat → Nat → BitVec 32 × BitVec 5)
    (hd : st.tileDone i (pins.map Pin.payload) s.tick = some (st.productDone i o (pins.map Pin.payload)))
    (htile : st.productTile i o (pins.map Pin.payload) = tileBuild elem) :
    ∃ (z : Payload) (regs : Vector Word 16), execMatrixResult r s = .next ((s.leaveAnvil r).setStrand r { st with
        tiles := st.tiles.set (low3 o.rd).toNat (some { t with data := z }) (low3 o.rd).isLt
        fflags := st.fflags ||| (List.range 1024).foldl (fun a k => a ||| (elem (k / 32) (k % 32)).2) 0
        regs := regs, pc := st.pc + 12, wait := .run }) ∧
      (∀ i < 32, ∀ j < 32, tileWord z (32 * i + j) = (elem i j).1) ∧
      ∀ m : BitVec 4, regs[m.toNat]'(m.isLt) = if o.am = 2 then st.advanced (st.productPointers i o) m else st.reg m := by
  obtain ⟨regs, hst, hregs⟩ := Strand.productDone_spec ht i (pins.map Pin.payload)
  rw [hst, htile, tileBuild_flags] at hd
  exact ⟨(tileBuild elem).1, regs, execMatrixResult_matrix hs hw hstay hd rfl rfl hi, fun i hi j hj => tileBuild_word elem hi hj, hregs⟩

/-- TOPK and TOPKM leave a row of top-k in each row of their tile. -/
theorem matrixResult_top (rows : Nat → List (BitVec 32) × BitVec 5) {cand : Nat → List (BitVec 32 × BitVec 32)}
    (hd : st.tileDone i (pins.map Pin.payload) s.tick = some (st.putTile (low3 o.rd) (st.topTile i o s.tick)).completed)
    (htile : st.topTile i o s.tick = topBuild (st.topRows o s.tick cand)) (hrows : st.topRows o s.tick cand = rows) :
    ∃ z : Payload, execMatrixResult r s = .next ((s.leaveAnvil r).setStrand r { st with
        tiles := st.tiles.set (low3 o.rd).toNat (some { t with data := z }) (low3 o.rd).isLt
        fflags := st.fflags ||| (List.range 32).foldl (fun a n => a ||| (rows n).2) 0, pc := st.pc + 12, wait := .run }) ∧
      ∀ i < 32, ∀ j < 32, tileWord z (32 * i + j) = (rows i).1.getD j 0 := by
  have hlen : ∀ n, (rows n).1.length = 32 := hrows ▸ st.topRows_length o s.tick cand
  rw [Strand.putTile_eq ht, htile, hrows, topBuild_flags] at hd
  exact ⟨(topBuild rows).1, execMatrixResult_matrix hs hw hstay hd rfl rfl hi, fun i hi j hj => topBuild_word hlen hi hj⟩

end

end

/-- Settles O43: each clause is a completion, with the words, lanes or rows that its result holds. -/
theorem tileResults : Obligations.TileResults := by
  unfold Obligations.TileResults
  intro o s rec st pins d hs hstay mode int free ran tile v rnd add n col next pay put runs
  have hpay (k : Nat) : (pins.map Pin.payload).getD k 0 = pay k := Pin.payload_getD pins k
  refine ⟨fun t ht => ⟨?elems, ?zero, ?empty, ?tld, ?products, ?topk⟩, ?lanes, ?noResult, fun p hp => ?posts⟩
  case elems =>
    repeat' refine List.forall_mem_cons.2 ⟨?_, ?_⟩
    iterate 5 exact fun hw => vectorResult_elems hs hstay _ ht hw rfl rfl rfl
    exact List.forall_mem_nil _
  case zero =>
    intro hw h0
    have hz : st.zeroTile o = 0 := if_pos h0
    have hev := vectorResult_tzero hs hstay ht hw
    rw [hz] at hev
    exact hev
  case empty =>
    intro hw h0
    refine ⟨_, vectorResult_tzero hs hstay ht hw, fun i hi j hj => (st.zeroTile_word o h0 hi hj).trans ?_⟩
    simp only [emptyScore, Strand.tileIsInt_of_tile ht, beq_iff_eq]
    rfl
  case tld =>
    intro hw
    have hd : st.tileDone (.tld o) (pins.map Pin.payload) s.tick = some (if o.am = 2 then
        (st.putTile (low3 o.rd) ((pins.map Pin.payload).getD 0 0, 0)).advanceOnce [] [(o.ra, 4096)]
      else st.putTile (low3 o.rd) ((pins.map Pin.payload).getD 0 0, 0)).completed := rfl
    rw [Strand.advanceBlock_eq, Strand.putTile_eq ht, hpay] at hd
    exact execVectorResult_tile hs hw hstay hd rfl rfl rfl
  case products =>
    repeat' refine List.forall_mem_cons.2 ⟨?_, ?_⟩
    case _ => -- MMA
      intro hw a b code row g per scale elem
      have htile : st.productTile (.mma o) o (pins.map Pin.payload) = tileBuild elem := by
        rw [Strand.productTile_mma]
        refine tileBuild_congr fun i _ j _ => ?_
        simp only [elem, b, reduceCtorEq, if_false, hpay]
        rfl
      obtain ⟨z, regs, hput, hz, hregs⟩ := matrixResult_product hs hstay ht hw rfl elem rfl htile
      refine ⟨z, regs, hput, hz, fun m => (hregs m).trans ?_⟩
      simp only [ne_eq, ite_not, reduceCtorEq, false_and, if_false, st.advanced_operands o m (i := .mma o) rfl]
    case _ => -- MMAS
      intro hw a b code row g per scale elem
      have htile : st.productTile (.mmas o) o (pins.map Pin.payload) = tileBuild elem := by
        rw [Strand.productTile_mmas]
        refine tileBuild_congr fun i _ j _ => ?_
        simp only [elem, b, reduceCtorEq, if_false, if_true, hpay]
        rfl
      obtain ⟨z, regs, hput, hz, hregs⟩ := matrixResult_product hs hstay ht hw rfl elem rfl htile
      refine ⟨z, regs, hput, hz, fun m => (hregs m).trans ?_⟩
      simp only [ne_eq, ite_not, true_and, Strand.advanced_mmas]
      rfl
    case _ => -- MMAI
      intro hw a b code row g per scale elem
      have htile : st.productTile (.mmai o) o (pins.map Pin.payload) = tileBuild elem := by
        rw [Strand.productTile_mmai]
        refine tileBuild_congr fun i _ j _ => ?_
        simp only [elem, b, if_true, hpay]
        rfl
      obtain ⟨z, regs, hput, hz, hregs⟩ := matrixResult_product hs hstay ht hw rfl elem rfl htile
      refine ⟨z, regs, hput, hz, fun m => (hregs m).trans ?_⟩
      simp only [ne_eq, ite_not, reduceCtorEq, false_and, if_false, st.advanced_operands o m (i := .mmai o) rfl]
    case _ => exact List.forall_mem_nil _
  case topk =>
    repeat' refine List.forall_mem_cons.2 ⟨?_, ?_⟩
    case _ => -- TOPK
      intro hw base rows
      refine matrixResult_top hs hstay ht hw rfl rows rfl (st.topTile_topk o s.tick) (funext fun i => ?_)
      simp only [Strand.topRows, Strand.tileIsInt_of_tile ht, rows, if_true]
      rfl
    case _ => -- TOPKM
      intro hw base rows
      refine matrixResult_top hs hstay ht hw rfl rows rfl (st.topTile_topkm o s.tick) (funext fun i => ?_)
      simp only [Strand.topRows, Strand.tileIsInt_of_tile ht, rows, reduceCtorEq, if_false]
      rfl
    case _ => exact List.forall_mem_nil _
  case lanes =>
    repeat' refine List.forall_mem_cons.2 ⟨?_, ?_⟩
    · exact fun hw => vectorResult_tileLanes hs hstay _ hw rfl rfl (st.tileLanes_tmaxr o)
    · exact fun hw => vectorResult_tileLanes hs hstay _ hw rfl rfl rfl
    · exact fun hw => vectorResult_tileLanes hs hstay _ hw rfl rfl rfl
    · exact List.forall_mem_nil _
  case noResult =>
    rintro (hw | hw)
    · exact execVectorResult_tile (st' := ran) hs hw hstay rfl rfl rfl rfl
    · exact execVectorResult_tile (st' := ran) hs hw hstay rfl rfl rfl rfl
  case posts =>
    intro b
    subst hp
    refine ⟨?tst, ?acct⟩
    case tst =>
      intro hw hoff hroom
      have hev := execVectorResult_tst hs hw hroom
      rw [State.tstDone_spec (s := s.leaveAnvil rec) hs ((s.leaveAnvil_steady rec).stays hstay)] at hev
      obtain ⟨hfresh, hway⟩ := State.tstPosts_onWay (s := s.leaveAnvil rec) hs p (st.batchFor o) _ hoff
      exact ⟨_, hev, _, _, _, _, State.strand_setStrand_same .., rfl, rfl, rfl, rfl, hfresh, hway⟩
    case acct =>
      intro hw hroom
      obtain ⟨hway, -⟩ := State.post_spec (s.leaveAnvil rec) rec st
        (.accum 0 4096 o.fmt (o.imm6.extractLsb' 0 2) (o.mod.getLsbD 0) (st.tileData (low3 o.rd))) (st.ea o 4096).h p (st.batchFor o) hs
      have hev := execAcctPost_posts hs hw hroom
      rw [State.acctDone_spec (s := s.leaveAnvil rec) hs ((s.leaveAnvil_steady rec).stays hstay)] at hev
      exact ⟨_, hev, State.strand_setStrand_same .., _, hway, rfl, rfl, rfl, rfl, rfl, rfl⟩

end Sys2Proof.Machine
end
